-- ==== Sys2Proof/Word.lean ====
section
/-! DEFINITION. The machine's words and the plainest operations on them (R2, R62 of spec/). -/

namespace Sys2Proof

/-- A uniform name, an address, a control register: 64 bits. -/
abbrev Word := BitVec 64

/-- A 32-bit lane name, an instruction word. -/
abbrev Half := BitVec 32

/-- The smallest addressable unit (R36). -/
abbrev Byte := BitVec 8

/-- `bits(x, hi, lo)` of R6, on natural numbers. -/
def bits (x hi lo : Nat) : Nat := x / 2 ^ lo % 2 ^ (hi + 1 - lo)

/-- One bit of a number. -/
def bit (x k : Nat) : Bool := x / 2 ^ k % 2 == 1

end Sys2Proof
end

