-- ==== Sys2Proof/Config.lean ====
section
/-! DEFINITION. What an implementation fixes and the free values: every constant here has no body,
so no proof can lean on a value of it. -/

namespace Sys2Proof

/-- A fresh undefined value (R10): `Config.freeWord seed tag` is the bit pattern that the undefined
element `tag` shows at the step whose free-value counter is `seed` (log 3). -/
opaque Config.freeWord : Nat → Nat → BitVec 64

/-- A choice that the manual leaves unspecified among listed outcomes (R10): reduced modulo the number
of outcomes where it is used (log 3). -/
opaque Config.freeChoice : Nat → Nat → Nat

/-- The special functions' place inside their bound (R128, R131): a fixed function of which function it
is, the rounding mode and the input bits (log 10). -/
opaque Config.specialPick : Nat → Nat → BitVec 32 → Nat

/-- VFROPE's place inside its bound (R132): a fixed function of the half, the mode, the pair, the
position and the frequency (log 10). -/
opaque Config.ropePick : Bool → Nat → BitVec 64 → BitVec 32 → BitVec 32 → Nat

/-- SHAKE256 with 64 bytes of output (R342, R386 name it and do not define it; log 11). -/
opaque Config.shake256 : List (BitVec 8) → List (BitVec 8)

/-- Ed448 verification of a signature over a message under a key (R386 names it and does not define
it; log 11). Arguments: key, message, signature. -/
opaque Config.ed448Verify : List (BitVec 8) → List (BitVec 8) → List (BitVec 8) → Bool

/-- The maker key whose digest is held in ROM (R386; log 11). -/
opaque Config.makerKey : List (BitVec 8)

/-- The device's serial number (R387 names it; log 11). -/
opaque Config.serial : List (BitVec 8)

/-- The contents of the boot ROM of the global scheduler core (R359 gives the region and no contents;
log 24). -/
opaque Config.romByte : Nat → BitVec 8

/-- Addresses and sizes that the manual leaves to the executive's choice, by what and by index (log 25): 0 a
launch's fault ring, 1 its address in the process, 2 a context's root table, 3 the executive-request ring, 4 its
size, 5 a gang's image, 6 a page for page tables, 7 a page of a stack region, 8 a queue's descriptor, 9 a launch's home. -/
opaque Config.execPlace : Nat → Nat → Nat

/-- The codes of message kinds in flits (R361 gives none; log 29): 0 a load's request, 1 a store's, 2 an atomic's, 3 a
response, 4 a collective message. -/
opaque Config.messageKind : Nat → BitVec 6

/-- The nonces that the device issues for ownership-transfer requests (R387), by how many it has issued before. -/
opaque Config.nonce : Nat → BitVec 256

/-- The cause that the scheduler's local trap shows for a packet that fails a check (R379 gives none; log 79), by the
check's reason. -/
opaque Config.packetCause : Nat → BitVec 16

/-- By how many mW the power limit falls for each m°C from 95 °C on (R408 says in proportion and no more; log 80). -/
opaque Config.limitSlope : Nat

/-- The processes that hold the executive's debug privilege (R384; log 81). -/
opaque Config.debugPrivilege : Nat → Bool

/-- This device's number on the fabric (R363 names it; log 53). -/
opaque Config.device : BitVec 8

end Sys2Proof
end

