-- ==== Sys2Proof/Syntax.lean ====
section
/-! DEFINITION. The abstract syntax: the operand records of the instruction formats (R48, R51, R56, R57)
and `Instr`, one constructor per row of spec/opcode_table.json. -/

namespace Sys2Proof

/-- A guard (R30, R51, R56): `pred neg d` holds when entry `d` is 1, or is 0 when `neg`. -/
inductive Guard where
  | always
  | pred (neg : Bool) (depth : Fin 8)
  deriving DecidableEq, Repr

/-- The operands of a two-word or three-word instruction in the ordinary layout (R51, R56). A two-word
field is zero-extended; an immediate lies in `s2`, or across `s1` and `s2` in three words (R55). -/
structure Ops where
  wide  : Bool
  chain : Bool
  guard : Guard
  k0    : Bool
  k1    : Bool
  k2    : Bool
  mod   : BitVec 3
  dst   : BitVec 16
  s0    : BitVec 16
  s1    : BitVec 16
  s2    : BitVec 16
  deriving DecidableEq, Repr

/-- A predicate instruction (layout P, R48). -/
structure POps where
  chain : Bool
  guard : Guard
  a     : BitVec 3
  b     : BitVec 3
  name  : BitVec 7
  deriving DecidableEq, Repr

/-- A single-word uniform instruction (layout U, R48). -/
structure UOps where
  chain : Bool
  ka    : Bool
  kb    : Bool
  d     : BitVec 7
  a     : BitVec 7
  b     : BitVec 7
  deriving DecidableEq, Repr

/-- The single-word SCMP (layout K, R48). -/
structure KOps where
  chain : Bool
  ka    : Bool
  imm   : Bool
  uns   : Bool
  cond  : BitVec 4
  a     : BitVec 7
  b     : BitVec 7
  deriving DecidableEq, Repr

/-- The format-level fields of an engine command (R56, R57). -/
structure EHead where
  chain : Bool
  guard : Guard
  k0    : Bool
  k1    : Bool
  k2    : Bool
  mod   : BitVec 3
  deriving DecidableEq, Repr

/-- A copy command (R244). -/
structure CopyOps where
  h   : EHead
  buf : BitVec 8
  g   : BitVec 12
  tok : BitVec 12
  rt  : BitVec 16
  idx : BitVec 16
  deriving DecidableEq, Repr

/-- MMA and MMAG (R264). -/
structure MmaOps where
  h  : EHead
  tl : BitVec 4
  ab : BitVec 8
  bn : BitVec 12
  cv : BitVec 4
  br : BitVec 6
  fa : BitVec 6
  fb : BitVec 6
  mc : BitVec 2
  nc : BitVec 2
  ia : BitVec 7
  ib : BitVec 7
  deriving DecidableEq, Repr

/-- EPI (R276). -/
structure EpiOps where
  h   : EHead
  db  : BitVec 8
  tl  : BitVec 4
  cn  : BitVec 12
  vb  : BitVec 8
  fmt : BitVec 6
  mc  : BitVec 2
  nc  : BitVec 2
  deriving DecidableEq, Repr

/-- A palp command (R289). -/
structure PalpOps where
  h  : EHead
  pb : BitVec 8
  u  : BitVec 12
  t  : BitVec 12
  rb : BitVec 8
  deriving DecidableEq, Repr

/-- COLL (R366). -/
structure CollOps where
  h  : EHead
  db : BitVec 8
  sb : BitVec 8
  cn : BitVec 12
  t  : BitVec 12
  deriving DecidableEq, Repr

/-- What the executive finds for a faulting page (R213): it writes table words and the page is mapped,
or it refuses the access. -/
inductive Service where
  | mapped (tables : List (Nat × BitVec 64))
  | invalid
  | forbidden
  deriving DecidableEq, Repr

/-- A block's share and where its regions lie (R314, R316): lane rows, uniform entries, tiles, vault KiB;
the vault offset of its scratch and of its spill region; its HBM spill region; its lateral spill region, as the
cluster, the vault offset and KiB. -/
structure ShareSpec where
  rows  : Nat
  unif  : Nat
  tiles : Nat
  kib   : Nat
  vbase : Nat
  spill : Nat
  hbm   : Nat
  latc  : Nat
  lat   : Nat
  latk  : Nat
  deriving DecidableEq, Repr

/-- An engine operation in flight, for a watchpoint report (R390). -/
inductive EngineRef where
  | copy (k : Nat)
  | matrix (k : Nat)
  | palp (k : Nat)
  | coll (k : Nat)
  | epilogue (wave : Nat) (pc : BitVec 64) (lane : Nat)
  deriving DecidableEq, Repr

/-- How an executive request reaches the executive (R383). -/
inductive RequestSource where
  | wave (w : Nat)
  | host
  deriving DecidableEq, Repr

/-- What the executive chooses when it loads a code object (R403): the address of the descriptors and
the table words that map the object, the descriptors and their tables. -/
structure LoadPlan where
  kdesc  : BitVec 64
  tables : List (Nat × BitVec 64)
  deriving DecidableEq, Repr

/-- A request message on a Ghedy link (R363): what it asks of this device's home memory. -/
inductive RemoteMsg where
  | load (id lpa size : Nat)
  | store (id lpa : Nat) (data : List (BitVec 8))
  | atomic (id lpa op : Nat) (wide uns : Bool) (operand comparand : BitVec 64)
  | release (id : Nat)
  deriving DecidableEq, Repr

/-- What another member of a communicator issued (R369): operation, reduction, format, count, source. -/
structure CollCmd where
  op   : BitVec 2
  rop  : Nat
  fmt  : BitVec 6
  n    : Nat
  data : List (BitVec 8)
  deriving DecidableEq, Repr

/-- Where a soft error arises (R216, R332). -/
inductive ErrPlace where
  | path
  | home (pa : Nat)
  | scratch (block buf off : Nat)
  | laneName (wave lane name : Nat)
  | uniformName (wave name : Nat)
  | tile (block tile elem : Nat)
  deriving DecidableEq, Repr

/-- What the sensors of the two core dies show (R408, R409), in m°C. -/
structure DieTemps where
  die0 : Nat
  die1 : Nat
  deriving DecidableEq, Repr

/-- The power over 1 ms in mW (R407), and the coolant state that the management port reports (R409). -/
structure PowerSample where
  milliW  : Nat
  coolant : Nat
  deriving DecidableEq, Repr

/-- What the host writes to the mask of a vector (R385): unmasked, or masked again. -/
structure VectorWrite where
  vector : Nat
  unmask : Bool
  deriving DecidableEq, Repr

/-- The operations of the device: one constructor per row of spec/opcode_table.json. The first 188 are
the Sirgen instructions (R50, R58), the rest are the events (95_what_each_step_holds.md), which have no encoding: those
that the device brings about itself, then those that its surroundings and the executive bring. -/
inductive Instr where
  /-- NOP (R50): Does nothing and advances the PC by one slot; only the all-zero word is a NOP. -/
  | nop
  /-- EXIT (R106): Ends every active lane; a wave whose lanes have all exited retires. -/
  | exit (c : Bool) (g : Guard)
  /-- YIELD (R107): Changes no state and gives up the lane set's next issue cycle to other lane sets and waves. -/
  | yield (c : Bool)
  /-- RET (R104): Decrements the call depth and takes the PC from the call-stack entry, after the depth, entry and target checks. -/
  | ret (c : Bool) (g : Guard)
  /-- BRA (R103): Single-word guarded PC-relative branch with a fetch hint; taken lanes go to the target, the others fall through. -/
  | bra (c : Bool) (g : Guard) (hint : BitVec 2) (off : BitVec 15) (slot : BitVec 2)
  /-- CALL (R104): Single-word PC-relative call that writes the return PC to the call stack and jumps. -/
  | call (c : Bool) (g : Guard) (off : BitVec 15) (slot : BitVec 2)
  /-- JMP (R104): Single-word unguarded PC-relative jump with a 21-bit packet offset. -/
  | jmp (c : Bool) (off : BitVec 21) (slot : BitVec 2)
  /-- PNOT (R102): Inverts predicate entry Pa in each active lane. -/
  | pnot (p : POps)
  /-- PAND (R102): Sets Pa to Pa AND Pb in each active lane. -/
  | pand (p : POps)
  /-- POR (R102): Sets Pa to Pa OR Pb in each active lane. -/
  | por (p : POps)
  /-- PXOR (R102): Sets Pa to Pa XOR Pb in each active lane. -/
  | pxor (p : POps)
  /-- PDROP (R102): Pops the predicate stack of each active lane. -/
  | pdrop (p : POps)
  /-- PDUP (R102): Pushes a copy of Pa onto each active lane's predicate stack. -/
  | pdup (p : POps)
  /-- PSWAP (R102): Exchanges predicate entries Pa and Pb in each active lane. -/
  | pswap (p : POps)
  /-- PSETM (R102): Pushes the bit of a uniform mask selected by each lane's lane number. -/
  | psetm (p : POps)
  /-- SADD_SINGLE_WORD (R90): Single-word uniform add of two uniform names, wrapping to 64 bits. -/
  | saddSingleWord (u : UOps)
  /-- SSUB_SINGLE_WORD (R90): Single-word uniform subtract. -/
  | ssubSingleWord (u : UOps)
  /-- SMUL_SINGLE_WORD (R90): Single-word uniform multiply, low 64 bits. -/
  | smulSingleWord (u : UOps)
  /-- SMULH_SINGLE_WORD (R90): Single-word uniform signed multiply, high 64 bits. -/
  | smulhSingleWord (u : UOps)
  /-- SAND_SINGLE_WORD (R90): Single-word uniform bitwise AND. -/
  | sandSingleWord (u : UOps)
  /-- SOR_SINGLE_WORD (R90): Single-word uniform bitwise OR. -/
  | sorSingleWord (u : UOps)
  /-- SXOR_SINGLE_WORD (R90): Single-word uniform bitwise XOR. -/
  | sxorSingleWord (u : UOps)
  /-- SSHL_SINGLE_WORD (R90): Single-word uniform shift left. -/
  | sshlSingleWord (u : UOps)
  /-- SSHR_SINGLE_WORD (R90): Single-word uniform logical shift right. -/
  | sshrSingleWord (u : UOps)
  /-- SSAR_SINGLE_WORD (R90): Single-word uniform arithmetic shift right. -/
  | ssarSingleWord (u : UOps)
  /-- SMIN_SINGLE_WORD (R90): Single-word uniform signed minimum. -/
  | sminSingleWord (u : UOps)
  /-- SMAX_SINGLE_WORD (R90): Single-word uniform signed maximum. -/
  | smaxSingleWord (u : UOps)
  /-- SMOV_SINGLE_WORD (R90): Single-word uniform move. -/
  | smovSingleWord (u : UOps)
  /-- SCMP_SINGLE_WORD (R92): Single-word uniform compare of a name with a name or 7-bit immediate, pushing the result onto every active lane's predicate stack. -/
  | scmpSingleWord (k : KOps)
  /-- SLI_SINGLE_WORD (R91): Single-word load of a sign-extended 16-bit immediate into a uniform name. -/
  | sliSingleWord (c : Bool) (d : BitVec 7) (imm : BitVec 16)
  /-- SLUI (R91): Writes a 20-bit immediate into bits 31:12 of a uniform name 0-7, sign-copying bit 31 upward. -/
  | slui (c : Bool) (d : BitVec 3) (imm : BitVec 20)
  /-- SADDI (R91): Adds a signed 12-bit immediate to a uniform name in place. -/
  | saddi (c : Bool) (d : BitVec 7) (imm : BitVec 12)
  /-- VIADD (R95): Lane integer add with optional saturation. -/
  | viadd (o : Ops)
  /-- VISUB (R95): Lane integer subtract. -/
  | visub (o : Ops)
  /-- VIMUL (R95): Lane integer multiply, low half. -/
  | vimul (o : Ops)
  /-- VIMULH (R95): Lane integer multiply, exact high half. -/
  | vimulh (o : Ops)
  /-- VIMAD (R95): Lane integer multiply-add with one fit. -/
  | vimad (o : Ops)
  /-- VIMIN (R95): Lane integer minimum. -/
  | vimin (o : Ops)
  /-- VIMAX (R95): Lane integer maximum. -/
  | vimax (o : Ops)
  /-- VIABS (R95): Lane integer absolute value. -/
  | viabs (o : Ops)
  /-- VAND (R95): Lane bitwise AND. -/
  | vand (o : Ops)
  /-- VOR (R95): Lane bitwise OR. -/
  | vor (o : Ops)
  /-- VXOR (R95): Lane bitwise XOR. -/
  | vxor (o : Ops)
  /-- VNOT (R95): Lane bitwise complement. -/
  | vnot (o : Ops)
  /-- VSHL (R95): Lane shift left. -/
  | vshl (o : Ops)
  /-- VSHR (R95): Lane logical shift right. -/
  | vshr (o : Ops)
  /-- VSAR (R95): Lane arithmetic shift right. -/
  | vsar (o : Ops)
  /-- VCLZ (R96): Counts leading zeros per element. -/
  | vclz (o : Ops)
  /-- VFFS (R96): Finds the lowest set bit per element. -/
  | vffs (o : Ops)
  /-- VPOPC (R96): Counts set bits per element. -/
  | vpopc (o : Ops)
  /-- VBREV (R96): Reverses bits per element. -/
  | vbrev (o : Ops)
  /-- VBFE (R97): Extracts a bit field with sign or zero extension. -/
  | vbfe (o : Ops)
  /-- VBFI (R97): Inserts a bit field. -/
  | vbfi (o : Ops)
  /-- VSEL (R98): Selects between two lane names by predicate entry Pk. -/
  | vsel (o : Ops)
  /-- VMOV (R98): Moves a lane name. -/
  | vmov (o : Ops)
  /-- VBCAST (R98): Broadcasts a uniform name to every active lane. -/
  | vbcast (o : Ops)
  /-- VPADD (R99): Adds packed 8- or 16-bit elements. -/
  | vpadd (o : Ops)
  /-- VDOT4 (R100): Packed 8-bit dot product accumulated into a 32-bit integer. -/
  | vdot4 (o : Ops)
  /-- VCMP (R101): Compares two lane integers and pushes the result per lane. -/
  | vcmp (o : Ops)
  /-- VIADD_IMMEDIATE (R89): Immediate form of VIADD. -/
  | viaddImmediate (o : Ops)
  /-- VISUB_IMMEDIATE (R89): Immediate form of VISUB. -/
  | visubImmediate (o : Ops)
  /-- VIMUL_IMMEDIATE (R89): Immediate form of VIMUL. -/
  | vimulImmediate (o : Ops)
  /-- VIMULH_IMMEDIATE (R89): Immediate form of VIMULH. -/
  | vimulhImmediate (o : Ops)
  /-- VIMIN_IMMEDIATE (R89): Immediate form of VIMIN. -/
  | viminImmediate (o : Ops)
  /-- VIMAX_IMMEDIATE (R89): Immediate form of VIMAX. -/
  | vimaxImmediate (o : Ops)
  /-- VAND_IMMEDIATE (R89): Immediate form of VAND. -/
  | vandImmediate (o : Ops)
  /-- VOR_IMMEDIATE (R89): Immediate form of VOR. -/
  | vorImmediate (o : Ops)
  /-- VXOR_IMMEDIATE (R89): Immediate form of VXOR. -/
  | vxorImmediate (o : Ops)
  /-- VSHL_IMMEDIATE (R89): Immediate form of VSHL. -/
  | vshlImmediate (o : Ops)
  /-- VSHR_IMMEDIATE (R89): Immediate form of VSHR. -/
  | vshrImmediate (o : Ops)
  /-- VSAR_IMMEDIATE (R89): Immediate form of VSAR. -/
  | vsarImmediate (o : Ops)
  /-- VBFE_IMMEDIATE (R97): VBFE with an immediate field length. -/
  | vbfeImmediate (o : Ops)
  /-- VMOV_IMMEDIATE (R98): Writes a sign-extended immediate to a lane name. -/
  | vmovImmediate (o : Ops)
  /-- VCMP_IMMEDIATE (R101): Compares a lane integer with an immediate and pushes the result. -/
  | vcmpImmediate (o : Ops)
  /-- VFADD (R115): FP32 add rounded once. -/
  | vfadd (o : Ops)
  /-- VFSUB (R115): FP32 subtract rounded once. -/
  | vfsub (o : Ops)
  /-- VFMUL (R115): FP32 multiply rounded once. -/
  | vfmul (o : Ops)
  /-- VFFMA (R115): FP32 fused multiply-add rounded once. -/
  | vffma (o : Ops)
  /-- VFMIN (R116): FP32 minimum with -0 below +0. -/
  | vfmin (o : Ops)
  /-- VFMAX (R116): FP32 maximum. -/
  | vfmax (o : Ops)
  /-- VFRINT (R117): Rounds an FP32 value to an integral value. -/
  | vfrint (o : Ops)
  /-- VFEXP2F (R128): Long-latency base-two exponential on the special-function unit. -/
  | vfexp2f (o : Ops)
  /-- VFLOG2 (R128): Long-latency base-two logarithm. -/
  | vflog2 (o : Ops)
  /-- VFRCP (R128): Long-latency correctly rounded reciprocal. -/
  | vfrcp (o : Ops)
  /-- VFRSQ (R128): Long-latency reciprocal square root. -/
  | vfrsq (o : Ops)
  /-- VFSQRT (R128): Long-latency correctly rounded square root. -/
  | vfsqrt (o : Ops)
  /-- VFSIN (R128): Long-latency sine. -/
  | vfsin (o : Ops)
  /-- VFCOS (R128): Long-latency cosine. -/
  | vfcos (o : Ops)
  /-- VFLDEXP (R121): Scales an FP32 value by a power of two with one rounding. -/
  | vfldexp (o : Ops)
  /-- VFFREXP (R122): Returns the fraction or exponent of an FP32 value. -/
  | vffrexp (o : Ops)
  /-- VFCLASS (R120): Writes a one-hot classification of an FP32 value. -/
  | vfclass (o : Ops)
  /-- VFCVT (R124): Converts one float element between formats, merging into the destination. -/
  | vfcvt (o : Ops)
  /-- VFTOI (R125): Converts a float element to an integer. -/
  | vftoi (o : Ops)
  /-- VITOF (R126): Converts an integer element to a float element. -/
  | vitof (o : Ops)
  /-- VFROPE (R132): Long-latency rotation of a value pair by position times frequency. -/
  | vfrope (o : Ops)
  /-- VFDOT2 (R118): Packed 16-bit dot product accumulated into FP32 with one rounding. -/
  | vfdot2 (o : Ops)
  /-- VFCMP (R119): Compares FP32 values and pushes the result. -/
  | vfcmp (o : Ops)
  /-- SADD (R90): Two- or three-word uniform add, guardable, with unsigned and saturation bits. -/
  | sadd (o : Ops)
  /-- SSUB (R90): Two- or three-word uniform subtract. -/
  | ssub (o : Ops)
  /-- SMUL (R90): Two- or three-word uniform multiply. -/
  | smul (o : Ops)
  /-- SMULH (R90): Two- or three-word uniform multiply high. -/
  | smulh (o : Ops)
  /-- SAND (R90): Two- or three-word uniform AND. -/
  | sand (o : Ops)
  /-- SOR (R90): Two- or three-word uniform OR. -/
  | sor (o : Ops)
  /-- SXOR (R90): Two- or three-word uniform XOR. -/
  | sxor (o : Ops)
  /-- SSHL (R90): Two- or three-word uniform shift left. -/
  | sshl (o : Ops)
  /-- SSHR (R90): Two- or three-word uniform logical shift right. -/
  | sshr (o : Ops)
  /-- SSAR (R90): Two- or three-word uniform arithmetic shift right. -/
  | ssar (o : Ops)
  /-- SMIN (R90): Two- or three-word uniform minimum. -/
  | smin (o : Ops)
  /-- SMAX (R90): Two- or three-word uniform maximum. -/
  | smax (o : Ops)
  /-- SMOV (R90): Two- or three-word uniform move. -/
  | smov (o : Ops)
  /-- SSEL (R90): Uniform select by a third uniform being nonzero. -/
  | ssel (o : Ops)
  /-- SLDR (R93): Long-latency read of one word of a resource entry as it stood at launch. -/
  | sldr (o : Ops)
  /-- SCMP (R92): Two- or three-word uniform compare pushing onto every active lane. -/
  | scmp (o : Ops)
  /-- SADD_IMMEDIATE (R90): Immediate form of SADD. -/
  | saddImmediate (o : Ops)
  /-- SSUB_IMMEDIATE (R90): Immediate form of SSUB. -/
  | ssubImmediate (o : Ops)
  /-- SMUL_IMMEDIATE (R90): Immediate form of SMUL. -/
  | smulImmediate (o : Ops)
  /-- SMULH_IMMEDIATE (R90): Immediate form of SMULH. -/
  | smulhImmediate (o : Ops)
  /-- SAND_IMMEDIATE (R90): Immediate form of SAND. -/
  | sandImmediate (o : Ops)
  /-- SOR_IMMEDIATE (R90): Immediate form of SOR. -/
  | sorImmediate (o : Ops)
  /-- SXOR_IMMEDIATE (R90): Immediate form of SXOR. -/
  | sxorImmediate (o : Ops)
  /-- SSHL_IMMEDIATE (R90): Immediate form of SSHL. -/
  | sshlImmediate (o : Ops)
  /-- SSHR_IMMEDIATE (R90): Immediate form of SSHR. -/
  | sshrImmediate (o : Ops)
  /-- SSAR_IMMEDIATE (R90): Immediate form of SSAR. -/
  | ssarImmediate (o : Ops)
  /-- SMIN_IMMEDIATE (R90): Immediate form of SMIN. -/
  | sminImmediate (o : Ops)
  /-- SMAX_IMMEDIATE (R90): Immediate form of SMAX. -/
  | smaxImmediate (o : Ops)
  /-- SLI (R91): Two- or three-word load of a sign-extended immediate into a uniform name. -/
  | sli (o : Ops)
  /-- SCMP_IMMEDIATE (R92): Two- or three-word uniform compare with an immediate. -/
  | scmpImmediate (o : Ops)
  /-- BRA_WIDE (R103): Wide guarded branch with a 32-bit packet offset and guard depths 0-7. -/
  | braWide (o : Ops)
  /-- JMP_WIDE (R104): Wide unguarded jump with a 32-bit packet offset. -/
  | jmpWide (o : Ops)
  /-- CALL_WIDE (R104): Wide guarded call with a 32-bit packet offset. -/
  | callWide (o : Ops)
  /-- CALLI (R104): Indirect call through a per-lane target address. -/
  | calli (o : Ops)
  /-- JMPI (R104): Indirect jump through a per-lane target address. -/
  | jmpi (o : Ops)
  /-- VOTE (R161): Votes a predicate depth over tile members: ANY, ALL or EQ push, BAL writes a mask. -/
  | vote (o : Ops)
  /-- SHFL (R162): Shuffles lane values within a tile by index, up, down or xor. -/
  | shfl (o : Ops)
  /-- WRED (R163): Reduces a tile of member values in a fixed tree order. -/
  | wred (o : Ops)
  /-- WSCAN (R163): Inclusive or exclusive prefix scan over a tile, left to right. -/
  | wscan (o : Ops)
  /-- PART (R166): Sets the wave's partition tile width. -/
  | part (o : Ops)
  /-- ACTM (R167): Writes the mask of active or of live lanes. -/
  | actm (o : Ops)
  /-- XMOV_S (R169): Deposits lane values into an empty block transfer slot. -/
  | xmovS (o : Ops)
  /-- XMOV_R (R169): Takes the deposit from a full transfer slot and empties it. -/
  | xmovR (o : Ops)
  /-- LD (R109): Loads from global memory or a scratch pointer, parking on a translation fault. -/
  | ld (o : Ops)
  /-- ST (R109): Stores to global memory or a scratch pointer in ascending lane order. -/
  | st (o : Ops)
  /-- LDS (R219): Loads from a named scratch buffer at a lane offset. -/
  | lds (o : Ops)
  /-- STS (R219): Stores to a named scratch buffer. -/
  | sts (o : Ops)
  /-- ATOM (R223): Global atomic read-modify-write with ordering and scope, performed at its place. -/
  | atom (o : Ops)
  /-- ATOMS (R223): Scratch atomic through a scratch pointer, performed in the vault. -/
  | atoms (o : Ops)
  /-- PREF (R226): Prefetches a line into L1 or the vault cache without trapping. -/
  | pref (o : Ops)
  /-- CFLUSH (R227): Removes a line from L1 or the vault cache, writing published data home. -/
  | cflush (o : Ops)
  /-- PHASE (R228): Waits for earlier accesses, then performs a release and an acquire at its scope. -/
  | phase (o : Ops)
  /-- FOPND (R229): Waits until the wave's lane stores to the named or all buffers are performed in the vault for engine reads. -/
  | fopnd (o : Ops)
  /-- BARA (R174): Arrives at a barrier for the whole wave, as a release. -/
  | bara (o : Ops)
  /-- BARW (R174): Waits for a barrier phase the wave has not consumed, as an acquire. -/
  | barw (o : Ops)
  /-- BARS (R174): Arrives at a barrier and then waits as BARW. -/
  | bars (o : Ops)
  /-- CSIGN (R178): Signs the open epoch of a convergence register without waiting. -/
  | csign (o : Ops)
  /-- SNEXT (R189): Claims a tile of the iteration space at the claim order, or returns DONE, HELD or LIMIT, or waits. -/
  | snext (o : Ops)
  /-- SDONE (R191): Marks the claimed cells of a rectangle of a grant done. -/
  | sdone (o : Ops)
  /-- SGIVE (R191): Hands the claimed cells of a rectangle of a grant back to unclaimed. -/
  | sgive (o : Ops)
  /-- SWR (R192): Writes one word 3-8 of a launch's shadow schedule block. -/
  | swr (o : Ops)
  /-- MOLT (R193): Asks to commit a launch's shadow schedule block, holding the lane set until performed. -/
  | molt (o : Ops)
  /-- SRD (R194): Reads a word of the committed or shadow schedule block. -/
  | srd (o : Ops)
  /-- CPY (R253): Starts an asynchronous copy of a global tile into scratch. -/
  | cpy (e : CopyOps)
  /-- CPYX (R255): Starts a gather of one block per active lane into scratch. -/
  | cpyx (e : CopyOps)
  /-- CPYO (R254): Starts an asynchronous copy of scratch out to a global tile. -/
  | cpyo (e : CopyOps)
  /-- CPYC (R256): Cancels the wave's in-flight copy with the named token. -/
  | cpyc (e : CopyOps)
  /-- MMA (R266): Signs a convergence epoch and records a matrix product for the core's FIFO. -/
  | mma (e : MmaOps)
  /-- MMAG (R281): Records a matrix product posted to every core of the gang. -/
  | mmag (e : MmaOps)
  /-- ACCZ (R274): Zeroes an accumulator tile and unsets its exponent. -/
  | accz (o : Ops)
  /-- ACCTEST (R275): Writes a summary of an accumulator tile to a uniform name. -/
  | acctest (o : Ops)
  /-- EPI (R278): Reads a tile out through scale, bias, activation, clamp and one conversion into scratch. -/
  | epi (e : EpiOps)
  /-- NMSEL (R297): Starts a near-memory selection of qualifying elements. -/
  | nmsel (e : PalpOps)
  /-- NMTOPK (R298): Starts a near-memory top-k selection. -/
  | nmtopk (e : PalpOps)
  /-- NMSCORE (R300): Starts near-memory scoring of listed vectors against a query. -/
  | nmscore (e : PalpOps)
  /-- NMASSIGN (R302): Starts an online clustering assignment of a key block into a cluster table. -/
  | nmassign (e : PalpOps)
  /-- NMATTN (R306): Starts near-memory decode attention producing per-domain triples. -/
  | nmattn (e : PalpOps)
  /-- TMERGE (R309): Merges attention records on the core into a record or a normalised output. -/
  | tmerge (o : Ops)
  /-- COLL (R369): Starts an all-reduce, all-gather or reduce-scatter across a communicator. -/
  | coll (e : CollOps)
  /-- CRR (R348): Reads a control register into a lane or uniform name. -/
  | crr (o : Ops)
  /-- CRW (R349): Writes a control register that has no row of its own, by its access code. -/
  | crw (o : Ops)
  /-- TRAP (R350): Raises a software trap with a code. -/
  | trap (o : Ops)
  /-- RTT (R351): Ends trap mode, returning to CR.EPC or the following instruction. -/
  | rtt (o : Ops)
  /-- SYSC (R352): Passes a service request to the executive and holds the lane set for the reply. -/
  | sysc (o : Ops)
  /-- BRK (R350): Raises a breakpoint, halting the gang when a debugger is attached. -/
  | brk (o : Ops)
  /-- TLBI_PAGE (R354): Removes the TLB entry of a context covering an address. -/
  | tlbiPage (o : Ops)
  /-- TLBI_CTX (R354): Removes every TLB entry of a context. -/
  | tlbiCtx (o : Ops)
  /-- TLBI_ALL (R354): Removes every TLB entry. -/
  | tlbiAll (o : Ops)
  /-- HALT (R355): Holds a control-core lane set until an event is signalled. -/
  | halt (o : Ops)
  /-- CKPT (R353): Requests a checkpoint image of the issuing gang. -/
  | ckpt (o : Ops)
  /-- FENCEI (R356): Waits for the wave's stores, then invalidates fetched code. -/
  | fencei (o : Ops)
  /-- ISSUE_GRANT (R144): Each cycle each core grants issue to at most two eligible waves, whose candidates then issue. -/
  | issueGrant (core : Nat)
  /-- LONG_LATENCY_RESULT_ARRIVAL (R38): The value of a long-latency destination arrives and commits, with its flags. -/
  | longLatencyResultArrival (wave k : Nat)
  /-- FAULT_NOTICE (R213): A leaf controller sends one fault notice per page and context to the scheduler. -/
  | faultNotice (ctx : Nat) (va : BitVec 64)
  /-- TRAP_DELIVERY (R324): After pending results, a trap writes CR.TRAPC, CR.TRAPA and CR.EPC, forms a fault record and enters the handler or halts the gang. -/
  | trapDelivery (wave : Nat)
  /-- MEMBER_WAIT_DEADLOCK (R158): Every live lane of a wave waits for members with none able to become ready, and the wave traps. -/
  | memberWaitDeadlock (wave : Nat)
  /-- TRANSFER_ORPHANED (R171): Every live lane of a block waits at XMOV, and the block traps. -/
  | transferOrphaned (block : Nat)
  /-- BARRIER_ORPHANED (R176): Every non-retired wave of a barrier's scope waits on an incomplete phase with no engine arrival pending, and the gang traps. -/
  | barrierOrphaned (block name : Nat)
  /-- BLOCK_END (R142): Once its last wave has retired and its engine operations are complete, a block ends with the kernel-end release. -/
  | blockEnd (block : Nat)
  /-- GANG_RETIRED (R375): A leaf controller reports a retired gang to the scheduler. -/
  | gangRetired (gang : Nat)
  /-- BARRIER_PASS (R174): A wave waiting at BARW or BARS passes once the barrier's phase completes, as an acquire. -/
  | barrierPass (wave : Nat)
  /-- COPY_COMPLETION (R251): A copy ends: its writes are performed, then its token is written and it arrives at its barrier. -/
  | copyCompletion (k : Nat)
  /-- COPY_FAULT_RESUME (R257): A copy held on a translation fault resumes at row F once the page is mapped. -/
  | copyFaultResume (k : Nat)
  /-- COPY_REFUSAL (R258): A copy whose page the executive refuses finishes begun rows and ends stopped on error. -/
  | copyRefusal (k : Nat) (prot : Bool)
  /-- MATRIX_INTEGRATION_STEP (R271): The matrix engine integrates one group of products into every element of the tile, renormalising if needed. -/
  | matrixIntegrationStep (k part : Nat)
  /-- MATRIX_OPERATION_COMPLETION (R268): A matrix operation completes, combines special states and arrives at its completion barrier. -/
  | matrixOperationCompletion (k : Nat)
  /-- MATRIX_FAULT_REPLAY (R282): A matrix operation held on a streamed-B fault re-reads rows and resumes at step G once mapped. -/
  | matrixFaultReplay (k part : Nat)
  /-- STREAMED_PAGE_REFUSAL (R283): A refused streamed page counts as zero, sets PF in CR.MMERR and lets the operation complete. -/
  | streamedPageRefusal (k part : Nat) (va : BitVec 64)
  /-- PALP_PART_RESUME (R295): A palp part held on a translation fault resumes from its recorded progress once the page is mapped. -/
  | palpPartResume (k : Nat)
  /-- PALP_COMPLETION (R294): After every domain part finishes, results are written, then the token and barrier arrival, or it stops on error. -/
  | palpCompletion (k : Nat)
  /-- COLL_CAPTURE (R370): The collective unit reads a member's COLL source. -/
  | collCapture (k : Nat)
  /-- COLL_COMPLETION (R370): After every member has issued, the destination is written whole, then the token and barrier arrival. -/
  | collCompletion (k : Nat)
  /-- ENGINE_WATCHPOINT_HIT (R390): The first hit of an engine operation on a watchpoint produces a record delivered as a KIND 3 signal. -/
  | engineWatchpointHit (engine : EngineRef) (slot : Nat) (addr : BitVec 64)
  /-- MOLT_PERFORMED (R193): A held MOLT is performed in the claim order: it commits words 3-8 and raises the instar, or traps. -/
  | moltPerformed (wave : Nat)
  /-- SYSC_REPLY (R352): The executive's reply to a SYSC arrives, is written to d and the PC advances. -/
  | syscReply (wave : Nat) (reply : BitVec 64)
  /-- CHECKPOINT_IMAGE (R353): A checkpoint image is written, SEQ goes to each pending CKPT and the gang resumes. -/
  | checkpointImage (gang : Nat) (addr : BitVec 64)
  /-- HALT_WAKE (R355): A CR.EVENT bit set ends a HALT and the lane set continues. -/
  | haltWake (wave : Nat)
  /-- TIMER_EXPIRY (R374): CR.TIME reaches CR.TIMER and bit 2 of CR.EVENT is set. -/
  | timerExpiry (cc : Nat)
  /-- VAULT_CACHE_WRITEBACK (R224): A vault-cache line used by non-SYNC atomics is written back to home. -/
  | vaultCacheWriteback (cluster line : Nat)
  /-- REBIND (R319): Once every wave is at a rebind point, the binder forms the live set, computes a new binding, moves values and resumes. -/
  | rebind (block : Nat)
  /-- PREEMPTION_REQUEST (R334): A request names a gang, a deadline and permitted actions; the estimator chooses drain, discard or save. -/
  | preemptionRequest (gang deadline : Nat) (allow : BitVec 3)
  /-- DRAIN_END (R336): A draining gang retires, or holds no grant with all waves at rebind points and is saved, or reaches the deadline. -/
  | drainEnd (gang : Nat) (addr : BitVec 64)
  /-- DISCARD (R337): Stops the gang, cancels its engine work, unclaims its cells and releases its resources. -/
  | discard (gang : Nat)
  /-- SAVE (R338): Stops a gang at rebind points, stops engines, releases, writes a chrysalis image and frees the gang. -/
  | save (gang : Nat) (full : Bool) (addr : BitVec 64)
  /-- PREEMPTION_REPORT (R340): The leaf controller reports the action, cycles, image and OVR to the scheduler. -/
  | preemptionReport (gang : Nat)
  /-- END_LAUNCH (R375): The scheduler tells a leaf controller to end a launch. -/
  | endLaunch (launch : Nat)
  /-- DEBUGGER_RESUME (R375): The scheduler tells a leaf controller to resume a halted gang or wave. -/
  | debuggerResume (gang : Nat) (wave : Option Nat)
  /-- FAULT_RECORD_WRITTEN (R329): A leaf controller reports a fault record written to the launch's fault ring. -/
  | faultRecordWritten (launch : Nat)
  /-- COMMAND_LINK_MESSAGE (R375): A 64-byte message is removed from a command-link inbox, returning a permit. -/
  | commandLinkMessage (link : Nat) (up : Bool)
  /-- HEARTBEAT (R376): Every 10 us the scheduler sends a heartbeat to the standby. -/
  | heartbeat
  /-- SCHEDULER_TAKEOVER (R376): After 100 us without a heartbeat the standby sets CR.EVENT bit 4 and takes over the queues. -/
  | schedulerTakeover
  /-- LAUNCH (R378): A LAUNCH packet copies the schedule block, assigns the launch id, writes the time record and creates gangs. -/
  | launch (queue : Nat)
  /-- WAIT (R378): A WAIT packet holds its queue until the signal value is reached, then acquires. -/
  | wait (queue : Nat)
  /-- WAIT_POLL (R378): At least every 10 us, and at launch ends, signals and doorbells, the scheduler rereads a WAIT's signal address. -/
  | waitPoll (queue : Nat)
  /-- SIGNAL (R378): After earlier packets complete, a .SYS release and then the signal write. -/
  | signal (queue : Nat)
  /-- MARKER (R378): After earlier packets complete, writes CR.TIME and a tag. -/
  | marker (queue : Nat)
  /-- LAUNCH_END (R378): When its gangs have all retired, a launch releases, writes its signal, time record and any signal record and vector. -/
  | launchEnd (launch : Nat)
  /-- QUEUE_DOORBELL (R381): SYSC service 0x000 rings a queue doorbell for a device producer. -/
  | queueDoorbell (wave : Nat)
  /-- DEBUGGER_LOG (R381): SYSC service 0x003 appends a line to the debugger log. -/
  | debuggerLog (wave : Nat)
  /-- EXECUTIVE_REQUEST (R383): A request block reaching the executive by SYSC 0x004 or the host ring, refused as malformed if its kind is unknown. -/
  | executiveRequest (src : RequestSource)
  /-- LINK_RETRAIN (R362): After 16 consecutive replays of one flit the link retrains and traffic is rerouted. -/
  | linkRetrain (link : Nat)
  /-- THROTTLE (R407): A sustained power excess inserts idle cycles in matrix engines, palp queues and then vector pipes. -/
  | throttle (stage : Nat) (on : Bool)
  /-- THERMAL_TRIP (R408): 105 C or more for 1 ms trips the device, ending all work. -/
  | thermalTrip
  /-- ACCESS_PERFORMED (R228): An earlier store, value-less atomic, CFLUSH write-back, or EPI or TMERGE write becomes performed, ending the PHASE, FOPND, .REL, FENCEI, TLBI or later-access wait that waited for it. -/
  | accessPerformed (k : Nat)
  /-- CLSEND (R375): A write to CR.CLSEND sends a 64-byte message on a command link, waiting for a permit. -/
  | clsend (cc : Nat) (v : BitVec 64)
  /-- LANE_SET_AGED (R147): A ready lane set's pass-over count reaches 64 and it goes ahead of lane sets that are not aged. -/
  | laneSetAged (wave : Nat) (pc : BitVec 64)
  /-- TRANSLATION_FAULT_SERVICE (R213): The executive maps a faulting page, releasing parked lane sets to replay, or refuses it, raising the trap. -/
  | translationFaultService (ctx : Nat) (va : BitVec 64) (res : Service)
  /-- PLACE_GANG (R140): A leaf controller reserves all resources of a gang in one step, binds it and starts its waves. -/
  | placeGang (gang cluster c0 : Nat) (shares : List ShareSpec) (sb : BitVec 64)
  /-- SHARE_CHANGE (R314): The executive grows or shrinks a resident block's share, carried out by a rebind. -/
  | shareChange (block : Nat) (share : ShareSpec)
  /-- RESTORE (R344): Verifies an image chain, places and binds the gang afresh, restores its state, acquires and resumes it. -/
  | restore (gang : Nat) (image : BitVec 64) (cluster c0 : Nat) (shares : List ShareSpec)
  /-- HOST_DOORBELL (R382): A host write to a BAR0 window doorbell sets WIDX and the scheduler accepts entries RIDX to WIDX - 1. -/
  | hostDoorbell (window : Nat) (value : BitVec 64)
  /-- STORAGE_READ (R381): SYSC service 0x001 reads storage into device memory. -/
  | storageRead (wave : Nat) (data : List (BitVec 8))
  /-- STORAGE_WRITE (R381): SYSC service 0x002 writes device memory to storage. -/
  | storageWrite (wave : Nat) (accepted : Nat)
  /-- CREATE_QUEUE (R384): Executive request 0x0001 creates a queue and its descriptor. -/
  | createQueue (req : Nat) (desc : BitVec 64) (window : Nat)
  /-- DESTROY_QUEUE (R384): Executive request 0x0002 destroys a queue after its accepted packets complete. -/
  | destroyQueue (req : Nat)
  /-- RESTART_QUEUE (R384): Executive request 0x0003 restarts a halted queue, retrying or skipping the packet. -/
  | restartQueue (req : Nat)
  /-- LOAD_CODE_OBJECT (R403): Executive request 0x0004 checks, places, relocates and maps a code object and writes the load result. -/
  | loadCodeObject (req : Nat) (plan : LoadPlan)
  /-- UNLOAD_CODE_OBJECT (R404): Executive request 0x0005 unloads a code object after its launches end. -/
  | unloadCodeObject (req : Nat)
  /-- CREATE_COMMUNICATOR (R384): Executive request 0x0006 joins the members' requests and returns a communicator handle. -/
  | createCommunicator (req handle : Nat) (agree : Bool)
  /-- COMMUNICATOR_TIMEOUT (R384): A member missing 1 s after the first create request ends every request with STATUS 0x04. -/
  | communicatorTimeout (req : Nat)
  /-- DESTROY_COMMUNICATOR (R384): Executive request 0x0007 destroys a communicator. -/
  | destroyCommunicator (req : Nat)
  /-- SET_WATCHPOINT (R390): Executive request 0x0008 sets a watchpoint slot of a launch. -/
  | setWatchpoint (req : Nat)
  /-- CLEAR_WATCHPOINT (R384): Executive request 0x0009 clears a watchpoint slot. -/
  | clearWatchpoint (req : Nat)
  /-- ATTACH (R384): Executive request 0x000A attaches a debugger to a launch that permits it. -/
  | attach (req : Nat)
  /-- RESUME (R384): Executive request 0x000B resumes a halted gang or wave. -/
  | resume (req : Nat)
  /-- SET_OR_CLEAR_STEP (R389): Executive request 0x000C sets or clears a halted wave's STEP bit. -/
  | setOrClearStep (req : Nat)
  /-- READ_VIEW (R331): Executive request 0x000D writes the debugger view of a block. -/
  | readView (req : Nat)
  /-- WRITE_NAME (R331): Executive request 0x000E writes a name at its current place. -/
  | writeName (req : Nat)
  /-- END_LAUNCH_REQUEST (R384): Executive request 0x000F ends a launch with time-record STATUS 5. -/
  | endLaunchRequest (req : Nat)
  /-- HOST_READ (R372): A host read through BAR2 returns home memory. -/
  | hostRead (addr : BitVec 64) (len : Nat)
  /-- HOST_WRITE (R372): A host write through BAR2 is performed at home. -/
  | hostWrite (addr : BitVec 64) (data : List (BitVec 8))
  /-- REMOTE_REQUEST (R363): A remote load, store, atomic or release message received on a Ghedy link is performed at its home device. -/
  | remoteRequest (link : Nat) (msg : RemoteMsg)
  /-- REMOTE_RESPONSE (R363): A response message completes a remote access. -/
  | remoteResponse (id : Nat) (data : BitVec 64)
  /-- COLLECTIVE_MESSAGE (R361): A collective-class message is received on a link. -/
  | collectiveMessage (link handle rank seq : Nat) (cmd : CollCmd)
  /-- ACKNOWLEDGE (R362): A link-control acknowledge releases acknowledged flits from the sender's replay buffer. -/
  | acknowledge (link : Nat) (seq : BitVec 8)
  /-- REPLAY_REQUEST (R362): A link-control replay request makes the sender resend its unacknowledged flits from the given SEQ. -/
  | replayRequest (link : Nat) (seq : BitVec 8)
  /-- REMOTE_ACCESS_TIMEOUT (R365): A remote access undelivered for 2 ms completes as a soft error returning zero. -/
  | remoteAccessTimeout (id : Nat)
  /-- BOOT (R386): The ROM verifies and starts the executive image, enrolling an owner on an unowned device. -/
  | boot (image : List (BitVec 8))
  /-- OWNERSHIP_TRANSFER (R387): A signed transfer request erases the owner keys and marks the device unowned. -/
  | ownershipTransfer (nonce request signature : List (BitVec 8))
  /-- SENSOR_SAMPLE (R409): Every 1 ms the sensors are sampled and the thermal action of R408 is applied. -/
  | sensorSample (milliC : DieTemps) (power : PowerSample)
  /-- POWER_REMOVAL (R410): Removal of power loses all state but the non-volatile keys and fuses. -/
  | powerRemoval
  /-- MANAGEMENT_PORT_REQUEST (R409): A management-port request returns sensor readings, error counts or boot reports. -/
  | managementPortRequest
  /-- SOFT_ERROR (R216): An error arises in data on a path or in a stored word: a correctable one is corrected and counted, and an uncorrectable word in HBM or a vault becomes marked. -/
  | softError (place : ErrPlace) (correctable : Bool)
  /-- VECTOR_UNMASK (R385): The host unmasks an MSI-X vector whose pending bit is set, and the device delivers the pending message. -/
  | vectorUnmask (v : VectorWrite)
  /-- FLIT_CRC_FAILURE (R362): A link receiver gets a flit that fails its CRC or carries an unexpected SEQ, discards it and every later flit, and sends a replay request for the expected SEQ. -/
  | flitCrcFailure (link : Nat) (flit : BitVec 256)
  /-- LINK_RETRAINED (R362): A retraining link completes its retraining and carries traffic again. -/
  | linkRetrained (link : Nat)
  /-- COLL_MEMBER_UNREACHABLE (R370): A member of a COLL stays unreachable for 2 ms, and the command stops on error with ERR 1, writing its token and barrier arrival without the destination. -/
  | collMemberUnreachable (k : Nat)
  deriving DecidableEq, Repr

end Sys2Proof
end

