-- ==== Sys2Proof/WellFormed.lean ====
section
/-! DEFINITION. Well-formed instructions: the operands fit the instruction's format (R48, R51, R56). The
rules on which values a field accepts (R46, steps 5 to 7) stand with the decoder. -/

namespace Sys2Proof

/-- A guard depth fits: 0-3 in one-word and two-word encodings, 0-7 in three-word ones (R30). -/
def Guard.fits (wide : Bool) : Guard → Bool
  | .always => true
  | .pred _ d => wide || decide (d.val < 4)

/-- The four name fields fit: 10 bits each in two words, 16 in three (R51, R56). -/
def Ops.fits (o : Ops) : Bool :=
  o.guard.fits o.wide &&
    (o.wide || (decide (o.dst.toNat < 1024) && decide (o.s0.toNat < 1024) &&
      decide (o.s1.toNat < 1024) && decide (o.s2.toNat < 1024)))

/-- A predicate instruction's guard fits (layout P, R48). -/
def POps.fits (p : POps) : Bool := p.guard.fits false

/-- The rows of the opcode table that are events of the device and have no encoding. -/
def Instr.isEvent : Instr → Bool
  | .nop => false
  | .exit _ _ => false
  | .yield _ => false
  | .ret _ _ => false
  | .bra _ _ _ _ _ => false
  | .call _ _ _ _ => false
  | .jmp _ _ _ => false
  | .pnot _ => false
  | .pand _ => false
  | .por _ => false
  | .pxor _ => false
  | .pdrop _ => false
  | .pdup _ => false
  | .pswap _ => false
  | .psetm _ => false
  | .saddSingleWord _ => false
  | .ssubSingleWord _ => false
  | .smulSingleWord _ => false
  | .smulhSingleWord _ => false
  | .sandSingleWord _ => false
  | .sorSingleWord _ => false
  | .sxorSingleWord _ => false
  | .sshlSingleWord _ => false
  | .sshrSingleWord _ => false
  | .ssarSingleWord _ => false
  | .sminSingleWord _ => false
  | .smaxSingleWord _ => false
  | .smovSingleWord _ => false
  | .scmpSingleWord _ => false
  | .sliSingleWord _ _ _ => false
  | .slui _ _ _ => false
  | .saddi _ _ _ => false
  | .viadd _ => false
  | .visub _ => false
  | .vimul _ => false
  | .vimulh _ => false
  | .vimad _ => false
  | .vimin _ => false
  | .vimax _ => false
  | .viabs _ => false
  | .vand _ => false
  | .vor _ => false
  | .vxor _ => false
  | .vnot _ => false
  | .vshl _ => false
  | .vshr _ => false
  | .vsar _ => false
  | .vclz _ => false
  | .vffs _ => false
  | .vpopc _ => false
  | .vbrev _ => false
  | .vbfe _ => false
  | .vbfi _ => false
  | .vsel _ => false
  | .vmov _ => false
  | .vbcast _ => false
  | .vpadd _ => false
  | .vdot4 _ => false
  | .vcmp _ => false
  | .viaddImmediate _ => false
  | .visubImmediate _ => false
  | .vimulImmediate _ => false
  | .vimulhImmediate _ => false
  | .viminImmediate _ => false
  | .vimaxImmediate _ => false
  | .vandImmediate _ => false
  | .vorImmediate _ => false
  | .vxorImmediate _ => false
  | .vshlImmediate _ => false
  | .vshrImmediate _ => false
  | .vsarImmediate _ => false
  | .vbfeImmediate _ => false
  | .vmovImmediate _ => false
  | .vcmpImmediate _ => false
  | .vfadd _ => false
  | .vfsub _ => false
  | .vfmul _ => false
  | .vffma _ => false
  | .vfmin _ => false
  | .vfmax _ => false
  | .vfrint _ => false
  | .vfexp2f _ => false
  | .vflog2 _ => false
  | .vfrcp _ => false
  | .vfrsq _ => false
  | .vfsqrt _ => false
  | .vfsin _ => false
  | .vfcos _ => false
  | .vfldexp _ => false
  | .vffrexp _ => false
  | .vfclass _ => false
  | .vfcvt _ => false
  | .vftoi _ => false
  | .vitof _ => false
  | .vfrope _ => false
  | .vfdot2 _ => false
  | .vfcmp _ => false
  | .sadd _ => false
  | .ssub _ => false
  | .smul _ => false
  | .smulh _ => false
  | .sand _ => false
  | .sor _ => false
  | .sxor _ => false
  | .sshl _ => false
  | .sshr _ => false
  | .ssar _ => false
  | .smin _ => false
  | .smax _ => false
  | .smov _ => false
  | .ssel _ => false
  | .sldr _ => false
  | .scmp _ => false
  | .saddImmediate _ => false
  | .ssubImmediate _ => false
  | .smulImmediate _ => false
  | .smulhImmediate _ => false
  | .sandImmediate _ => false
  | .sorImmediate _ => false
  | .sxorImmediate _ => false
  | .sshlImmediate _ => false
  | .sshrImmediate _ => false
  | .ssarImmediate _ => false
  | .sminImmediate _ => false
  | .smaxImmediate _ => false
  | .sli _ => false
  | .scmpImmediate _ => false
  | .braWide _ => false
  | .jmpWide _ => false
  | .callWide _ => false
  | .calli _ => false
  | .jmpi _ => false
  | .vote _ => false
  | .shfl _ => false
  | .wred _ => false
  | .wscan _ => false
  | .part _ => false
  | .actm _ => false
  | .xmovS _ => false
  | .xmovR _ => false
  | .ld _ => false
  | .st _ => false
  | .lds _ => false
  | .sts _ => false
  | .atom _ => false
  | .atoms _ => false
  | .pref _ => false
  | .cflush _ => false
  | .phase _ => false
  | .fopnd _ => false
  | .bara _ => false
  | .barw _ => false
  | .bars _ => false
  | .csign _ => false
  | .snext _ => false
  | .sdone _ => false
  | .sgive _ => false
  | .swr _ => false
  | .molt _ => false
  | .srd _ => false
  | .cpy _ => false
  | .cpyx _ => false
  | .cpyo _ => false
  | .cpyc _ => false
  | .mma _ => false
  | .mmag _ => false
  | .accz _ => false
  | .acctest _ => false
  | .epi _ => false
  | .nmsel _ => false
  | .nmtopk _ => false
  | .nmscore _ => false
  | .nmassign _ => false
  | .nmattn _ => false
  | .tmerge _ => false
  | .coll _ => false
  | .crr _ => false
  | .crw _ => false
  | .trap _ => false
  | .rtt _ => false
  | .sysc _ => false
  | .brk _ => false
  | .tlbiPage _ => false
  | .tlbiCtx _ => false
  | .tlbiAll _ => false
  | .halt _ => false
  | .ckpt _ => false
  | .fencei _ => false
  | .issueGrant _ => true
  | .longLatencyResultArrival _ _ => true
  | .faultNotice _ _ => true
  | .trapDelivery _ => true
  | .memberWaitDeadlock _ => true
  | .transferOrphaned _ => true
  | .barrierOrphaned _ _ => true
  | .blockEnd _ => true
  | .gangRetired _ => true
  | .barrierPass _ => true
  | .copyCompletion _ => true
  | .copyFaultResume _ => true
  | .copyRefusal _ _ => true
  | .matrixIntegrationStep _ _ => true
  | .matrixOperationCompletion _ => true
  | .matrixFaultReplay _ _ => true
  | .streamedPageRefusal _ _ _ => true
  | .palpPartResume _ => true
  | .palpCompletion _ => true
  | .collCapture _ => true
  | .collCompletion _ => true
  | .engineWatchpointHit _ _ _ => true
  | .moltPerformed _ => true
  | .syscReply _ _ => true
  | .checkpointImage _ _ => true
  | .haltWake _ => true
  | .timerExpiry _ => true
  | .vaultCacheWriteback _ _ => true
  | .rebind _ => true
  | .preemptionRequest _ _ _ => true
  | .drainEnd _ _ => true
  | .discard _ => true
  | .save _ _ _ => true
  | .preemptionReport _ => true
  | .endLaunch _ => true
  | .debuggerResume _ _ => true
  | .faultRecordWritten _ => true
  | .commandLinkMessage _ _ => true
  | .launch _ => true
  | .wait _ => true
  | .waitPoll _ => true
  | .signal _ => true
  | .marker _ => true
  | .launchEnd _ => true
  | .queueDoorbell _ => true
  | .debuggerLog _ => true
  | .executiveRequest _ => true
  | .linkRetrain _ => true
  | .thermalTrip => true
  | .accessPerformed _ => true
  | .clsend _ _ => true
  | .laneSetAged _ _ => true
  | .translationFaultService _ _ _ => true
  | .placeGang _ _ _ _ _ => true
  | .shareChange _ _ => true
  | .restore _ _ _ _ _ => true
  | .heartbeat => true
  | .schedulerTakeover => true
  | .hostDoorbell _ _ => true
  | .storageRead _ _ => true
  | .storageWrite _ _ => true
  | .createQueue _ _ _ => true
  | .destroyQueue _ => true
  | .restartQueue _ => true
  | .loadCodeObject _ _ => true
  | .unloadCodeObject _ => true
  | .createCommunicator _ _ _ => true
  | .communicatorTimeout _ => true
  | .destroyCommunicator _ => true
  | .setWatchpoint _ => true
  | .clearWatchpoint _ => true
  | .attach _ => true
  | .resume _ => true
  | .setOrClearStep _ => true
  | .readView _ => true
  | .writeName _ => true
  | .endLaunchRequest _ => true
  | .hostRead _ _ => true
  | .hostWrite _ _ => true
  | .remoteRequest _ _ => true
  | .remoteResponse _ _ => true
  | .collectiveMessage _ _ _ _ _ => true
  | .acknowledge _ _ => true
  | .replayRequest _ _ => true
  | .remoteAccessTimeout _ => true
  | .boot _ => true
  | .ownershipTransfer _ _ _ => true
  | .throttle _ _ => true
  | .sensorSample _ _ => true
  | .powerRemoval => true
  | .managementPortRequest => true
  | .softError _ _ => true
  | .vectorUnmask _ => true
  | .flitCrcFailure _ _ => true
  | .linkRetrained _ => true
  | .collMemberUnreachable _ => true

/-- The operands fit the instruction's format, a TLBI's kind among them (R346); an event has no format to fit. -/
def Instr.wellFormed : Instr → Bool
  | .nop => true
  | .exit _ g => g.fits false
  | .yield _ => true
  | .ret _ g => g.fits false
  | .bra _ g _ _ _ => g.fits false
  | .call _ g _ _ => g.fits false
  | .jmp _ _ _ => true
  | .pnot p => p.fits
  | .pand p => p.fits
  | .por p => p.fits
  | .pxor p => p.fits
  | .pdrop p => p.fits
  | .pdup p => p.fits
  | .pswap p => p.fits
  | .psetm p => p.fits
  | .saddSingleWord _ => true
  | .ssubSingleWord _ => true
  | .smulSingleWord _ => true
  | .smulhSingleWord _ => true
  | .sandSingleWord _ => true
  | .sorSingleWord _ => true
  | .sxorSingleWord _ => true
  | .sshlSingleWord _ => true
  | .sshrSingleWord _ => true
  | .ssarSingleWord _ => true
  | .sminSingleWord _ => true
  | .smaxSingleWord _ => true
  | .smovSingleWord _ => true
  | .scmpSingleWord _ => true
  | .sliSingleWord _ _ _ => true
  | .slui _ _ _ => true
  | .saddi _ _ _ => true
  | .viadd o => o.fits
  | .visub o => o.fits
  | .vimul o => o.fits
  | .vimulh o => o.fits
  | .vimad o => o.fits
  | .vimin o => o.fits
  | .vimax o => o.fits
  | .viabs o => o.fits
  | .vand o => o.fits
  | .vor o => o.fits
  | .vxor o => o.fits
  | .vnot o => o.fits
  | .vshl o => o.fits
  | .vshr o => o.fits
  | .vsar o => o.fits
  | .vclz o => o.fits
  | .vffs o => o.fits
  | .vpopc o => o.fits
  | .vbrev o => o.fits
  | .vbfe o => o.fits
  | .vbfi o => o.fits
  | .vsel o => o.fits
  | .vmov o => o.fits
  | .vbcast o => o.fits
  | .vpadd o => o.fits
  | .vdot4 o => o.fits
  | .vcmp o => o.fits
  | .viaddImmediate o => o.fits
  | .visubImmediate o => o.fits
  | .vimulImmediate o => o.fits
  | .vimulhImmediate o => o.fits
  | .viminImmediate o => o.fits
  | .vimaxImmediate o => o.fits
  | .vandImmediate o => o.fits
  | .vorImmediate o => o.fits
  | .vxorImmediate o => o.fits
  | .vshlImmediate o => o.fits
  | .vshrImmediate o => o.fits
  | .vsarImmediate o => o.fits
  | .vbfeImmediate o => o.fits
  | .vmovImmediate o => o.fits
  | .vcmpImmediate o => o.fits
  | .vfadd o => o.fits
  | .vfsub o => o.fits
  | .vfmul o => o.fits
  | .vffma o => o.fits
  | .vfmin o => o.fits
  | .vfmax o => o.fits
  | .vfrint o => o.fits
  | .vfexp2f o => o.fits
  | .vflog2 o => o.fits
  | .vfrcp o => o.fits
  | .vfrsq o => o.fits
  | .vfsqrt o => o.fits
  | .vfsin o => o.fits
  | .vfcos o => o.fits
  | .vfldexp o => o.fits
  | .vffrexp o => o.fits
  | .vfclass o => o.fits
  | .vfcvt o => o.fits
  | .vftoi o => o.fits
  | .vitof o => o.fits
  | .vfrope o => o.fits
  | .vfdot2 o => o.fits
  | .vfcmp o => o.fits
  | .sadd o => o.fits
  | .ssub o => o.fits
  | .smul o => o.fits
  | .smulh o => o.fits
  | .sand o => o.fits
  | .sor o => o.fits
  | .sxor o => o.fits
  | .sshl o => o.fits
  | .sshr o => o.fits
  | .ssar o => o.fits
  | .smin o => o.fits
  | .smax o => o.fits
  | .smov o => o.fits
  | .ssel o => o.fits
  | .sldr o => o.fits
  | .scmp o => o.fits
  | .saddImmediate o => o.fits
  | .ssubImmediate o => o.fits
  | .smulImmediate o => o.fits
  | .smulhImmediate o => o.fits
  | .sandImmediate o => o.fits
  | .sorImmediate o => o.fits
  | .sxorImmediate o => o.fits
  | .sshlImmediate o => o.fits
  | .sshrImmediate o => o.fits
  | .ssarImmediate o => o.fits
  | .sminImmediate o => o.fits
  | .smaxImmediate o => o.fits
  | .sli o => o.fits
  | .scmpImmediate o => o.fits
  | .braWide o => o.fits
  | .jmpWide o => o.fits
  | .callWide o => o.fits
  | .calli o => o.fits
  | .jmpi o => o.fits
  | .vote o => o.fits
  | .shfl o => o.fits
  | .wred o => o.fits
  | .wscan o => o.fits
  | .part o => o.fits
  | .actm o => o.fits
  | .xmovS o => o.fits
  | .xmovR o => o.fits
  | .ld o => o.fits
  | .st o => o.fits
  | .lds o => o.fits
  | .sts o => o.fits
  | .atom o => o.fits
  | .atoms o => o.fits
  | .pref o => o.fits
  | .cflush o => o.fits
  | .phase o => o.fits
  | .fopnd o => o.fits
  | .bara o => o.fits
  | .barw o => o.fits
  | .bars o => o.fits
  | .csign o => o.fits
  | .snext o => o.fits
  | .sdone o => o.fits
  | .sgive o => o.fits
  | .swr o => o.fits
  | .molt o => o.fits
  | .srd o => o.fits
  | .cpy _ => true
  | .cpyx _ => true
  | .cpyo _ => true
  | .cpyc _ => true
  | .mma _ => true
  | .mmag _ => true
  | .accz o => o.fits
  | .acctest o => o.fits
  | .epi _ => true
  | .nmsel _ => true
  | .nmtopk _ => true
  | .nmscore _ => true
  | .nmassign _ => true
  | .nmattn _ => true
  | .tmerge o => o.fits
  | .coll _ => true
  | .crr o => o.fits
  | .crw o => o.fits
  | .trap o => o.fits
  | .rtt o => o.fits
  | .sysc o => o.fits
  | .brk o => o.fits
  | .tlbiPage o => o.fits && o.s2 == 0#16
  | .tlbiCtx o => o.fits && o.s2 == 1#16
  | .tlbiAll o => o.fits && o.s2 == 2#16
  | .halt o => o.fits
  | .ckpt o => o.fits
  | .fencei o => o.fits
  | .issueGrant _ => true
  | .longLatencyResultArrival _ _ => true
  | .faultNotice _ _ => true
  | .trapDelivery _ => true
  | .memberWaitDeadlock _ => true
  | .transferOrphaned _ => true
  | .barrierOrphaned _ _ => true
  | .blockEnd _ => true
  | .gangRetired _ => true
  | .barrierPass _ => true
  | .copyCompletion _ => true
  | .copyFaultResume _ => true
  | .copyRefusal _ _ => true
  | .matrixIntegrationStep _ _ => true
  | .matrixOperationCompletion _ => true
  | .matrixFaultReplay _ _ => true
  | .streamedPageRefusal _ _ _ => true
  | .palpPartResume _ => true
  | .palpCompletion _ => true
  | .collCapture _ => true
  | .collCompletion _ => true
  | .engineWatchpointHit _ _ _ => true
  | .moltPerformed _ => true
  | .syscReply _ _ => true
  | .checkpointImage _ _ => true
  | .haltWake _ => true
  | .timerExpiry _ => true
  | .vaultCacheWriteback _ _ => true
  | .rebind _ => true
  | .preemptionRequest _ _ _ => true
  | .drainEnd _ _ => true
  | .discard _ => true
  | .save _ _ _ => true
  | .preemptionReport _ => true
  | .endLaunch _ => true
  | .debuggerResume _ _ => true
  | .faultRecordWritten _ => true
  | .commandLinkMessage _ _ => true
  | .launch _ => true
  | .wait _ => true
  | .waitPoll _ => true
  | .signal _ => true
  | .marker _ => true
  | .launchEnd _ => true
  | .queueDoorbell _ => true
  | .debuggerLog _ => true
  | .executiveRequest _ => true
  | .linkRetrain _ => true
  | .thermalTrip => true
  | .accessPerformed _ => true
  | .clsend _ _ => true
  | .laneSetAged _ _ => true
  | .translationFaultService _ _ _ => true
  | .placeGang _ _ _ _ _ => true
  | .shareChange _ _ => true
  | .restore _ _ _ _ _ => true
  | .heartbeat => true
  | .schedulerTakeover => true
  | .hostDoorbell _ _ => true
  | .storageRead _ _ => true
  | .storageWrite _ _ => true
  | .createQueue _ _ _ => true
  | .destroyQueue _ => true
  | .restartQueue _ => true
  | .loadCodeObject _ _ => true
  | .unloadCodeObject _ => true
  | .createCommunicator _ _ _ => true
  | .communicatorTimeout _ => true
  | .destroyCommunicator _ => true
  | .setWatchpoint _ => true
  | .clearWatchpoint _ => true
  | .attach _ => true
  | .resume _ => true
  | .setOrClearStep _ => true
  | .readView _ => true
  | .writeName _ => true
  | .endLaunchRequest _ => true
  | .hostRead _ _ => true
  | .hostWrite _ _ => true
  | .remoteRequest _ _ => true
  | .remoteResponse _ _ => true
  | .collectiveMessage _ _ _ _ _ => true
  | .acknowledge _ _ => true
  | .replayRequest _ _ => true
  | .remoteAccessTimeout _ => true
  | .boot _ => true
  | .ownershipTransfer _ _ _ => true
  | .throttle _ _ => true
  | .sensorSample _ _ => true
  | .powerRemoval => true
  | .managementPortRequest => true
  | .softError _ _ => true
  | .vectorUnmask _ => true
  | .flitCrcFailure _ _ => true
  | .linkRetrained _ => true
  | .collMemberUnreachable _ => true

end Sys2Proof
end

