-- ==== Sys2Proof/Decode.lean ====
section
/-! DEFINITION. The decoder (R40-R61): total on any packet, rejecting with the step of R46 that fails, and
the encoder, from the same tables. -/

namespace Sys2Proof

/-! ## Bytes and packets -/

/-- The `n` little-endian bytes of a number (R36, R40). -/
def leBytes : Nat → Nat → List Byte
  | 0, _ => []
  | n + 1, x => BitVec.ofNat 8 x :: leBytes n (x / 256)

/-- The number that bytes spell, little-endian. -/
def ofLe : List Byte → Nat
  | [] => 0
  | b :: t => b.toNat + 256 * ofLe t

/-- The two's-complement reading of the low `n` bits of `x` (R62). -/
def sext (n x : Nat) : Int :=
  if bit x (n - 1) then (x % 2 ^ n : Nat) - (2 ^ n : Nat) else (x % 2 ^ n : Nat)

/-- The `n`-bit pattern of an exact integer (R63, R7). -/
def wrap (n : Nat) (v : Int) : Nat := (v % (2 ^ n : Nat)).toNat

/-- A packet: three slots and the tail word (R40). -/
structure Packet where
  w0   : BitVec 32
  w1   : BitVec 32
  w2   : BitVec 32
  tail : BitVec 32
  deriving DecidableEq, Repr

/-- The word of a slot; slot 3 is the tail word. -/
def Packet.word (p : Packet) : Nat → Nat
  | 0 => p.w0.toNat
  | 1 => p.w1.toNat
  | 2 => p.w2.toNat
  | _ => p.tail.toNat

/-- A packet from its sixteen bytes, the first at the lowest address (R40). -/
def Packet.ofBytes (bs : List Byte) : Packet :=
  { w0 := BitVec.ofNat 32 (ofLe (bs.take 4))
    w1 := BitVec.ofNat 32 (ofLe ((bs.drop 4).take 4))
    w2 := BitVec.ofNat 32 (ofLe ((bs.drop 8).take 4))
    tail := BitVec.ofNat 32 (ofLe ((bs.drop 12).take 4)) }

/-- The sixteen bytes of a packet. -/
def Packet.bytes (p : Packet) : List Byte :=
  leBytes 4 p.w0.toNat ++ leBytes 4 p.w1.toNat ++ leBytes 4 p.w2.toNat ++ leBytes 4 p.tail.toNat

/-- The length field W of a word (R45). -/
def lengthField (w : Nat) : Nat := bits w 31 30

/-- The lookahead count of a slot (R42). -/
def Packet.look (p : Packet) (slot : Nat) : Nat := p.tail.toNat / 16 ^ slot % 16

/-- Step 2 of R46: the instruction and its continuation words lie in the packet. -/
def Packet.fits (p : Packet) (slot : Nat) : Bool :=
  match lengthField (p.word slot) with
  | 0 => true
  | 1 => decide (slot < 2) && lengthField (p.word (slot + 1)) == 3
  | 2 => slot == 0 && lengthField (p.word 1) == 3 && lengthField (p.word 2) == 3
  | _ => false

/-- Step 3 of R46: the tail word satisfies R42. -/
def Packet.tailOk (p : Packet) : Bool :=
  bits p.tail.toNat 31 12 == 0 &&
    [0, 1, 2].all (fun k => p.look k == 0 || lengthField (p.word k) != 3)

/-! ## Declared names -/

/-- How many names the kernel declares in each class, and its resource entries (R23, R398). -/
structure Declared where
  lane : Nat
  unif : Nat
  scr  : Nat
  bar  : Nat
  conv : Nat
  acc  : Nat
  res  : Nat
  deriving DecidableEq, Repr

/-- The class limits of R23; R398 bounds the resource entries. -/
def Declared.limits : Declared := ⟨65536, 4096, 256, 64, 16, 16, 65535⟩

/-- What a field of the ordinary layout holds (R46, steps 5 and 7). -/
inductive Field where
  | zero
  | any
  | immHi
  | lane
  | unif
  | scr
  | bar
  | conv
  | acc
  | res
  | cond (n : Nat)
  | sel (mask : Nat)
  deriving DecidableEq, Repr

/-- Step 5 for one field: unused fields are zero, selectors set no undefined bit, conditions are defined;
the upper half of an immediate exists in three words only (R55). -/
def Field.ok (wide : Bool) (v : Nat) : Field → Bool
  | .zero => v == 0
  | .immHi => wide || v == 0
  | .cond n => decide (v < n)
  | .sel m => v &&& m == v
  | _ => true

/-- Step 7 for one field: a name is declared in its class. -/
def Field.declared (d : Declared) (v : Nat) : Field → Bool
  | .lane => decide (v < d.lane)
  | .unif => decide (v < d.unif)
  | .scr => decide (v < d.scr)
  | .bar => decide (v < d.bar)
  | .conv => decide (v < d.conv)
  | .acc => decide (v < d.acc)
  | .res => decide (v < d.res)
  | _ => true

/-! ## Format codes (R71) -/

/-- A float format code. -/
def isFloat (c : Nat) : Bool := decide (c ≤ 2) || (decide (32 ≤ c) && decide (c < 64) && c % 8 != 0)

/-- An integer format code. -/
def isInt (c : Nat) : Bool := decide (16 ≤ c) && decide (c ≤ 23)

/-- A binary8 format code. -/
def isB8 (c : Nat) : Bool := decide (32 ≤ c) && decide (c < 64) && c % 8 != 0

/-- The width of a format in bits. -/
def fmtWidth (c : Nat) : Nat :=
  if c == 0 then 32
  else if c == 1 || c == 2 then 16
  else if 32 ≤ c then 8
  else 8 * 2 ^ (c % 4)

/-- A selector field of R123 is one the instruction accepts: format, element and no SAT in a source. -/
def cvtSel (fmt : Nat → Bool) (v : Nat) : Bool :=
  let c := bits v 5 0
  fmt c && (if fmtWidth c < 32 then decide (bits v 7 6 < 32 / fmtWidth c) else bits v 7 6 == 0)

/-- VFCVT, VFTOI, VITOF (R123-R126): source selector in SRC1, destination selector in SRC2; an integer
destination has element 0. -/
def cvtOk (src dst : Nat → Bool) (_priv : Bool) (o : Ops) : Bool :=
  cvtSel src o.s1.toNat && cvtSel dst o.s2.toNat &&
    (isFloat (bits o.s2.toNat 5 0) || bits o.s2.toNat 7 6 == 0)

/-! ## The opcode map -/

/-- The fields, the kill bits that may be set (K0 = 1, K1 = 2, K2 = 4) and the modifier values, one bit
each, that an instruction accepts. -/
structure Shape where
  dst   : Field
  s0    : Field
  s1    : Field
  s2    : Field
  kills : Nat
  mods  : Nat

/-- A row of R58: the opcode, its instruction, its guard and form columns, its fields, what else step 5
asks of it and the further names step 7 checks. -/
structure Row where
  op        : Nat
  inst      : Ops → Instr
  shape     : Ops → Shape
  guardable : Bool
  wideOnly  : Bool
  accepts   : Bool → Ops → Bool
  names     : Declared → Ops → Bool

/-- An ordinary row: guardable, with both forms. -/
def row (op : Nat) (mk : Ops → Instr) (shape : Ops → Shape) : Row :=
  ⟨op, mk, shape, true, false, fun _ _ => true, fun _ _ => true⟩

/-- A row with a further check of step 5. -/
def rowX (op : Nat) (mk : Ops → Instr) (shape : Ops → Shape) (acc : Bool → Ops → Bool) : Row :=
  ⟨op, mk, shape, true, false, acc, fun _ _ => true⟩

/-- One lane source. -/
def lane1 (op : Nat) (mk : Ops → Instr) (mods : Nat) : Row :=
  row op mk fun _ => ⟨.lane, .lane, .zero, .zero, 1, mods⟩

/-- One lane source and a selector in SRC2. -/
def lane1s (op : Nat) (mk : Ops → Instr) (mods sel : Nat) : Row :=
  row op mk fun _ => ⟨.lane, .lane, .zero, .sel sel, 1, mods⟩

/-- Two lane sources. -/
def lane2 (op : Nat) (mk : Ops → Instr) (mods : Nat) : Row :=
  row op mk fun _ => ⟨.lane, .lane, .lane, .zero, 3, mods⟩

/-- One lane source and an immediate in place of the second (R55, R89). -/
def lane2i (op : Nat) (mk : Ops → Instr) (mods : Nat) : Row :=
  row op mk fun _ => ⟨.lane, .lane, .immHi, .any, 1, mods⟩

/-- Three lane sources. -/
def lane3 (op : Nat) (mk : Ops → Instr) (mods : Nat) : Row :=
  row op mk fun _ => ⟨.lane, .lane, .lane, .lane, 7, mods⟩

/-- The modifier values of WRED and WSCAN by operation (R165). -/
def redMods (o : Ops) : Nat :=
  match bits o.s2.toNat 3 0 with
  | 0 => 0xFF
  | 1 | 2 => 0x55
  | 3 | 4 | 5 => 0x11
  | _ => 0x01

/-- The fields of ATOM and ATOMS (R221): no destination with NR = 1, no source b for LOAD; `.U` is
permitted for MIN and MAX only. -/
def atomShape (scopes : Nat) (o : Ops) : Shape :=
  let op := bits o.s2.toNat 3 0
  let load := op == 9
  { dst := if bit o.s2.toNat 7 then .zero else .lane
    s0 := .lane
    s1 := if load then .zero else .lane
    s2 := .sel 0xFF
    kills := if load then 1 else 3
    mods := if op == 1 || op == 2 then scopes else scopes &&& 0x0F }

/-- The selector combinations that R221 forbids. -/
def atomOk (o : Ops) : Bool :=
  let op := bits o.s2.toNat 3 0
  decide (op ≤ 9) && !(bit o.s2.toNat 7 && (op == 7 || op == 9)) && !(bit o.s2.toNat 4 && op == 8)

/-- Control-register numbers that pass step 5 (R32, R346, R347, R374). -/
def regOk (priv : Bool) (r : Nat) : Bool :=
  decide (r ≤ 0x3FF) && !(decide (0x012 ≤ r) && decide (r ≤ 0x0FF)) &&
    !(priv && decide (0x106 ≤ r))

/-- The three kinds of TLBI (R346). -/
def tlbi (o : Ops) : Instr :=
  if o.s2 == 0#16 then .tlbiPage o else if o.s2 == 1#16 then .tlbiCtx o else .tlbiAll o

/-- TLBI's fields by kind (R346). -/
def tlbiShape (o : Ops) : Shape :=
  ⟨.zero, if o.s2 == 0#16 then .unif else .zero, if o.s2 == 2#16 then .zero else .unif, .sel 3, 0, 1⟩

/-- Rows 0x000-0x017 of the opcode map (R58). -/
def rows0 : List Row :=
  [lane2 0x000 .viadd 0xFF,
   lane2 0x001 .visub 0xFF,
   lane2 0x002 .vimul 0xFF,
   lane2 0x003 .vimulh 0x55,
   lane3 0x004 .vimad 0xFF,
   lane2 0x005 .vimin 0x55,
   lane2 0x006 .vimax 0x55,
   lane1 0x007 .viabs 0x33,
   lane2 0x008 .vand 0x11,
   lane2 0x009 .vor 0x11,
   lane2 0x00A .vxor 0x11,
   lane1 0x00B .vnot 0x11,
   lane2 0x00C .vshl 0x11,
   lane2 0x00D .vshr 0x11,
   lane2 0x00E .vsar 0x11,
   lane1s 0x00F .vclz 0x11 3,
   lane1s 0x010 .vffs 0x11 3,
   lane1s 0x011 .vpopc 0x11 3,
   lane1s 0x012 .vbrev 0x11 3,
   lane3 0x013 .vbfe 0x55,
   lane3 0x014 .vbfi 0x11,
   lane2 0x015 .vsel 0xFF,
   lane1 0x016 .vmov 0x11,
   row 0x017 .vbcast (fun _ => ⟨.lane, .unif, .zero, .zero, 0x1, 0x11⟩)]

/-- Rows 0x018-0x054 of the opcode map (R58). -/
def rows1 : List Row :=
  [lane2 0x018 .vpadd 0xFF,
   lane3 0x019 .vdot4 0xFF,
   row 0x01A .vcmp (fun _ => ⟨.cond 6, .lane, .lane, .zero, 0x3, 0x55⟩),
   lane2 0x040 .vfadd 0x1F,
   lane2 0x041 .vfsub 0x1F,
   lane2 0x042 .vfmul 0x1F,
   lane3 0x043 .vffma 0x1F,
   lane2 0x044 .vfmin 0x01,
   lane2 0x045 .vfmax 0x01,
   lane1 0x046 .vfrint 0x1F,
   lane1 0x047 .vfexp2f 0x1F,
   lane1 0x048 .vflog2 0x1F,
   lane1 0x049 .vfrcp 0x1F,
   lane1 0x04A .vfrsq 0x1F,
   lane1 0x04B .vfsqrt 0x1F,
   lane1 0x04C .vfsin 0x1F,
   lane1 0x04D .vfcos 0x1F,
   lane2 0x04E .vfldexp 0x1F,
   lane1s 0x04F .vffrexp 0x01 1,
   lane1 0x050 .vfclass 0x01,
   rowX 0x051 .vfcvt (fun _ => ⟨.lane, .lane, .sel 0xFF, .sel 0x1FF, 0x1, 0x1f⟩) (cvtOk isFloat isFloat),
   rowX 0x052 .vftoi (fun _ => ⟨.lane, .lane, .sel 0xFF, .sel 0x1FF, 0x1, 0x1f⟩) (cvtOk isFloat isInt),
   rowX 0x053 .vitof (fun _ => ⟨.lane, .lane, .sel 0xFF, .sel 0x1FF, 0x1, 0x1f⟩) (cvtOk isInt isFloat),
   lane3 0x054 .vfrope 0x1F]

/-- Rows 0x055-0x0C6 of the opcode map (R58). -/
def rows2 : List Row :=
  [row 0x055 .vfdot2 (fun _ => ⟨.lane, .lane, .lane, .sel 1, 0x3, 0x1f⟩),
   row 0x056 .vfcmp (fun _ => ⟨.cond 8, .lane, .lane, .zero, 0x3, 0x1⟩),
   lane2i 0x080 .viaddImmediate 0xFF,
   lane2i 0x081 .visubImmediate 0xFF,
   lane2i 0x082 .vimulImmediate 0xFF,
   lane2i 0x083 .vimulhImmediate 0x55,
   lane2i 0x085 .viminImmediate 0x55,
   lane2i 0x086 .vimaxImmediate 0x55,
   lane2i 0x088 .vandImmediate 0x11,
   lane2i 0x089 .vorImmediate 0x11,
   lane2i 0x08A .vxorImmediate 0x11,
   lane2i 0x08C .vshlImmediate 0x11,
   lane2i 0x08D .vshrImmediate 0x11,
   lane2i 0x08E .vsarImmediate 0x11,
   row 0x093 .vbfeImmediate (fun _ => ⟨.lane, .lane, .lane, .any, 0x3, 0x55⟩),
   row 0x096 .vmovImmediate (fun _ => ⟨.lane, .zero, .immHi, .any, 0x0, 0x11⟩),
   row 0x09A .vcmpImmediate (fun _ => ⟨.cond 6, .lane, .immHi, .any, 0x1, 0x55⟩),
   row 0x0C0 .sadd (fun _ => ⟨.unif, .unif, .unif, .zero, 0x3, 0xf⟩),
   row 0x0C1 .ssub (fun _ => ⟨.unif, .unif, .unif, .zero, 0x3, 0xf⟩),
   row 0x0C2 .smul (fun _ => ⟨.unif, .unif, .unif, .zero, 0x3, 0xf⟩),
   row 0x0C3 .smulh (fun _ => ⟨.unif, .unif, .unif, .zero, 0x3, 0x5⟩),
   row 0x0C4 .sand (fun _ => ⟨.unif, .unif, .unif, .zero, 0x3, 0x1⟩),
   row 0x0C5 .sor (fun _ => ⟨.unif, .unif, .unif, .zero, 0x3, 0x1⟩),
   row 0x0C6 .sxor (fun _ => ⟨.unif, .unif, .unif, .zero, 0x3, 0x1⟩)]

/-- Rows 0x0C7-0x0E0 of the opcode map (R58). -/
def rows3 : List Row :=
  [row 0x0C7 .sshl (fun _ => ⟨.unif, .unif, .unif, .zero, 0x3, 0x1⟩),
   row 0x0C8 .sshr (fun _ => ⟨.unif, .unif, .unif, .zero, 0x3, 0x1⟩),
   row 0x0C9 .ssar (fun _ => ⟨.unif, .unif, .unif, .zero, 0x3, 0x1⟩),
   row 0x0CA .smin (fun _ => ⟨.unif, .unif, .unif, .zero, 0x3, 0x5⟩),
   row 0x0CB .smax (fun _ => ⟨.unif, .unif, .unif, .zero, 0x3, 0x5⟩),
   row 0x0CC .smov (fun _ => ⟨.unif, .unif, .zero, .zero, 0x1, 0x1⟩),
   row 0x0CD .ssel (fun _ => ⟨.unif, .unif, .unif, .unif, 0x7, 0x1⟩),
   row 0x0CE .sldr (fun _ => ⟨.unif, .res, .zero, .sel 7, 0x0, 0x1⟩),
   row 0x0CF .scmp (fun _ => ⟨.cond 6, .unif, .unif, .zero, 0x3, 0x5⟩),
   row 0x0D0 .saddImmediate (fun _ => ⟨.unif, .unif, .immHi, .any, 0x1, 0xf⟩),
   row 0x0D1 .ssubImmediate (fun _ => ⟨.unif, .unif, .immHi, .any, 0x1, 0xf⟩),
   row 0x0D2 .smulImmediate (fun _ => ⟨.unif, .unif, .immHi, .any, 0x1, 0xf⟩),
   row 0x0D3 .smulhImmediate (fun _ => ⟨.unif, .unif, .immHi, .any, 0x1, 0x5⟩),
   row 0x0D4 .sandImmediate (fun _ => ⟨.unif, .unif, .immHi, .any, 0x1, 0x1⟩),
   row 0x0D5 .sorImmediate (fun _ => ⟨.unif, .unif, .immHi, .any, 0x1, 0x1⟩),
   row 0x0D6 .sxorImmediate (fun _ => ⟨.unif, .unif, .immHi, .any, 0x1, 0x1⟩),
   row 0x0D7 .sshlImmediate (fun _ => ⟨.unif, .unif, .immHi, .any, 0x1, 0x1⟩),
   row 0x0D8 .sshrImmediate (fun _ => ⟨.unif, .unif, .immHi, .any, 0x1, 0x1⟩),
   row 0x0D9 .ssarImmediate (fun _ => ⟨.unif, .unif, .immHi, .any, 0x1, 0x1⟩),
   row 0x0DA .sminImmediate (fun _ => ⟨.unif, .unif, .immHi, .any, 0x1, 0x5⟩),
   row 0x0DB .smaxImmediate (fun _ => ⟨.unif, .unif, .immHi, .any, 0x1, 0x5⟩),
   row 0x0DC .sli (fun _ => ⟨.unif, .zero, .immHi, .any, 0x0, 0x1⟩),
   row 0x0DF .scmpImmediate (fun _ => ⟨.cond 6, .unif, .immHi, .any, 0x1, 0x5⟩),
   { row 0x0E0 .braWide (fun _ => ⟨.sel 3, .zero, .any, .any, 0x0, 0xf⟩) with wideOnly := true, guardable := true }]

/-- Rows 0x0E1-0x111 of the opcode map (R58). -/
def rows4 : List Row :=
  [{ row 0x0E1 .jmpWide (fun _ => ⟨.sel 3, .zero, .any, .any, 0x0, 0x1⟩) with wideOnly := true, guardable := false },
   { row 0x0E2 .callWide (fun _ => ⟨.sel 3, .zero, .any, .any, 0x0, 0x1⟩) with wideOnly := true, guardable := true },
   row 0x0E3 .calli (fun _ => ⟨.zero, .lane, .zero, .zero, 0x1, 0x1⟩),
   row 0x0E4 .jmpi (fun _ => ⟨.zero, .lane, .zero, .zero, 0x1, 0x1⟩),
   row 0x0F0 .vote (fun o => ⟨if bits o.mod.toNat 1 0 == 3 then .lane else .zero, .zero, .unif, .sel 7, 2, 0x0F⟩),
   row 0x0F1 .shfl (fun _ => ⟨.lane, .lane, .unif, .lane, 0x7, 0xff⟩),
   rowX 0x0F2 .wred (fun o => ⟨.lane, .lane, .unif, .sel 0xF, 3, redMods o⟩) (fun _ o => decide (bits o.s2.toNat 3 0 ≤ 8)),
   rowX 0x0F3 .wscan (fun o => ⟨.lane, .lane, .unif, .sel 0x1F, 3, redMods o⟩) (fun _ o => decide (bits o.s2.toNat 3 0 ≤ 8)),
   { rowX 0x0F4 .part (fun _ => ⟨.zero, .zero, .zero, .sel 0x7E, 0x0, 0x1⟩) (fun _ o => [2, 4, 8, 16, 32, 64].contains o.s2.toNat) with guardable := false },
   row 0x0F5 .actm (fun _ => ⟨.lane, .zero, .zero, .zero, 0x0, 0x3⟩),
   row 0x0F6 .xmovS (fun _ => ⟨.zero, .lane, .zero, .sel 0xF, 0x1, 0x11⟩),
   row 0x0F7 .xmovR (fun _ => ⟨.lane, .zero, .zero, .sel 0xF, 0x0, 0x11⟩),
   row 0x100 .ld (fun _ => ⟨.lane, .lane, .zero, .any, 0x1, 0x7f⟩),
   row 0x101 .st (fun _ => ⟨.zero, .lane, .lane, .any, 0x3, 0xf⟩),
   row 0x102 .lds (fun _ => ⟨.lane, .lane, .scr, .any, 0x1, 0x7f⟩),
   row 0x103 .sts (fun _ => ⟨.scr, .lane, .lane, .any, 0x3, 0xf⟩),
   rowX 0x104 .atom (fun o => atomShape 0xFF o) (fun _ o => atomOk o),
   rowX 0x105 .atoms (fun o => atomShape 0x33 o) (fun _ o => atomOk o),
   row 0x106 .pref (fun _ => ⟨.zero, .lane, .zero, .any, 0x1, 0x3⟩),
   row 0x107 .cflush (fun _ => ⟨.zero, .lane, .zero, .any, 0x1, 0x3⟩),
   { row 0x108 .phase (fun _ => ⟨.zero, .zero, .zero, .zero, 0x0, 0xf⟩) with guardable := false },
   { row 0x109 .fopnd (fun o => ⟨.zero, if o.s2 == 0#16 then .scr else .zero, .zero, .sel 1, 0, 1⟩) with guardable := false },
   { row 0x110 .bara (fun _ => ⟨.zero, .bar, .zero, .zero, 0x0, 0x1⟩) with guardable := false },
   { row 0x111 .barw (fun _ => ⟨.zero, .bar, .zero, .zero, 0x0, 0x1⟩) with guardable := false }]

/-- Rows 0x112-0x1C9 of the opcode map (R58). -/
def rows5 : List Row :=
  [{ row 0x112 .bars (fun _ => ⟨.zero, .bar, .zero, .zero, 0x0, 0x1⟩) with guardable := false },
   { row 0x113 .csign (fun _ => ⟨.zero, .conv, .zero, .zero, 0x0, 0x1⟩) with guardable := false },
   { rowX 0x120 .snext (fun _ => ⟨.unif, .zero, .zero, .sel 7, 0x0, 0x1⟩) (fun _ o => decide (1 ≤ o.s2.toNat) && decide (o.s2.toNat ≤ 4)) with names := fun d o => decide (o.dst.toNat + 2 * o.s2.toNat < d.unif) },
   { rowX 0x121 .sdone (fun _ => ⟨.zero, .unif, .zero, .sel 7, 0x0, 0x1⟩) (fun _ o => decide (1 ≤ o.s2.toNat) && decide (o.s2.toNat ≤ 4)) with names := fun d o => decide (o.s0.toNat + 2 * o.s2.toNat < d.unif) },
   { rowX 0x122 .sgive (fun _ => ⟨.zero, .unif, .zero, .sel 7, 0x0, 0x1⟩) (fun _ o => decide (1 ≤ o.s2.toNat) && decide (o.s2.toNat ≤ 4)) with names := fun d o => decide (o.s0.toNat + 2 * o.s2.toNat < d.unif) },
   { row 0x123 .swr (fun _ => ⟨.zero, .unif, .unif, .sel 0xF, 0x3, 0x1⟩) with guardable := false },
   { row 0x124 .molt (fun _ => ⟨.zero, .unif, .zero, .zero, 0x1, 0x1⟩) with guardable := false },
   row 0x125 .srd (fun _ => ⟨.unif, .unif, .zero, .sel 0x1F, 0x1, 0x1⟩),
   row 0x18A .accz (fun _ => ⟨.acc, .zero, .zero, .zero, 0x0, 0x1⟩),
   row 0x18B .acctest (fun _ => ⟨.unif, .acc, .zero, .zero, 0x1, 0x1⟩),
   row 0x195 .tmerge (fun _ => ⟨.scr, .scr, .unif, .zero, 0x2, 0x1⟩),
   rowX 0x1C0 .crr (fun o => ⟨if o.s2 == 0#16 then .lane else .unif, .any, .zero, .sel 1, 0, 1⟩) (fun priv o => regOk priv o.s0.toNat),
   rowX 0x1C1 .crw (fun o => ⟨.any, if o.s2 == 0#16 then .lane else .unif, .zero, .sel 1, 1, 1⟩) (fun priv o => regOk priv o.dst.toNat),
   row 0x1C2 .trap (fun _ => ⟨.zero, .zero, .zero, .sel 0x3FF, 0x0, 0x1⟩),
   { row 0x1C3 .rtt (fun _ => ⟨.zero, .zero, .zero, .sel 1, 0x0, 0x1⟩) with guardable := false },
   { row 0x1C4 .sysc (fun _ => ⟨.unif, .unif, .zero, .sel 0x3FF, 0x1, 0x1⟩) with guardable := false },
   row 0x1C5 .brk (fun _ => ⟨.zero, .zero, .zero, .sel 0x3FF, 0x0, 0x1⟩),
   { rowX 0x1C6 tlbi (fun o => tlbiShape o) (fun _ o => decide (o.s2.toNat ≤ 2)) with guardable := false },
   { row 0x1C7 .halt (fun _ => ⟨.zero, .zero, .zero, .zero, 0x0, 0x1⟩) with guardable := false },
   { row 0x1C8 .ckpt (fun _ => ⟨.unif, .zero, .zero, .zero, 0x0, 0x1⟩) with guardable := false },
   { row 0x1C9 .fencei (fun _ => ⟨.zero, .zero, .zero, .zero, 0x0, 0x1⟩) with guardable := false }]

/-- The opcode map of the ordinary two-word and three-word instructions (R58), by ascending opcode. -/
def rows : List Row := rows0 ++ rows1 ++ rows2 ++ rows3 ++ rows4 ++ rows5


/-- Kill bits as a mask. -/
def Ops.kills (o : Ops) : Nat := o.k0.toNat + 2 * o.k1.toNat + 4 * o.k2.toNat

/-- Steps 5 to 7 of R46 for an instruction of the ordinary layout: the first that fails. -/
def Row.fails (r : Row) (d : Declared) (priv : Bool) (o : Ops) : Option Nat :=
  let sh := r.shape o
  if !(sh.dst.ok o.wide o.dst.toNat && sh.s0.ok o.wide o.s0.toNat && sh.s1.ok o.wide o.s1.toNat &&
      sh.s2.ok o.wide o.s2.toNat && (o.kills &&& sh.kills == o.kills) &&
      (r.guardable || o.guard == .always) && r.accepts priv o) then some 5
  else if !bit sh.mods o.mod.toNat then some 6
  else if !(sh.dst.declared d o.dst.toNat && sh.s0.declared d o.s0.toNat &&
      sh.s1.declared d o.s1.toNat && sh.s2.declared d o.s2.toNat && r.names d o) then some 7
  else none

/-- The row of an opcode. -/
def rowOf (op : Nat) : Option Row := rows.find? fun r => r.op == op

/-! ## Engine commands -/

/-- Steps in order: the first failing one decides. -/
def orElse5 (s5 s6 s7 : Bool) (i : Instr) : Except Nat Instr :=
  if !s5 then .error 5 else if !s6 then .error 6 else if !s7 then .error 7 else .ok i

/-- Kill bits of an engine command within a mask. -/
def EHead.killsOk (h : EHead) (mask : Nat) : Bool :=
  let k := h.k0.toNat + 2 * h.k1.toNat + 4 * h.k2.toNat
  k &&& mask == k

/-- The copy commands (R244). -/
def checkCopy (op : Nat) (d : Declared) (e : CopyOps) : Except Nat Instr :=
  let u := decide (e.g.toNat < d.unif) && decide (e.buf.toNat < d.scr) &&
    decide (e.tok.toNat < d.unif) && decide (e.rt.toNat < d.res)
  let ctl := e.h.mod == 1#3
  match op with
  | 0x180 => orElse5 (e.idx == 0#16 && e.h.killsOk (if ctl then 3 else 1)) (decide (e.h.mod.toNat ≤ 1))
      (u && (!ctl || decide (e.g.toNat + 1 < d.unif))) (.cpy e)
  | 0x181 => orElse5 (e.h.killsOk 7) (e.h.mod == 0#3)
      (u && decide (e.g.toNat + 1 < d.unif) && decide (e.idx.toNat < d.lane)) (.cpyx e)
  | 0x182 => orElse5 (e.idx == 0#16 && e.h.killsOk (if ctl then 3 else 1)) (decide (e.h.mod.toNat ≤ 1))
      (u && (!ctl || decide (e.g.toNat + 1 < d.unif))) (.cpyo e)
  | _ => orElse5 (e.idx == 0#16 && e.rt == 0#16 && e.g == 0#12 && e.buf == 0#8 && e.h.killsOk 0)
      (e.h.mod == 0#3) (decide (e.tok.toNat < d.unif)) (.cpyc e)

/-- The input class of a matrix format pair (R261): 16-bit float, binary8, 8-bit integer. -/
def mmaClass (c : Nat) : Option Nat :=
  if c == 1 || c == 2 then some 0
  else if isB8 c then some 1
  else if c == 16 || c == 20 then some 2
  else none

/-- MMA and MMAG (R264). MOD bit 0 is STR, bit 1 SC. -/
def checkMma (g : Bool) (d : Declared) (e : MmaOps) : Except Nat Instr :=
  let str := bit e.h.mod.toNat 0
  orElse5 (e.mc != 3#2 && e.nc != 3#2 && (mmaClass e.fa.toNat).isSome &&
      mmaClass e.fa.toNat == mmaClass e.fb.toNat &&
      (if str then e.ib == 0#7 else decide (e.bn.toNat < 256)) && e.h.killsOk (if str then 3 else 0))
    (decide (e.h.mod.toNat ≤ 3))
    (decide (e.tl.toNat < d.acc) && decide (e.ab.toNat < d.scr) && decide (e.cv.toNat < d.conv) &&
      decide (e.br.toNat < d.bar) &&
      (if str then decide (e.bn.toNat + 1 < d.unif) else decide (e.bn.toNat < d.scr)))
    (if g then .mmag e else .mma e)

/-- The output formats of EPI (R276). -/
def epiFmt (c : Nat) : Bool := isFloat c || c == 16 || c == 17 || c == 18 || c == 20 || c == 21 || c == 22

/-- EPI (R276). MOD bit 0 is FLG. -/
def checkEpi (d : Declared) (e : EpiOps) : Except Nat Instr :=
  orElse5 (e.mc != 3#2 && e.nc != 3#2 && epiFmt e.fmt.toNat && (e.h.mod != 1#3 || e.fmt == 0#6) &&
      e.h.killsOk 3)
    (decide (e.h.mod.toNat ≤ 1))
    (decide (e.db.toNat < d.scr) && decide (e.tl.toNat < d.acc) && decide (e.cn.toNat < d.unif) &&
      decide (e.vb.toNat < max d.scr 1)) (.epi e)

/-- The palp commands (R289). -/
def checkPalp (mk : PalpOps → Instr) (d : Declared) (e : PalpOps) : Except Nat Instr :=
  orElse5 (e.h.killsOk 3) (e.h.mod == 0#3)
    (decide (e.pb.toNat < d.scr) && decide (e.u.toNat + 1 < d.unif) && decide (e.t.toNat < d.unif) &&
      decide (e.rb.toNat < d.scr)) (mk e)

/-- COLL (R366): unguardable, and c, c + 1 and c + 2 are declared. -/
def checkColl (d : Declared) (e : CollOps) : Except Nat Instr :=
  orElse5 (e.h.killsOk 1 && e.h.guard == .always) (decide (e.h.mod.toNat ≤ 2))
    (decide (e.db.toNat < d.scr) && decide (e.sb.toNat < d.scr) && decide (e.cn.toNat + 2 < d.unif) &&
      decide (e.t.toNat < d.unif)) (.coll e)

/-- An engine opcode (R57). -/
def isEngine (op : Nat) : Bool :=
  [0x180, 0x181, 0x182, 0x183, 0x188, 0x189, 0x18C, 0x190, 0x191, 0x192, 0x193, 0x194, 0x1A0].contains op

/-- The fields of the engine layouts (R57, R244, R264, R276, R289, R366). -/
def copyFields (h : EHead) (f : Nat) : CopyOps :=
  ⟨h, BitVec.ofNat 8 (bits f 63 56), BitVec.ofNat 12 (bits f 55 44), BitVec.ofNat 12 (bits f 43 32),
    BitVec.ofNat 16 (bits f 31 16), BitVec.ofNat 16 (bits f 15 0)⟩
def mmaFields (h : EHead) (f : Nat) : MmaOps :=
  ⟨h, BitVec.ofNat 4 (bits f 63 60), BitVec.ofNat 8 (bits f 59 52),
    (if bit h.mod.toNat 0 then BitVec.ofNat 12 (bits f 51 40)
     else if bits f 51 48 == 0 then BitVec.ofNat 12 (bits f 47 40) else BitVec.ofNat 12 4095),
    BitVec.ofNat 4 (bits f 39 36), BitVec.ofNat 6 (bits f 35 30), BitVec.ofNat 6 (bits f 29 24),
    BitVec.ofNat 6 (bits f 23 18), BitVec.ofNat 2 (bits f 17 16), BitVec.ofNat 2 (bits f 15 14),
    BitVec.ofNat 7 (bits f 13 7), BitVec.ofNat 7 (bits f 6 0)⟩
def epiFields (h : EHead) (f : Nat) : EpiOps :=
  ⟨h, BitVec.ofNat 8 (bits f 63 56), BitVec.ofNat 4 (bits f 55 52), BitVec.ofNat 12 (bits f 51 40),
    BitVec.ofNat 8 (bits f 39 32), BitVec.ofNat 6 (bits f 31 26), BitVec.ofNat 2 (bits f 25 24),
    BitVec.ofNat 2 (bits f 23 22)⟩
def collFields (h : EHead) (f : Nat) : CollOps :=
  ⟨h, BitVec.ofNat 8 (bits f 63 56), BitVec.ofNat 8 (bits f 55 48), BitVec.ofNat 12 (bits f 47 36),
    BitVec.ofNat 12 (bits f 35 24)⟩
def palpFields (h : EHead) (f : Nat) : PalpOps :=
  ⟨h, BitVec.ofNat 8 (bits f 63 56), BitVec.ofNat 12 (bits f 55 44), BitVec.ofNat 12 (bits f 43 32),
    BitVec.ofNat 8 (bits f 31 24)⟩

/-- An engine command from its operand field O (R56, R57): bits that a layout leaves unused are zero. -/
def decodeEngine (d : Declared) (op : Nat) (h : EHead) (f : Nat) : Except Nat Instr :=
  if op ≤ 0x183 then
    checkCopy op d (copyFields h f)
  else if op ≤ 0x189 then
    checkMma (op == 0x189) d (mmaFields h f)
  else if op == 0x18C then
    if bits f 21 0 != 0 then .error 5
    else checkEpi d (epiFields h f)
  else if bits f 23 0 != 0 then .error 5
  else if op == 0x1A0 then
    checkColl d (collFields h f)
  else
    checkPalp (match op with
        | 0x190 => .nmsel | 0x191 => .nmtopk | 0x192 => .nmscore | 0x193 => .nmassign | _ => .nmattn)
      d (palpFields h f)

/-! ## The three formats -/

/-- The guard field G of one-word and two-word encodings (R51): `none` for a reserved pattern. -/
def guardOf (g : Nat) : Option Guard :=
  if g == 0 then some .always
  else if 8 ≤ g then some (.pred (bit g 2) ⟨g % 4, by omega⟩)
  else none

/-- The guard fields GE, GS, GD of three words (R56). -/
def guardOfWide (g : Nat) : Option Guard :=
  if g == 0 then some .always
  else if 16 ≤ g then some (.pred (bit g 3) ⟨g % 8, by omega⟩)
  else none

/-- A guarded instruction of layouts G, B, C or P. -/
def withGuard (g : Nat) (k : Guard → Except Nat Instr) : Except Nat Instr :=
  match guardOf g with
  | some gd => k gd
  | none => .error 5

/-- A uniform instruction in layout U (R48): names are checked at step 7. -/
def decodeU (d : Declared) (c : Bool) (w : Nat) (mk : UOps → Instr) : Except Nat Instr :=
  orElse5 true true
    (decide (bits w 20 14 < d.unif) && decide (bits w 13 7 < d.unif) && decide (bits w 6 0 < d.unif))
    (mk ⟨c, bit w 22, bit w 21, BitVec.ofNat 7 (bits w 20 14), BitVec.ofNat 7 (bits w 13 7),
      BitVec.ofNat 7 (bits w 6 0)⟩)

/-- A predicate instruction in layout P: which of its fields it uses decides what must be zero (R102). -/
def decodeP (d : Declared) (c : Bool) (w : Nat) (useA useB useM : Bool) (mk : POps → Instr) :
    Except Nat Instr :=
  withGuard (bits w 22 19) fun g =>
    orElse5 (bits w 5 0 == 0 && (useA || bits w 18 16 == 0) && (useB || bits w 15 13 == 0) &&
        (useM || bits w 12 6 == 0)) true (!useM || decide (bits w 12 6 < d.unif))
      (mk ⟨c, g, BitVec.ofNat 3 (bits w 18 16), BitVec.ofNat 3 (bits w 15 13),
        BitVec.ofNat 7 (bits w 12 6)⟩)

/-- A single-word instruction (R48, R50). -/
def decodeSingle (d : Declared) (w : Nat) : Except Nat Instr :=
  let c := bit w 29
  match bits w 28 23 with
  | 0b000000 => if w == 0 then .ok .nop else .error 5
  | 0b000001 => withGuard (bits w 22 19) fun g => orElse5 (bits w 18 0 == 0) true true (.exit c g)
  | 0b000010 => orElse5 (bits w 22 0 == 0) true true (.yield c)
  | 0b000011 => withGuard (bits w 22 19) fun g => orElse5 (bits w 18 0 == 0) true true (.ret c g)
  | 0b000100 => withGuard (bits w 22 19) fun g =>
      .ok (.bra c g (BitVec.ofNat 2 (bits w 18 17)) (BitVec.ofNat 15 (bits w 16 2))
        (BitVec.ofNat 2 (bits w 1 0)))
  | 0b000101 => withGuard (bits w 22 19) fun g => orElse5 (bits w 18 17 == 0) true true
      (.call c g (BitVec.ofNat 15 (bits w 16 2)) (BitVec.ofNat 2 (bits w 1 0)))
  | 0b000110 => .ok (.jmp c (BitVec.ofNat 21 (bits w 22 2)) (BitVec.ofNat 2 (bits w 1 0)))
  | 0b001000 => decodeP d c w true false false .pnot
  | 0b001001 => decodeP d c w true true false .pand
  | 0b001010 => decodeP d c w true true false .por
  | 0b001011 => decodeP d c w true true false .pxor
  | 0b001100 => decodeP d c w false false false .pdrop
  | 0b001101 => decodeP d c w true false false .pdup
  | 0b001110 => decodeP d c w true true false .pswap
  | 0b001111 => decodeP d c w false false true .psetm
  | 0b010000 => decodeU d c w .saddSingleWord
  | 0b010001 => decodeU d c w .ssubSingleWord
  | 0b010010 => decodeU d c w .smulSingleWord
  | 0b010011 => decodeU d c w .smulhSingleWord
  | 0b010100 => decodeU d c w .sandSingleWord
  | 0b010101 => decodeU d c w .sorSingleWord
  | 0b010110 => decodeU d c w .sxorSingleWord
  | 0b010111 => decodeU d c w .sshlSingleWord
  | 0b011000 => decodeU d c w .sshrSingleWord
  | 0b011001 => decodeU d c w .ssarSingleWord
  | 0b011010 => decodeU d c w .sminSingleWord
  | 0b011011 => decodeU d c w .smaxSingleWord
  | 0b011100 => if bits w 6 0 != 0 || bit w 21 then .error 5 else
      orElse5 true true (decide (bits w 20 14 < d.unif) && decide (bits w 13 7 < d.unif))
        (.smovSingleWord ⟨c, bit w 22, false, BitVec.ofNat 7 (bits w 20 14), BitVec.ofNat 7 (bits w 13 7),
          0#7⟩)
  | 0b011101 => orElse5 (decide (bits w 19 16 < 6) && bits w 15 14 == 0) true
      (decide (bits w 13 7 < d.unif) && (bit w 21 || decide (bits w 6 0 < d.unif)))
      (.scmpSingleWord ⟨c, bit w 22, bit w 21, bit w 20, BitVec.ofNat 4 (bits w 19 16),
        BitVec.ofNat 7 (bits w 13 7), BitVec.ofNat 7 (bits w 6 0)⟩)
  | 0b100000 => orElse5 true true (decide (bits w 22 16 < d.unif))
      (.sliSingleWord c (BitVec.ofNat 7 (bits w 22 16)) (BitVec.ofNat 16 (bits w 15 0)))
  | 0b100001 => orElse5 true true (decide (bits w 22 20 < d.unif))
      (.slui c (BitVec.ofNat 3 (bits w 22 20)) (BitVec.ofNat 20 (bits w 19 0)))
  | 0b100010 => orElse5 (bits w 15 12 == 0) true (decide (bits w 22 16 < d.unif))
      (.saddi c (BitVec.ofNat 7 (bits w 22 16)) (BitVec.ofNat 12 (bits w 11 0)))
  | _ => .error 4

/-- A two-word instruction (R51) and its opcode; `none` for a reserved guard pattern. -/
def parseTwo (w0 w1 : Nat) : Option Ops :=
  (guardOf (bits w0 19 16)).map fun g =>
    { wide := false, chain := bit w0 29, guard := g, k0 := bit w0 15, k1 := bit w0 14, k2 := bit w0 13
      mod := BitVec.ofNat 3 (bits w0 12 10), dst := BitVec.ofNat 16 (bits w0 9 0)
      s0 := BitVec.ofNat 16 (bits w1 29 20), s1 := BitVec.ofNat 16 (bits w1 19 10)
      s2 := BitVec.ofNat 16 (bits w1 9 0) }

/-- The operand field O of a three-word instruction (R56). -/
def operandField (w0 w1 w2 : Nat) : Nat := bits w0 8 5 * 2 ^ 60 + bits w1 29 0 * 2 ^ 30 + bits w2 29 0

/-- A three-word instruction in the ordinary layout (R56). -/
def parseThree (w0 w1 w2 : Nat) : Option Ops :=
  let f := operandField w0 w1 w2
  (guardOfWide (bits w0 19 15)).map fun g =>
    { wide := true, chain := bit w0 29, guard := g, k0 := bit w0 14, k1 := bit w0 13, k2 := bit w0 12
      mod := BitVec.ofNat 3 (bits w0 11 9), dst := BitVec.ofNat 16 (bits f 63 48)
      s0 := BitVec.ofNat 16 (bits f 47 32), s1 := BitVec.ofNat 16 (bits f 31 16)
      s2 := BitVec.ofNat 16 (bits f 15 0) }

/-- An ordinary two-word or three-word instruction: steps 4 to 7. -/
def decodeOrdinary (d : Declared) (priv : Bool) (op : Nat) (wide : Bool) (o : Option Ops) :
    Except Nat Instr :=
  match rowOf op with
  | none => .error 4
  | some r =>
    if r.wideOnly && !wide then .error 4
    else match o with
      | none => .error 5
      | some o =>
        match r.fails d priv o with
        | some n => .error n
        | none => .ok (r.inst o)

/-- The instruction at a slot of a packet, or the step of R46 that refuses it. `priv` says that the code
runs on a control core (R347, R374). -/
def decode (d : Declared) (priv : Bool) (p : Packet) (slot : Nat) : Except Nat Instr :=
  let w := p.word slot
  let n := lengthField w
  if 3 ≤ slot || n == 3 then .error 1
  else if !p.fits slot then .error 2
  else if !p.tailOk then .error 3
  else
    let r :=
      if n == 0 then decodeSingle d w
      else
        let op := bits w 28 20
        if n == 1 then
          if isEngine op then .error 4 else decodeOrdinary d priv op false (parseTwo w (p.word (slot + 1)))
        else if isEngine op then
          if bits w 4 0 != 0 then .error 5
          else match guardOfWide (bits w 19 15) with
            | none => .error 5
            | some g => decodeEngine d op
                ⟨bit w 29, g, bit w 14, bit w 13, bit w 12, BitVec.ofNat 3 (bits w 11 9)⟩
                (operandField w (p.word 1) (p.word 2))
        else if (rowOf op).isSome && bits w 4 0 != 0 then .error 5
        else decodeOrdinary d priv op true (parseThree w (p.word 1) (p.word 2))
    match r with
    | .ok i => if slot + n == 2 && bit w 29 then .error 5 else .ok i
    | .error 4 => .error 4
    | .error k => if slot + n == 2 && bit w 29 then .error 5 else .error k

/-- The decoder on sixteen bytes of code. -/
def decodeBytes (d : Declared) (priv : Bool) (bs : List Byte) (slot : Nat) : Except Nat Instr :=
  decode d priv (Packet.ofBytes bs) slot

/-- The packet that holds an instruction of `nbits` bits in its first slots, later words and tail zero. -/
def tablePacket (nbits w : Nat) : Packet :=
  Packet.ofBytes (leBytes 16 (w % 2 ^ min nbits 96))

/-- The instruction that the decoder reads from a word of the opcode table. -/
def decodeTableWord (nbits w : Nat) : Option Instr :=
  match decodeBytes Declared.limits false (tablePacket nbits w).bytes 0 with
  | .ok i => some i
  | .error _ => none

/-! ## The encoder -/

/-- The opcode and operands of an instruction in the ordinary layout. -/
def opsOf : Instr → Option (Nat × Ops)
  | .nop => none
  | .exit _ _ => none
  | .yield _ => none
  | .ret _ _ => none
  | .bra _ _ _ _ _ => none
  | .call _ _ _ _ => none
  | .jmp _ _ _ => none
  | .pnot _ => none
  | .pand _ => none
  | .por _ => none
  | .pxor _ => none
  | .pdrop _ => none
  | .pdup _ => none
  | .pswap _ => none
  | .psetm _ => none
  | .saddSingleWord _ => none
  | .ssubSingleWord _ => none
  | .smulSingleWord _ => none
  | .smulhSingleWord _ => none
  | .sandSingleWord _ => none
  | .sorSingleWord _ => none
  | .sxorSingleWord _ => none
  | .sshlSingleWord _ => none
  | .sshrSingleWord _ => none
  | .ssarSingleWord _ => none
  | .sminSingleWord _ => none
  | .smaxSingleWord _ => none
  | .smovSingleWord _ => none
  | .scmpSingleWord _ => none
  | .sliSingleWord _ _ _ => none
  | .slui _ _ _ => none
  | .saddi _ _ _ => none
  | .viadd o => some (0x000, o)
  | .visub o => some (0x001, o)
  | .vimul o => some (0x002, o)
  | .vimulh o => some (0x003, o)
  | .vimad o => some (0x004, o)
  | .vimin o => some (0x005, o)
  | .vimax o => some (0x006, o)
  | .viabs o => some (0x007, o)
  | .vand o => some (0x008, o)
  | .vor o => some (0x009, o)
  | .vxor o => some (0x00A, o)
  | .vnot o => some (0x00B, o)
  | .vshl o => some (0x00C, o)
  | .vshr o => some (0x00D, o)
  | .vsar o => some (0x00E, o)
  | .vclz o => some (0x00F, o)
  | .vffs o => some (0x010, o)
  | .vpopc o => some (0x011, o)
  | .vbrev o => some (0x012, o)
  | .vbfe o => some (0x013, o)
  | .vbfi o => some (0x014, o)
  | .vsel o => some (0x015, o)
  | .vmov o => some (0x016, o)
  | .vbcast o => some (0x017, o)
  | .vpadd o => some (0x018, o)
  | .vdot4 o => some (0x019, o)
  | .vcmp o => some (0x01A, o)
  | .viaddImmediate o => some (0x080, o)
  | .visubImmediate o => some (0x081, o)
  | .vimulImmediate o => some (0x082, o)
  | .vimulhImmediate o => some (0x083, o)
  | .viminImmediate o => some (0x085, o)
  | .vimaxImmediate o => some (0x086, o)
  | .vandImmediate o => some (0x088, o)
  | .vorImmediate o => some (0x089, o)
  | .vxorImmediate o => some (0x08A, o)
  | .vshlImmediate o => some (0x08C, o)
  | .vshrImmediate o => some (0x08D, o)
  | .vsarImmediate o => some (0x08E, o)
  | .vbfeImmediate o => some (0x093, o)
  | .vmovImmediate o => some (0x096, o)
  | .vcmpImmediate o => some (0x09A, o)
  | .vfadd o => some (0x040, o)
  | .vfsub o => some (0x041, o)
  | .vfmul o => some (0x042, o)
  | .vffma o => some (0x043, o)
  | .vfmin o => some (0x044, o)
  | .vfmax o => some (0x045, o)
  | .vfrint o => some (0x046, o)
  | .vfexp2f o => some (0x047, o)
  | .vflog2 o => some (0x048, o)
  | .vfrcp o => some (0x049, o)
  | .vfrsq o => some (0x04A, o)
  | .vfsqrt o => some (0x04B, o)
  | .vfsin o => some (0x04C, o)
  | .vfcos o => some (0x04D, o)
  | .vfldexp o => some (0x04E, o)
  | .vffrexp o => some (0x04F, o)
  | .vfclass o => some (0x050, o)
  | .vfcvt o => some (0x051, o)
  | .vftoi o => some (0x052, o)
  | .vitof o => some (0x053, o)
  | .vfrope o => some (0x054, o)
  | .vfdot2 o => some (0x055, o)
  | .vfcmp o => some (0x056, o)
  | .sadd o => some (0x0C0, o)
  | .ssub o => some (0x0C1, o)
  | .smul o => some (0x0C2, o)
  | .smulh o => some (0x0C3, o)
  | .sand o => some (0x0C4, o)
  | .sor o => some (0x0C5, o)
  | .sxor o => some (0x0C6, o)
  | .sshl o => some (0x0C7, o)
  | .sshr o => some (0x0C8, o)
  | .ssar o => some (0x0C9, o)
  | .smin o => some (0x0CA, o)
  | .smax o => some (0x0CB, o)
  | .smov o => some (0x0CC, o)
  | .ssel o => some (0x0CD, o)
  | .sldr o => some (0x0CE, o)
  | .scmp o => some (0x0CF, o)
  | .saddImmediate o => some (0x0D0, o)
  | .ssubImmediate o => some (0x0D1, o)
  | .smulImmediate o => some (0x0D2, o)
  | .smulhImmediate o => some (0x0D3, o)
  | .sandImmediate o => some (0x0D4, o)
  | .sorImmediate o => some (0x0D5, o)
  | .sxorImmediate o => some (0x0D6, o)
  | .sshlImmediate o => some (0x0D7, o)
  | .sshrImmediate o => some (0x0D8, o)
  | .ssarImmediate o => some (0x0D9, o)
  | .sminImmediate o => some (0x0DA, o)
  | .smaxImmediate o => some (0x0DB, o)
  | .sli o => some (0x0DC, o)
  | .scmpImmediate o => some (0x0DF, o)
  | .braWide o => some (0x0E0, o)
  | .jmpWide o => some (0x0E1, o)
  | .callWide o => some (0x0E2, o)
  | .calli o => some (0x0E3, o)
  | .jmpi o => some (0x0E4, o)
  | .vote o => some (0x0F0, o)
  | .shfl o => some (0x0F1, o)
  | .wred o => some (0x0F2, o)
  | .wscan o => some (0x0F3, o)
  | .part o => some (0x0F4, o)
  | .actm o => some (0x0F5, o)
  | .xmovS o => some (0x0F6, o)
  | .xmovR o => some (0x0F7, o)
  | .ld o => some (0x100, o)
  | .st o => some (0x101, o)
  | .lds o => some (0x102, o)
  | .sts o => some (0x103, o)
  | .atom o => some (0x104, o)
  | .atoms o => some (0x105, o)
  | .pref o => some (0x106, o)
  | .cflush o => some (0x107, o)
  | .phase o => some (0x108, o)
  | .fopnd o => some (0x109, o)
  | .bara o => some (0x110, o)
  | .barw o => some (0x111, o)
  | .bars o => some (0x112, o)
  | .csign o => some (0x113, o)
  | .snext o => some (0x120, o)
  | .sdone o => some (0x121, o)
  | .sgive o => some (0x122, o)
  | .swr o => some (0x123, o)
  | .molt o => some (0x124, o)
  | .srd o => some (0x125, o)
  | .cpy _ => none
  | .cpyx _ => none
  | .cpyo _ => none
  | .cpyc _ => none
  | .mma _ => none
  | .mmag _ => none
  | .accz o => some (0x18A, o)
  | .acctest o => some (0x18B, o)
  | .epi _ => none
  | .nmsel _ => none
  | .nmtopk _ => none
  | .nmscore _ => none
  | .nmassign _ => none
  | .nmattn _ => none
  | .tmerge o => some (0x195, o)
  | .coll _ => none
  | .crr o => some (0x1C0, o)
  | .crw o => some (0x1C1, o)
  | .trap o => some (0x1C2, o)
  | .rtt o => some (0x1C3, o)
  | .sysc o => some (0x1C4, o)
  | .brk o => some (0x1C5, o)
  | .tlbiPage o => some (0x1C6, o)
  | .tlbiCtx o => some (0x1C6, o)
  | .tlbiAll o => some (0x1C6, o)
  | .halt o => some (0x1C7, o)
  | .ckpt o => some (0x1C8, o)
  | .fencei o => some (0x1C9, o)
  | .issueGrant _ => none
  | .longLatencyResultArrival _ _ => none
  | .faultNotice _ _ => none
  | .trapDelivery _ => none
  | .memberWaitDeadlock _ => none
  | .transferOrphaned _ => none
  | .barrierOrphaned _ _ => none
  | .blockEnd _ => none
  | .gangRetired _ => none
  | .barrierPass _ => none
  | .copyCompletion _ => none
  | .copyFaultResume _ => none
  | .copyRefusal _ _ => none
  | .matrixIntegrationStep _ _ => none
  | .matrixOperationCompletion _ => none
  | .matrixFaultReplay _ _ => none
  | .streamedPageRefusal _ _ _ => none
  | .palpPartResume _ => none
  | .palpCompletion _ => none
  | .collCapture _ => none
  | .collCompletion _ => none
  | .engineWatchpointHit _ _ _ => none
  | .moltPerformed _ => none
  | .syscReply _ _ => none
  | .checkpointImage _ _ => none
  | .haltWake _ => none
  | .timerExpiry _ => none
  | .vaultCacheWriteback _ _ => none
  | .rebind _ => none
  | .preemptionRequest _ _ _ => none
  | .drainEnd _ _ => none
  | .discard _ => none
  | .save _ _ _ => none
  | .preemptionReport _ => none
  | .endLaunch _ => none
  | .debuggerResume _ _ => none
  | .faultRecordWritten _ => none
  | .commandLinkMessage _ _ => none
  | .launch _ => none
  | .wait _ => none
  | .waitPoll _ => none
  | .signal _ => none
  | .marker _ => none
  | .launchEnd _ => none
  | .queueDoorbell _ => none
  | .debuggerLog _ => none
  | .executiveRequest _ => none
  | .linkRetrain _ => none
  | .thermalTrip => none
  | .accessPerformed _ => none
  | .clsend _ _ => none
  | .laneSetAged _ _ => none
  | .translationFaultService _ _ _ => none
  | .placeGang _ _ _ _ _ => none
  | .shareChange _ _ => none
  | .restore _ _ _ _ _ => none
  | .heartbeat => none
  | .schedulerTakeover => none
  | .hostDoorbell _ _ => none
  | .storageRead _ _ => none
  | .storageWrite _ _ => none
  | .createQueue _ _ _ => none
  | .destroyQueue _ => none
  | .restartQueue _ => none
  | .loadCodeObject _ _ => none
  | .unloadCodeObject _ => none
  | .createCommunicator _ _ _ => none
  | .communicatorTimeout _ => none
  | .destroyCommunicator _ => none
  | .setWatchpoint _ => none
  | .clearWatchpoint _ => none
  | .attach _ => none
  | .resume _ => none
  | .setOrClearStep _ => none
  | .readView _ => none
  | .writeName _ => none
  | .endLaunchRequest _ => none
  | .hostRead _ _ => none
  | .hostWrite _ _ => none
  | .remoteRequest _ _ => none
  | .remoteResponse _ _ => none
  | .collectiveMessage _ _ _ _ _ => none
  | .acknowledge _ _ => none
  | .replayRequest _ _ => none
  | .remoteAccessTimeout _ => none
  | .boot _ => none
  | .ownershipTransfer _ _ _ => none
  | .throttle _ _ => none
  | .sensorSample _ _ => none
  | .powerRemoval => none
  | .managementPortRequest => none
  | .softError _ _ => none
  | .vectorUnmask _ => none
  | .flitCrcFailure _ _ => none
  | .linkRetrained _ => none
  | .collMemberUnreachable _ => none

/-- The guard field of one-word and two-word encodings. -/
def Guard.code : Guard → Nat
  | .always => 0
  | .pred neg d => 8 + 4 * neg.toNat + d.val

/-- The guard fields of three words. -/
def Guard.codeWide : Guard → Nat
  | .always => 0
  | .pred neg d => 16 + 8 * neg.toNat + d.val

/-- A single word from its chain bit, opcode and payload (R48). -/
def word1 (c : Bool) (op payload : Nat) : BitVec 32 :=
  BitVec.ofNat 32 (c.toNat * 2 ^ 29 + op * 2 ^ 23 + payload)

/-- Layout P. -/
def encodeP (op : Nat) (p : POps) : List (BitVec 32) :=
  [word1 p.chain op (p.guard.code * 2 ^ 19 + p.a.toNat * 2 ^ 16 + p.b.toNat * 2 ^ 13 + p.name.toNat * 2 ^ 6)]

/-- Layout U. -/
def encodeU (op : Nat) (u : UOps) : List (BitVec 32) :=
  [word1 u.chain op (u.ka.toNat * 2 ^ 22 + u.kb.toNat * 2 ^ 21 + u.d.toNat * 2 ^ 14 + u.a.toNat * 2 ^ 7 +
    u.b.toNat)]

/-- Two words (R51). -/
def encodeTwo (op : Nat) (o : Ops) : List (BitVec 32) :=
  [BitVec.ofNat 32 (2 ^ 30 + o.chain.toNat * 2 ^ 29 + op * 2 ^ 20 + o.guard.code * 2 ^ 16 +
      o.k0.toNat * 2 ^ 15 + o.k1.toNat * 2 ^ 14 + o.k2.toNat * 2 ^ 13 + o.mod.toNat * 2 ^ 10 + o.dst.toNat),
   BitVec.ofNat 32 (3 * 2 ^ 30 + o.s0.toNat * 2 ^ 20 + o.s1.toNat * 2 ^ 10 + o.s2.toNat)]

/-- Three words from the operand field O (R56). -/
def encodeO (op : Nat) (c : Bool) (g : Guard) (k0 k1 k2 : Bool) (mod : BitVec 3) (f : Nat) :
    List (BitVec 32) :=
  [BitVec.ofNat 32 (2 * 2 ^ 30 + c.toNat * 2 ^ 29 + op * 2 ^ 20 + g.codeWide * 2 ^ 15 +
      k0.toNat * 2 ^ 14 + k1.toNat * 2 ^ 13 + k2.toNat * 2 ^ 12 + mod.toNat * 2 ^ 9 + f / 2 ^ 60 * 2 ^ 5),
   BitVec.ofNat 32 (3 * 2 ^ 30 + bits f 59 30),
   BitVec.ofNat 32 (3 * 2 ^ 30 + bits f 29 0)]

/-- The ordinary layout in the form that `wide` names. -/
def encodeOps (op : Nat) (o : Ops) : List (BitVec 32) :=
  if o.wide then
    encodeO op o.chain o.guard o.k0 o.k1 o.k2 o.mod
      (o.dst.toNat * 2 ^ 48 + o.s0.toNat * 2 ^ 32 + o.s1.toNat * 2 ^ 16 + o.s2.toNat)
  else encodeTwo op o

/-- An engine command. -/
def encodeE (op : Nat) (h : EHead) (f : Nat) : List (BitVec 32) :=
  encodeO op h.chain h.guard h.k0 h.k1 h.k2 h.mod f

/-- The operand field of a copy command (R244). -/
def CopyOps.field (e : CopyOps) : Nat :=
  e.buf.toNat * 2 ^ 56 + e.g.toNat * 2 ^ 44 + e.tok.toNat * 2 ^ 32 + e.rt.toNat * 2 ^ 16 + e.idx.toNat

/-- The operand field of a matrix command (R264). -/
def MmaOps.field (e : MmaOps) : Nat :=
  e.tl.toNat * 2 ^ 60 + e.ab.toNat * 2 ^ 52 + e.bn.toNat * 2 ^ 40 + e.cv.toNat * 2 ^ 36 +
    e.br.toNat * 2 ^ 30 + e.fa.toNat * 2 ^ 24 + e.fb.toNat * 2 ^ 18 + e.mc.toNat * 2 ^ 16 +
    e.nc.toNat * 2 ^ 14 + e.ia.toNat * 2 ^ 7 + e.ib.toNat

/-- The operand field of EPI (R276). -/
def EpiOps.field (e : EpiOps) : Nat :=
  e.db.toNat * 2 ^ 56 + e.tl.toNat * 2 ^ 52 + e.cn.toNat * 2 ^ 40 + e.vb.toNat * 2 ^ 32 +
    e.fmt.toNat * 2 ^ 26 + e.mc.toNat * 2 ^ 24 + e.nc.toNat * 2 ^ 22

/-- The operand field of a palp command (R289). -/
def PalpOps.field (e : PalpOps) : Nat :=
  e.pb.toNat * 2 ^ 56 + e.u.toNat * 2 ^ 44 + e.t.toNat * 2 ^ 32 + e.rb.toNat * 2 ^ 24

/-- The operand field of COLL (R366). -/
def CollOps.field (e : CollOps) : Nat :=
  e.db.toNat * 2 ^ 56 + e.sb.toNat * 2 ^ 48 + e.cn.toNat * 2 ^ 36 + e.t.toNat * 2 ^ 24

/-- The words of an instruction outside the ordinary layout; an event has none. -/
def encodeOther : Instr → List (BitVec 32)
  | .nop => [0#32]
  | .exit c g => [word1 c 0b000001 (g.code * 2 ^ 19)]
  | .yield c => [word1 c 0b000010 0]
  | .ret c g => [word1 c 0b000011 (g.code * 2 ^ 19)]
  | .bra c g h off s => [word1 c 0b000100 (g.code * 2 ^ 19 + h.toNat * 2 ^ 17 + off.toNat * 4 + s.toNat)]
  | .call c g off s => [word1 c 0b000101 (g.code * 2 ^ 19 + off.toNat * 4 + s.toNat)]
  | .jmp c off s => [word1 c 0b000110 (off.toNat * 4 + s.toNat)]
  | .pnot p => encodeP 0b001000 p
  | .pand p => encodeP 0b001001 p
  | .por p => encodeP 0b001010 p
  | .pxor p => encodeP 0b001011 p
  | .pdrop p => encodeP 0b001100 p
  | .pdup p => encodeP 0b001101 p
  | .pswap p => encodeP 0b001110 p
  | .psetm p => encodeP 0b001111 p
  | .saddSingleWord u => encodeU 0b010000 u
  | .ssubSingleWord u => encodeU 0b010001 u
  | .smulSingleWord u => encodeU 0b010010 u
  | .smulhSingleWord u => encodeU 0b010011 u
  | .sandSingleWord u => encodeU 0b010100 u
  | .sorSingleWord u => encodeU 0b010101 u
  | .sxorSingleWord u => encodeU 0b010110 u
  | .sshlSingleWord u => encodeU 0b010111 u
  | .sshrSingleWord u => encodeU 0b011000 u
  | .ssarSingleWord u => encodeU 0b011001 u
  | .sminSingleWord u => encodeU 0b011010 u
  | .smaxSingleWord u => encodeU 0b011011 u
  | .smovSingleWord u => encodeU 0b011100 u
  | .scmpSingleWord k => [word1 k.chain 0b011101 (k.ka.toNat * 2 ^ 22 + k.imm.toNat * 2 ^ 21 +
      k.uns.toNat * 2 ^ 20 + k.cond.toNat * 2 ^ 16 + k.a.toNat * 2 ^ 7 + k.b.toNat)]
  | .sliSingleWord c d imm => [word1 c 0b100000 (d.toNat * 2 ^ 16 + imm.toNat)]
  | .slui c d imm => [word1 c 0b100001 (d.toNat * 2 ^ 20 + imm.toNat)]
  | .saddi c d imm => [word1 c 0b100010 (d.toNat * 2 ^ 16 + imm.toNat)]
  | .cpy e => encodeE 0x180 e.h e.field
  | .cpyx e => encodeE 0x181 e.h e.field
  | .cpyo e => encodeE 0x182 e.h e.field
  | .cpyc e => encodeE 0x183 e.h e.field
  | .mma e => encodeE 0x188 e.h e.field
  | .mmag e => encodeE 0x189 e.h e.field
  | .epi e => encodeE 0x18C e.h e.field
  | .nmsel e => encodeE 0x190 e.h e.field
  | .nmtopk e => encodeE 0x191 e.h e.field
  | .nmscore e => encodeE 0x192 e.h e.field
  | .nmassign e => encodeE 0x193 e.h e.field
  | .nmattn e => encodeE 0x194 e.h e.field
  | .coll e => encodeE 0x1A0 e.h e.field
  | _ => []

/-- The words of an instruction. -/
def encode (i : Instr) : List (BitVec 32) :=
  match opsOf i with
  | some (op, o) => encodeOps op o
  | none => encodeOther i

/-- The packet that holds an instruction from slot 0, later slots NOP and the tail zero. -/
def packetOf (i : Instr) : Packet :=
  match encode i with
  | [a] => ⟨a, 0#32, 0#32, 0#32⟩
  | [a, b] => ⟨a, b, 0#32, 0#32⟩
  | [a, b, c] => ⟨a, b, c, 0#32⟩
  | _ => ⟨0#32, 0#32, 0#32, 0#32⟩

end Sys2Proof
end

