-- ==== Sys2Proof/Machine/Float.lean ====
section
/-! DEFINITION. Number formats, rounding, flags, NaN results and conversions (R62-R85), and the exact
arithmetic they stand on. -/

namespace Sys2Proof.Machine

/-! ## Exact dyadic numbers -/

/-- The exact number `m × 2^e`. -/
structure Dy where
  m : Int
  e : Int
  deriving DecidableEq, Repr

/-- The mantissa of `d` at a lower exponent `e`. -/
def Dy.at (d : Dy) (e : Int) : Int := d.m * (2 ^ (d.e - e).toNat : Nat)

def Dy.add (a b : Dy) : Dy :=
  let e := min a.e b.e
  ⟨a.at e + b.at e, e⟩

def Dy.neg (a : Dy) : Dy := ⟨-a.m, a.e⟩

def Dy.sub (a b : Dy) : Dy := a.add b.neg

def Dy.mul (a b : Dy) : Dy := ⟨a.m * b.m, a.e + b.e⟩

def Dy.abs (a : Dy) : Dy := ⟨a.m.natAbs, a.e⟩

def Dy.lt (a b : Dy) : Bool :=
  let e := min a.e b.e
  decide (a.at e < b.at e)

def Dy.le (a b : Dy) : Bool := !b.lt a

def Dy.ofInt (n : Int) : Dy := ⟨n, 0⟩

/-- ⌊log2 |d|⌋ for a nonzero `d`. -/
def Dy.log2 (d : Dy) : Int := (Nat.log2 d.m.natAbs : Nat) + d.e

/-! ## Flags (R33, R76) -/

/-- CR.FFLAGS: NV, DZ, OF, UF, NX from bit 4 down. -/
abbrev Flags := BitVec 5

def flagNV : Flags := 16#5
def flagDZ : Flags := 8#5
def flagOF : Flags := 4#5
def flagUF : Flags := 2#5
def flagNX : Flags := 1#5

/-! ## Formats (R65-R71) -/

/-- A float format: width, precision P, bias, whether it is binary8, unsigned, and with infinities. -/
structure Fmt where
  width : Nat
  p     : Nat
  bias  : Nat
  b8    : Bool
  uns   : Bool
  inf   : Bool
  deriving DecidableEq, Repr

def fp32 : Fmt := ⟨32, 24, 127, false, false, true⟩
def fp16 : Fmt := ⟨16, 11, 15, false, false, true⟩
def bf16 : Fmt := ⟨16, 8, 127, false, false, true⟩

/-- The float format of a code of R71 (binary8: bit 4 unsigned, bit 3 finite, bits 2:0 the precision). -/
def fmtOf (c : Nat) : Fmt :=
  match c with
  | 0 => fp32
  | 1 => fp16
  | 2 => bf16
  | _ =>
    let p := c % 8
    let u := bit c 4
    ⟨8, p, 2 ^ ((if u then 8 else 7) - p), true, u, !bit c 3⟩

/-- The least exponent emin (R65, R69, R70). -/
def Fmt.emin (f : Fmt) : Int := 1 - (f.bias : Int)

/-- Bits of a magnitude: all but the sign. -/
def Fmt.magBits (f : Fmt) : Nat := if f.uns then f.width else f.width - 1

/-- The magnitude code of infinity, where the format has one. -/
def Fmt.infMag (f : Fmt) : Nat :=
  if f.b8 then (if f.uns then 0xFE else 0x7F)
  else (2 ^ (f.width - f.p) - 1) * 2 ^ (f.p - 1)

/-- The magnitude code of the largest finite value M (R65, R69, R70). -/
def Fmt.maxMag (f : Fmt) : Nat := if f.inf then f.infMag - 1 else if f.uns then 0xFE else 0x7F

/-- The default NaN (R66, R67). -/
def Fmt.nan (f : Fmt) : Nat :=
  if f.b8 then (if f.uns then 0xFF else 0x80) else f.infMag + 2 ^ (f.p - 2)

/-- The exact magnitude of a finite magnitude code (R65, R67). -/
def Fmt.mag (f : Fmt) (c : Nat) : Dy :=
  let fr := c % 2 ^ (f.p - 1)
  let ex := c / 2 ^ (f.p - 1)
  let lo : Int := 1 - (f.bias : Int) - ((f.p - 1 : Nat) : Int)
  if ex == 0 then ⟨(fr : Int), lo⟩ else ⟨((2 ^ (f.p - 1) + fr : Nat) : Int), lo + (ex : Int) - 1⟩

/-- A pattern from sign and magnitude code; a binary8 zero has no sign (R67). -/
def Fmt.pack (f : Fmt) (neg : Bool) (mag : Nat) : Nat :=
  if f.uns || (f.b8 && mag == 0) || !neg then mag else 2 ^ (f.width - 1) + mag

/-- A value: a NaN with its sign, whether it signals and its fraction at FP32's 23 bits; an infinity; or
(−1)^neg × an exact magnitude. -/
inductive FVal where
  | nan (neg sig : Bool) (frac : Nat)
  | inf (neg : Bool)
  | fin (neg : Bool) (mag : Dy)
  deriving DecidableEq, Repr

/-- Decoding a pattern (R65-R67). -/
def Fmt.decode (f : Fmt) (x : Nat) : FVal :=
  let x := x % 2 ^ f.width
  if f.b8 then
    if x == f.nan then .nan false false 0x400000
    else
      let neg := !f.uns && bit x 7
      let mag := x % 2 ^ f.magBits
      if f.inf && mag == f.infMag then .inf neg else .fin neg (f.mag mag)
  else
    let neg := bit x (f.width - 1)
    let mag := x % 2 ^ f.magBits
    if mag == f.infMag then .inf neg
    else if f.infMag < mag then
      .nan neg (!bit mag (f.p - 2)) (mag % 2 ^ (f.p - 1) * 2 ^ (24 - f.p))
    else .fin neg (f.mag mag)

def FVal.isNan : FVal → Bool
  | .nan _ _ _ => true
  | _ => false

def FVal.isSig : FVal → Bool
  | .nan _ s _ => s
  | _ => false

def FVal.isInf : FVal → Bool
  | .inf _ => true
  | _ => false

def FVal.isZero : FVal → Bool
  | .fin _ d => d.m == 0
  | _ => false

def FVal.neg? : FVal → Bool
  | .nan n _ _ => n
  | .inf n => n
  | .fin n _ => n

/-- The signed exact value of a finite value; 0 for the others. -/
def FVal.val : FVal → Dy
  | .fin n d => if n then d.neg else d
  | _ => ⟨0, 0⟩

def FVal.negate : FVal → FVal
  | .nan n s f => .nan (!n) s f
  | .inf n => .inf (!n)
  | .fin n d => .fin (!n) d

/-! ## Rounding (R73-R75) -/

/-- RN, RZ, RU, RD in the coding of R34. -/
abbrev RMode := Nat

/-- Overflow result (R74). -/
def Fmt.overflow (f : Fmt) (mode : RMode) (sat neg : Bool) : Nat :=
  let toInf := if f.inf then f.pack neg f.infMag else f.nan
  let toMax := f.pack neg f.maxMag
  if sat then toMax
  else match mode with
    | 0 => toInf
    | 1 => toMax
    | 2 => if neg then toMax else toInf
    | _ => if neg then toInf else toMax

/-- Whether the magnitude `q + r/d` (0 ≤ r < d) rounds up to `q + 1`; `even` says that `q` is the even
neighbour of a tie (R73). -/
def roundsUp (mode : RMode) (neg even : Bool) (r d : Nat) : Bool :=
  match mode with
  | 0 => decide (d < 2 * r) || (2 * r == d && !even)
  | 1 => false
  | 2 => !neg && r != 0
  | _ => neg && r != 0

/-- ⌊log2 (num / den)⌋ for positive operands. -/
def ratLog2 (num den : Nat) : Int :=
  let k : Int := (Nat.log2 num : Int) - (Nat.log2 den : Int)
  let below := if 0 ≤ k then decide (num < den * 2 ^ k.toNat) else decide (num * 2 ^ (-k).toNat < den)
  if below then k - 1 else k

/-- `round(fmt, (−1)^neg × num/den, mode)` for num > 0: pattern and flags (R73, R74). -/
def Fmt.roundRat (f : Fmt) (mode : RMode) (sat neg : Bool) (num den : Nat) : Nat × Flags :=
  if f.uns && neg then (if sat then (0, flagNX) else (f.nan, flagNV))
  else
    let e := max (ratLog2 num den) f.emin
    let u : Int := e - ((f.p - 1 : Nat) : Int)
    let n := if 0 ≤ u then num else num * 2 ^ (-u).toNat
    let d := if 0 ≤ u then den * 2 ^ u.toNat else den
    let q := n / d
    let r := n % d
    let even := if f.p == 1 then (q == 0 || (e + (f.bias : Int)) % 2 == 0) else q % 2 == 0
    let m := if roundsUp mode neg even r d then q + 1 else q
    let w : Dy := ⟨(m : Int), u⟩
    if (f.mag f.maxMag).lt w then (f.overflow mode sat neg, flagOF ||| flagNX)
    else
      let top := 2 ^ (f.p - 1)
      let code :=
        if m < top then m
        else if m < 2 * top then (e + (f.bias : Int)).toNat * top + (m - top)
        else (e + 1 + (f.bias : Int)).toNat * top
      let nx := r != 0
      let tiny := if 0 ≤ f.emin then decide (num < den * 2 ^ f.emin.toNat)
        else decide (num * 2 ^ (-f.emin).toNat < den)
      (f.pack neg code, (if nx then flagNX else 0) ||| (if nx && tiny then flagUF else 0))

/-- `round` of an exact dyadic value; an exact zero takes the sign `zneg` (R73, R75). -/
def Fmt.round (f : Fmt) (mode : RMode) (sat zneg : Bool) (v : Dy) : Nat × Flags :=
  if v.m == 0 then (f.pack zneg 0, 0)
  else
    let neg := decide (v.m < 0)
    if 0 ≤ v.e then f.roundRat mode sat neg (v.m.natAbs * 2 ^ v.e.toNat) 1
    else f.roundRat mode sat neg v.m.natAbs (2 ^ (-v.e).toNat)

/-! ## NaN results (R77, R78) -/

/-- The FP32 pattern of a NaN, quieted. -/
def quiet32 (neg : Bool) (frac : Nat) : Nat :=
  (if neg then 2 ^ 31 else 0) + 0x7F800000 + (frac ||| 0x400000) % 2 ^ 23

/-- NV when some operand signals. -/
def sigFlags (vs : List FVal) : Flags := if vs.any FVal.isSig then flagNV else 0

/-- R77, step 1: the first NaN among the operands, quieted. -/
def nanResult (vs : List FVal) : Option (Nat × Flags) :=
  match vs.find? FVal.isNan with
  | some (.nan n _ f) => some (quiet32 n f, sigFlags vs)
  | _ => none

/-- The default NaN of FP32 with NV. -/
def invalid32 : Nat × Flags := (0x7FC00000, flagNV)

/-- An infinity of FP32. -/
def inf32 (neg : Bool) : Nat := fp32.pack neg fp32.infMag

/-! ## Arithmetic (R115-R118) -/

/-- The sign of an exact zero sum of two addends (R75). -/
def zeroSign (mode : RMode) (a b : FVal) : Bool :=
  if a.isZero && b.isZero && a.neg? == b.neg? then a.neg? else mode == 3

/-- a + b on values. -/
def addVal (mode : RMode) (a b : FVal) : Nat × Flags :=
  match nanResult [a, b] with
  | some r => r
  | none =>
    match a, b with
    | .inf m, .inf n => if m == n then (inf32 m, 0) else invalid32
    | .inf m, _ => (inf32 m, 0)
    | _, .inf n => (inf32 n, 0)
    | _, _ => fp32.round mode false (zeroSign mode a b) (a.val.add b.val)

/-- The exact product of two values that are no NaN and not 0 × inf. -/
def mulVal (a b : FVal) : FVal :=
  let n := a.neg? != b.neg?
  match a, b with
  | .fin _ x, .fin _ y => .fin n (x.mul y)
  | _, _ => .inf n

/-- 0 × inf (R76). -/
def mulInvalid (a b : FVal) : Bool := (a.isZero && b.isInf) || (a.isInf && b.isZero)

def fadd (mode : RMode) (a b : Nat) : Nat × Flags := addVal mode (fp32.decode a) (fp32.decode b)

/-- a + (−b): b is negated before R75 applies; a NaN operand keeps its sign (R77). -/
def fsub (mode : RMode) (a b : Nat) : Nat × Flags :=
  let x := fp32.decode a
  let y := fp32.decode b
  match nanResult [x, y] with
  | some r => r
  | none => addVal mode x y.negate

def fmul (mode : RMode) (a b : Nat) : Nat × Flags :=
  let x := fp32.decode a
  let y := fp32.decode b
  match nanResult [x, y] with
  | some r => r
  | none =>
    if mulInvalid x y then invalid32
    else match mulVal x y with
      | .fin n d => fp32.round mode false n (if n then d.neg else d)
      | v => (inf32 v.neg?, 0)

/-- a × b + c, rounded once. -/
def ffma (mode : RMode) (a b c : Nat) : Nat × Flags :=
  let x := fp32.decode a
  let y := fp32.decode b
  let z := fp32.decode c
  match nanResult [x, y, z] with
  | some r => r
  | none => if mulInvalid x y then invalid32 else addVal mode (mulVal x y) z

/-- a is below b, −0 below +0 (R116); for operands that are no NaN. -/
def FVal.below (a b : FVal) : Bool :=
  match a, b with
  | .inf n, .inf m => n && !m
  | .inf n, _ => n
  | _, .inf m => !m
  | _, _ =>
    if a.isZero && b.isZero then a.neg? && !b.neg? else a.val.lt b.val

def fmin (a b : Nat) : Nat × Flags :=
  let x := fp32.decode a
  let y := fp32.decode b
  match nanResult [x, y] with
  | some r => r
  | none => (if y.below x then b % 2 ^ 32 else a % 2 ^ 32, 0)

def fmax (a b : Nat) : Nat × Flags :=
  let x := fp32.decode a
  let y := fp32.decode b
  match nanResult [x, y] with
  | some r => r
  | none => (if x.below y then b % 2 ^ 32 else a % 2 ^ 32, 0)

/-- An exact value rounded to an integer magnitude by the mode, ties to even. -/
def roundMag (mode : RMode) (neg : Bool) (d : Dy) : Nat :=
  if 0 ≤ d.e then d.m.natAbs * 2 ^ d.e.toNat
  else
    let den := 2 ^ (-d.e).toNat
    let q := d.m.natAbs / den
    let r := d.m.natAbs % den
    if roundsUp mode neg (q % 2 == 0) r den then q + 1 else q

/-- VFRINT (R117). -/
def frint (mode : RMode) (a : Nat) : Nat × Flags :=
  match fp32.decode a with
  | .nan n s f => (quiet32 n f, if s then flagNV else 0)
  | .inf n => (inf32 n, 0)
  | .fin n d =>
    let q : Int := roundMag mode n d
    ((fp32.round 1 false n ⟨if n then -q else q, 0⟩).1, 0)

/-- VFDOT2 (R118). -/
def fdot2 (mode : RMode) (bf : Bool) (a b d : Nat) : Nat × Flags :=
  let f := if bf then bf16 else fp16
  let a0 := f.decode (bits a 15 0)
  let a1 := f.decode (bits a 31 16)
  let b0 := f.decode (bits b 15 0)
  let b1 := f.decode (bits b 31 16)
  let c := fp32.decode d
  match nanResult [a0, b0, a1, b1, c] with
  | some r => r
  | none =>
    if mulInvalid a0 b0 || mulInvalid a1 b1 then invalid32
    else
      let ts := [mulVal a0 b0, mulVal a1 b1, c]
      let infs := ts.filter FVal.isInf
      match infs with
      | i :: rest => if rest.all (fun j => j.neg? == i.neg?) then (inf32 i.neg?, 0) else invalid32
      | [] =>
        let zs := if ts.all (fun t => t.isZero && t.neg? == c.neg?) then c.neg? else mode == 3
        fp32.round mode false zs (ts.foldl (fun s t => s.add t.val) ⟨0, 0⟩)

/-! ## Comparison, classification, scaling (R119-R122) -/

/-- VFCMP: the pushed bit and the flags (R119); conditions coded by R48. -/
def fcmp (cc a b : Nat) : Bool × Flags :=
  let x := fp32.decode a
  let y := fp32.decode b
  let un := x.isNan || y.isNan
  let sg := sigFlags [x, y]
  let anyNan : Flags := if un then flagNV else 0
  let lt := !un && (x.below y && !(x.isZero && y.isZero))
  let gt := !un && (y.below x && !(x.isZero && y.isZero))
  let eq := !un && !lt && !gt
  match cc with
  | 0 => (eq, sg)
  | 1 => (!eq, sg)
  | 2 => (lt, anyNan)
  | 3 => (lt || eq, anyNan)
  | 4 => (gt, anyNan)
  | 5 => (gt || eq, anyNan)
  | 6 => (un, sg)
  | _ => (!un, sg)

/-- VFCLASS (R120). -/
def fclass (a : Nat) : Nat :=
  match fp32.decode a with
  | .nan _ s _ => if s then 2 ^ 8 else 2 ^ 9
  | .inf n => if n then 2 ^ 0 else 2 ^ 7
  | .fin n d =>
    if d.m == 0 then (if n then 2 ^ 3 else 2 ^ 4)
    else if d.m < 2 ^ 23 then (if n then 2 ^ 2 else 2 ^ 5)
    else (if n then 2 ^ 1 else 2 ^ 6)

/-- VFLDEXP (R121). A scale beyond ±600 gives the same rounding as ±600: every finite nonzero FP32 value
then lies beyond M or below half the least subnormal. The exponent n is no float operand. -/
def fldexp (mode : RMode) (a n : Nat) : Nat × Flags :=
  match fp32.decode a with
  | .nan s g f => (quiet32 s f, if g then flagNV else 0)
  | .inf s => (inf32 s, 0)
  | .fin s d =>
    let k : Int := max (-600) (min 600 (sext 32 n))
    fp32.round mode false s ⟨if s then -d.m else d.m, d.e + k⟩

/-- VFFREXP (R122). -/
def ffrexp (part : Bool) (a : Nat) : Nat × Flags :=
  match fp32.decode a with
  | .nan n s f => (if part then 0x80000000 else quiet32 n f, if s then flagNV else 0)
  | .inf n => (if part then 0x80000000 else inf32 n, 0)
  | .fin n d =>
    if d.m == 0 then (if part then 0 else fp32.pack n 0, 0)
    else
      let e := d.log2 + 1
      if part then (wrap 32 e, 0)
      else fp32.round 1 false n ⟨if n then -d.m else d.m, d.e - e⟩

/-! ## Conversions (R78-R81) -/

/-- Float to float (R78, R79, R124). DESIGN CHOICE (log 61): a NaN between FP16 and BF16, in either direction, keeps its
sign, and its fraction passes through FP32's as R78 has it. DEDUCED (log 62): a zero keeps its sign. -/
def cvtFloat (src dst : Fmt) (mode : RMode) (sat : Bool) (x : Nat) : Nat × Flags :=
  match src.decode x with
  | .nan n s f =>
    (if dst.b8 then dst.nan
     else if src.b8 then dst.nan
     else dst.pack n (dst.infMag + ((f / 2 ^ (24 - dst.p)) ||| 2 ^ (dst.p - 2))),
     if s then flagNV else 0)
  | .inf n =>
    if sat then (if dst.uns && n then 0 else dst.pack n dst.maxMag, 0)
    else if dst.inf && !(dst.uns && n) then (dst.pack n dst.infMag, 0)
    else (dst.nan, flagNV)
  | .fin n d => dst.round mode sat n (if n then d.neg else d)

/-- Float to an integer of `w` bits, unsigned or signed (R80): the exact integer. -/
def cvtToInt (src : Fmt) (w : Nat) (uns : Bool) (mode : RMode) (sat : Bool) (x : Nat) : Int × Flags :=
  let lo : Int := if uns then 0 else -(2 ^ (w - 1) : Nat)
  let hi : Int := if uns then (2 ^ w : Nat) - 1 else (2 ^ (w - 1) : Nat) - 1
  let indef : Int := if uns then hi else lo
  match src.decode x with
  | .nan _ _ _ => (if sat then 0 else indef, flagNV)
  | .inf n => (if sat then (if n then lo else hi) else indef, flagNV)
  | .fin n d =>
    let q : Int := roundMag mode n d
    let v := if n then -q else q
    if v < lo then (if sat then lo else indef, flagNV)
    else if hi < v then (if sat then hi else indef, flagNV)
    else (v, if (Dy.ofInt v).sub (if n then d.neg else d) |>.m |> (· == 0) then 0 else flagNX)

/-- Integer to float (R81). DESIGN CHOICE (log 68): integer 0 gives +0 in every mode; R73 refers the sign of an exact zero to
R75, which names no conversion. -/
def cvtFromInt (dst : Fmt) (mode : RMode) (sat : Bool) (v : Int) : Nat × Flags :=
  dst.round mode sat false ⟨v, 0⟩

/-- The integer an element holds under an integer format code (R71). -/
def intVal (code x : Nat) : Int :=
  let w := 8 * 2 ^ (code % 4)
  if 20 ≤ code then ((x % 2 ^ w : Nat) : Int) else sext w x

end Sys2Proof.Machine
end

