-- ==== Sys2Proof/Machine/Map.lean ====
section
/-! DEFINITION. Finite tables as sorted lists: `Tab` for numbered things, and the canonical byte map of
memory. -/

namespace Sys2Proof.Machine

/-- A table of numbered entries, by ascending number. -/
abbrev Tab (α : Type) := List (Nat × α)

/-- The entry at `k`, `d` where there is none. -/
def Tab.get {α : Type} (d : α) : Tab α → Nat → α
  | [], _ => d
  | (k, v) :: t, a => if a < k then d else if a = k then v else Tab.get d t a

/-- The table with `v` at `a`. -/
def Tab.put {α : Type} : Tab α → Nat → α → Tab α
  | [], a, v => [(a, v)]
  | (k, w) :: t, a, v =>
    if a < k then (a, v) :: (k, w) :: t
    else if a = k then (a, v) :: t
    else (k, w) :: Tab.put t a v

/-- Whether there is an entry at `a`. -/
def Tab.has {α : Type} (t : Tab α) (a : Nat) : Bool := t.any fun p => p.1 == a

/-- The table without entry `a`. -/
def Tab.del {α : Type} (t : Tab α) (a : Nat) : Tab α := t.filter fun p => p.1 != a

/-- The numbers that have entries. -/
def Tab.keys {α : Type} (t : Tab α) : List Nat := t.map Prod.fst

/-- Put a list of entries, the first first. -/
def Tab.puts {α : Type} (t : Tab α) (ps : List (Nat × α)) : Tab α :=
  ps.foldl (fun t p => t.put p.1 p.2) t

/-- The least number from 0 that has no entry. -/
def Tab.free {α : Type} (t : Tab α) : Nat :=
  t.foldl (fun n p => if p.1 == n then n + 1 else n) 0

/-- The bytes of home memory that differ from what an unlisted address reads as, by ascending address. -/
abbrev Memory := List Host.Cell

/-- What an unlisted address reads as (R410 gives home memory no contents after power-on; log 2). -/
def Memory.empty : Byte := 0#8

/-- The byte at `a`. -/
def Memory.get : Memory → Nat → Byte
  | [], _ => Memory.empty
  | (k, v) :: t, a => if a < k then Memory.empty else if a = k then v else Memory.get t a

/-- The memory with byte `v` at `a`, in canonical form. -/
def Memory.set : Memory → Nat → Byte → Memory
  | [], a, v => if v = Memory.empty then [] else [(a, v)]
  | (k, w) :: t, a, v =>
    if a < k then (if v = Memory.empty then (k, w) :: t else (a, v) :: (k, w) :: t)
    else if a = k then (if v = Memory.empty then t else (a, v) :: t)
    else (k, w) :: Memory.set t a v

/-- An address lies above the last one listed. -/
def above : Option Nat → Nat → Bool
  | none, _ => true
  | some l, k => decide (l < k)

/-- Addresses rise strictly from above `lo`, and no entry equals what an unlisted address reads as. -/
def Memory.wfFrom : Option Nat → Memory → Bool
  | _, [] => true
  | lo, (k, v) :: t =>
    above lo k && v != Memory.empty && Memory.wfFrom (some k) t

/-- The canonical form. -/
def Memory.wf (m : Memory) : Bool := Memory.wfFrom none m

/-- `n` bytes from `a`. -/
def Memory.read (m : Memory) (a : Nat) : Nat → List Byte
  | 0 => []
  | n + 1 => m.get a :: Memory.read m (a + 1) n

/-- Bytes written from `a` on. -/
def Memory.write (m : Memory) (a : Nat) : List Byte → Memory
  | [] => m
  | b :: t => Memory.write (m.set a b) (a + 1) t

/-- Insert an element after those that do not come later. -/
def insertBy {α : Type} (lt : α → α → Bool) (x : α) : List α → List α
  | [] => [x]
  | y :: t => if lt x y then x :: y :: t else y :: insertBy lt x t

/-- Sort, stably. -/
def sortBy {α : Type} (lt : α → α → Bool) (xs : List α) : List α := xs.foldl (fun t x => insertBy lt x t) []

end Sys2Proof.Machine
end

