-- ==== Sys2Proof/Machine/Names.lean ====
section
/-! DEFINITION. The names that an instruction's fields name, with their roles, classes and kill marks (R330,
R52, R13), and its guard and chain bit. -/

namespace Sys2Proof.Machine

/-- A name in an instruction: its role and class in the coding of R330, its number, its kill mark, and
whether the instruction reads it. -/
structure Operand where
  role : Nat
  cls  : Nat
  name : Nat
  kill : Bool
  read : Bool
  deriving DecidableEq, Repr

/-- The class code of a field of the ordinary layout (R330). -/
def fieldClass : Field → Option Nat
  | .lane => some 0
  | .unif => some 1
  | .scr => some 2
  | .bar => some 3
  | .conv => some 4
  | .acc => some 5
  | .res => some 6
  | _ => none

/-- One field of the ordinary layout. -/
def fieldOperand (role : Nat) (f : Field) (v : Nat) (kill read : Bool) : List Operand :=
  match fieldClass f with
  | some c => [⟨role, c, v, kill, read⟩]
  | none => []

/-- Instructions of the ordinary layout that read their destination (R118, R124, R126, R222). -/
def readsDst (op : Nat) (o : Ops) : Bool :=
  op == 0x051 || op == 0x053 || op == 0x055 || ((op == 0x104 || op == 0x105) && bits o.s2.toNat 3 0 == 7)

/-- Implied names: the 2r names that follow the base of SNEXT, SDONE and SGIVE (R187). -/
def impliedNames (op : Nat) (o : Ops) : List Operand :=
  let base := if op == 0x120 then o.dst.toNat else o.s0.toNat
  if op == 0x120 || op == 0x121 || op == 0x122 then
    (List.range (2 * bits o.s2.toNat 2 0)).map fun i => ⟨6, 1, base + 1 + i, false, op != 0x120⟩
  else []

/-- The names of an instruction in the ordinary layout. -/
def opsOperands (op : Nat) (o : Ops) : List Operand :=
  match rowOf op with
  | none => []
  | some r =>
    let sh := r.shape o
    fieldOperand 1 sh.dst o.dst.toNat false (readsDst op o) ++ fieldOperand 2 sh.s0 o.s0.toNat o.k0 true ++
      fieldOperand 3 sh.s1 o.s1.toNat o.k1 true ++ fieldOperand 4 sh.s2 o.s2.toNat o.k2 true ++
      impliedNames op o

/-- A copy command (R244): `idx` says that the command reads lane indices. -/
def copyOperands (e : CopyOps) (gather : Bool) : List Operand :=
  [⟨5, 2, e.buf.toNat, false, true⟩, ⟨5, 1, e.g.toNat, e.h.k0, true⟩, ⟨5, 1, e.tok.toNat, false, false⟩,
   ⟨5, 6, e.rt.toNat, false, true⟩] ++
    (if gather then [⟨5, 0, e.idx.toNat, e.h.k2, true⟩] else []) ++
    (if gather || e.h.mod == 1#3 then [⟨6, 1, e.g.toNat + 1, e.h.k1, true⟩] else [])

/-- A matrix command (R264). -/
def mmaOperands (e : MmaOps) : List Operand :=
  let str := bit e.h.mod.toNat 0
  [⟨5, 5, e.tl.toNat, false, true⟩, ⟨5, 2, e.ab.toNat, false, true⟩,
   ⟨5, if str then 1 else 2, e.bn.toNat, e.h.k0, true⟩, ⟨5, 4, e.cv.toNat, false, true⟩,
   ⟨5, 3, e.br.toNat, false, true⟩] ++ (if str then [⟨6, 1, e.bn.toNat + 1, e.h.k1, true⟩] else [])

/-- EPI (R276). -/
def epiOperands (e : EpiOps) : List Operand :=
  [⟨5, 2, e.db.toNat, false, true⟩, ⟨5, 5, e.tl.toNat, e.h.k0, true⟩, ⟨5, 1, e.cn.toNat, e.h.k1, true⟩,
   ⟨5, 2, e.vb.toNat, false, true⟩]

/-- A palp command (R289). -/
def palpOperands (e : PalpOps) : List Operand :=
  [⟨5, 2, e.pb.toNat, false, true⟩, ⟨5, 1, e.u.toNat, e.h.k0, true⟩, ⟨5, 1, e.t.toNat, false, false⟩,
   ⟨5, 2, e.rb.toNat, false, true⟩, ⟨6, 1, e.u.toNat + 1, e.h.k1, true⟩]

/-- COLL (R366). -/
def collOperands (e : CollOps) : List Operand :=
  [⟨5, 2, e.db.toNat, false, true⟩, ⟨5, 2, e.sb.toNat, false, true⟩, ⟨5, 1, e.cn.toNat, e.h.k0, true⟩,
   ⟨5, 1, e.t.toNat, false, false⟩, ⟨6, 1, e.cn.toNat + 1, false, true⟩, ⟨6, 1, e.cn.toNat + 2, false, true⟩]

/-- A uniform instruction in layout U. -/
def uOperands (u : UOps) (two : Bool) : List Operand :=
  [⟨1, 1, u.d.toNat, false, false⟩, ⟨2, 1, u.a.toNat, u.ka, true⟩] ++
    (if two then [⟨3, 1, u.b.toNat, u.kb, true⟩] else [])

/-- The names outside the ordinary layout. -/
def otherOperands : Instr → List Operand
  | .psetm p => [⟨2, 1, p.name.toNat, false, true⟩]
  | .saddSingleWord u => uOperands u true
  | .ssubSingleWord u => uOperands u true
  | .smulSingleWord u => uOperands u true
  | .smulhSingleWord u => uOperands u true
  | .sandSingleWord u => uOperands u true
  | .sorSingleWord u => uOperands u true
  | .sxorSingleWord u => uOperands u true
  | .sshlSingleWord u => uOperands u true
  | .sshrSingleWord u => uOperands u true
  | .ssarSingleWord u => uOperands u true
  | .sminSingleWord u => uOperands u true
  | .smaxSingleWord u => uOperands u true
  | .smovSingleWord u => uOperands u false
  | .scmpSingleWord k => [⟨2, 1, k.a.toNat, k.ka, true⟩] ++
      (if k.imm then [] else [⟨3, 1, k.b.toNat, false, true⟩])
  | .sliSingleWord _ d _ => [⟨1, 1, d.toNat, false, false⟩]
  | .slui _ d _ => [⟨1, 1, d.toNat, false, false⟩]
  | .saddi _ d _ => [⟨1, 1, d.toNat, false, true⟩]
  | .cpy e => copyOperands e false
  | .cpyx e => copyOperands e true
  | .cpyo e => copyOperands e false
  | .cpyc e => [⟨5, 1, e.tok.toNat, false, false⟩]
  | .mma e => mmaOperands e
  | .mmag e => mmaOperands e
  | .epi e => epiOperands e
  | .nmsel e => palpOperands e
  | .nmtopk e => palpOperands e
  | .nmscore e => palpOperands e
  | .nmassign e => palpOperands e
  | .nmattn e => palpOperands e
  | .coll e => collOperands e
  | _ => []

/-- The names of an instruction, in the order of R330. -/
def operands (i : Instr) : List Operand :=
  match opsOf i with
  | some (op, o) => opsOperands op o
  | none => otherOperands i

/-- The names in the fields of an engine layout. -/
def engineOperands (op : Nat) (h : EHead) (f : Nat) : List Operand :=
  match op with
  | 0x183 => [⟨5, 1, (copyFields h f).tok.toNat, false, false⟩]
  | 0x188 | 0x189 => mmaOperands (mmaFields h f)
  | 0x18C => epiOperands (epiFields h f)
  | 0x1A0 => collOperands (collFields h f)
  | _ => if op ≤ 0x182 then copyOperands (copyFields h f) (op == 0x181) else palpOperands (palpFields h f)

/-- A single word with the fields cleared that hold no name and that step 5 of R46 may refuse. -/
def mendWord (w : Nat) : Nat :=
  let clear (w hi lo : Nat) : Nat := w - bits w hi lo * 2 ^ lo
  match bits w 28 23 with
  | 0b001111 => clear (clear w 22 13) 5 0
  | 0b011100 => clear (clear w 21 21) 6 0
  | 0b011101 => clear w 19 14
  | 0b100010 => clear w 15 12
  | _ => w

/-- The names in the fields of an instruction whose opcode is assigned, though another field of it is refused (R46,
R330). -/
def looseOperands (p : Packet) : List Operand :=
  let w := p.word 0
  let n := lengthField w
  let op := bits w 28 20
  if !p.fits 0 then []
  else if n == 0 then
    match decodeSingle .limits (mendWord w) with
    | .ok i => operands i
    | .error _ => []
  else if isEngine op then
    if n == 1 then []
    else engineOperands op ⟨bit w 29, .always, bit w 14, bit w 13, bit w 12, BitVec.ofNat 3 (bits w 11 9)⟩
      (operandField w (p.word 1) (p.word 2))
  else match rowOf op, (if n == 1 then parseTwo (w - bits w 19 16 * 2 ^ 16) (p.word 1)
      else parseThree (w - bits w 19 15 * 2 ^ 15) (p.word 1) (p.word 2)) with
    | some r, some o => if r.wideOnly && n == 1 then [] else opsOperands op o
    | _, _ => []

/-- An instruction's guard. -/
def guardOfInstr (i : Instr) : Guard :=
  match opsOf i with
  | some (_, o) => o.guard
  | none =>
    match i with
    | .exit _ g => g
    | .ret _ g => g
    | .bra _ g _ _ _ => g
    | .call _ g _ _ => g
    | .pnot p | .pand p | .por p | .pxor p | .pdrop p | .pdup p | .pswap p | .psetm p => p.guard
    | .cpy e | .cpyx e | .cpyo e | .cpyc e => e.h.guard
    | .mma e | .mmag e => e.h.guard
    | .epi e => e.h.guard
    | .nmsel e | .nmtopk e | .nmscore e | .nmassign e | .nmattn e => e.h.guard
    | .coll e => e.h.guard
    | _ => .always

/-- An instruction's chain bit (R47). -/
def chainOf (i : Instr) : Bool :=
  match encode i with
  | w :: _ => bit w.toNat 29
  | [] => false

/-! ## Pipes (R47, R50, R58, R145) -/

/-- The pipes; `none`: NOP. -/
inductive Pipe where
  | none
  | v
  | s
  | u
  | p
  | w
  | m
  | e
  | b
  | y
  deriving DecidableEq, Repr

/-- The pipe of an opcode of the two-word format (R58). -/
def pipeOfOp (op : Nat) : Pipe :=
  if op == 0x054 || (decide (0x047 ≤ op) && decide (op ≤ 0x04D)) then .s
  else if op < 0x0C0 then .v
  else if op < 0x0E0 then .u
  else if op < 0x0F0 then .b
  else if op < 0x100 then .w
  else if op < 0x180 then .m
  else if op < 0x1C0 then .e
  else .y

/-- An instruction's pipe (R50, R58). -/
def pipeOf (i : Instr) : Pipe :=
  match opsOf i with
  | some (op, _) => pipeOfOp op
  | none =>
    match i with
    | .nop => .none
    | .exit _ _ | .yield _ | .ret _ _ | .bra _ _ _ _ _ | .call _ _ _ _ | .jmp _ _ _ => .b
    | .pnot _ | .pand _ | .por _ | .pxor _ | .pdrop _ | .pdup _ | .pswap _ | .psetm _ => .p
    | .cpy _ | .cpyx _ | .cpyo _ | .cpyc _ | .mma _ | .mmag _ | .epi _ | .nmsel _ | .nmtopk _ | .nmscore _
    | .nmassign _ | .nmattn _ | .coll _ => .e
    | _ => .u

/-- An instruction may write the predicate stack. -/
def writesPreds (i : Instr) : Bool :=
  pipeOf i == .p ||
    match i with
    | .vcmp _ | .vcmpImmediate _ | .vfcmp _ | .scmp _ | .scmpImmediate _ | .scmpSingleWord _ | .vote _ => true
    | _ => false

/-- An instruction may read the predicate stack: its guard, its operand, or entries that it moves. -/
def readsPreds (i : Instr) : Bool :=
  pipeOf i == .p || guardOfInstr i != .always ||
    match i with
    | .vsel _ | .vote _ => true
    | _ => false

/-- A member of a chained group must issue after an earlier member's cycle (R47): it needs a name or predicate
depth that the earlier member writes. -/
def dependsOn (later earlier : Instr) : Bool :=
  (writesPreds earlier && readsPreds later) ||
    (operands earlier).any fun p => (p.role == 1 || !p.read) &&
      (operands later).any fun q => q.read && q.cls == p.cls && q.name == p.name

end Sys2Proof.Machine
end

