-- ==== Sys2Proof/Machine/State.lean ====
section
/-! DEFINITION. The machine's state: plain data holding everything the manual gives the machine. -/

namespace Sys2Proof.Machine

/-! ## Threads -/

/-- Why a lane's lane set is not ready (R143, R158, R320): it keeps its PC until the cause is over. -/
inductive Wait where
  | none
  /-- A source is a long-latency result in flight (R28), or CR.FFLAGS has contributions in flight (R83). -/
  | score
  | barrier (b : Nat)
  | snext
  | xmov (send : Bool) (slot : Nat)
  /-- Members of a wave operation, or the lanes of a whole-wave instruction, are elsewhere. -/
  | members (mask : BitVec 64)
  /-- Held at a MOLT that issued in this cycle (R193, R195). -/
  | molt (handle : BitVec 64) (since : Nat)
  | sysc
  | ckpt
  /-- The wave has already signed the open epoch of this convergence register (R178). -/
  | epoch (c : Nat)
  | fifo
  | limit
  /-- Parked on translation faults (R213): each faulting lane's address; `entry`: it holds a fault-buffer
  entry. -/
  | parked (addrs : List (Nat × Nat)) (entry : Bool)
  | halt
  | clsend
  /-- Earlier accesses of the wave are not yet performed (R225, R228, R229, R356). -/
  | access
  /-- A TLBI has issued in this cycle (R354): accesses to these pages, by base and size, that were translated before
  are not yet performed. -/
  | tlbi (pages : List (Nat × Nat)) (since : Nat)
  /-- The page that the lane set was parked on has been serviced (R215): its place in the core's order. -/
  | replay (order : Nat)
  /-- A MOLT of the wave that issued earlier is not yet performed (R184). -/
  | order
  /-- A CRR of CR.FFLAGS has issued (R83): what it returns, and how many of the wave's results in flight it still
  waits for. -/
  | flags (v : BitVec 5) (left : Nat)
  /-- What the lane set was held for has happened while its wave was in trap mode (R324): it goes on after. -/
  | ended
  /-- Halted at a BRK under a debugger (R350): the lane goes on at the next instruction when it is resumed. -/
  | brk
  deriving DecidableEq, Repr

/-- An open lookahead window (R44): in the window, reads of the name return `old`, once it is known: `due` is the
remote access (twice its number) or the engine operation (twice its number, plus one) that will give it; the bits of
`blur` are undefined (R10). -/
structure Window where
  uniform : Bool
  name    : Nat
  old     : BitVec 64
  left    : Nat
  due     : Option Nat
  blur    : BitVec 64
  deriving DecidableEq, Repr

/-- A thread (R17) with the marks of R147 and R148, its wait, its windows, the names whose value a kill
mark has ended (R52), and those that it has written, the latest first (R330). -/
structure Lane where
  pc      : BitVec 64
  depth   : Nat
  preds   : BitVec 8
  count   : Nat
  epc     : BitVec 64
  exited  : Bool
  wait    : Wait
  passed  : Nat
  held    : Bool
  /-- A YIELD gave up the lane set's next opportunity (R107). -/
  rest    : Bool
  /-- The last instruction issued was chained to the next (R47): no rebind stops the lane here (R319). -/
  chain   : Bool
  names   : Tab (BitVec 64)
  dead    : List Nat
  recent  : List Nat
  windows : List Window
  /-- The packet that the thread is within, as it fetched it, by its virtual address (R41). -/
  code    : Option (BitVec 64 × Packet)
  deriving DecidableEq, Repr

/-- A lane that no wave has: exited. -/
def Lane.absent : Lane :=
  { pc := 0, depth := 0, preds := 0, count := 0, epc := 0, exited := true, wait := .none, passed := 0,
    held := false, rest := false, chain := false, names := [], dead := [], recent := [], windows := [], code := .none }

/-! ## Waves -/

/-- A long-latency result in flight (R43): the destination name, the value of each lane (a uniform name has
one value, at lane 0), the lanes of the issue, the flags to contribute on arrival (R83, R114), the remote
access whose response it waits for (R363), and, of a load, the memory it comes from as CR.ERRS codes it: 3 scratch, 4
global (R332). -/
structure Flight where
  uniform : Bool
  name    : Nat
  vals    : List (Nat × BitVec 64)
  lanes   : List Nat
  flags   : BitVec 5
  remote  : Option Nat
  src     : Nat
  deriving DecidableEq, Repr

/-- The kinds of engine operation that write a token (R43). -/
inductive EngineKind where
  | copy
  | palp
  | coll
  deriving DecidableEq, Repr

/-- A token in flight: the uniform name, and the operation that will write it (R28, R320). -/
structure Token where
  name : Nat
  kind : EngineKind
  op   : Nat
  deriving DecidableEq, Repr

/-- Values in a wave's forwarding window (R333): a name, the lanes whose values were written, and the number of the
instruction, by the wave's count, that wrote them. -/
structure Forward where
  cls   : Nat
  name  : Nat
  lanes : List Nat
  at_   : Nat
  deriving DecidableEq, Repr

/-- A trap raised and not yet delivered (R323, R324). -/
structure Trap where
  cause : Nat
  addr  : BitVec 64
  lane  : Nat
  lanes : List Nat
  pc    : BitVec 64
  iex   : Bool
  deriving DecidableEq, Repr

/-- A SYSC awaiting its reply (R352): its lane set, the value of a, the service number, and its own number. -/
structure Call where
  pc    : BitVec 64
  lanes : List Nat
  arg   : BitVec 64
  num   : Nat
  id    : Nat
  deriving DecidableEq, Repr

/-- A wave: its place, its names and control registers (R27, R32-R35), its barrier wait-phase bits (R172),
its view (R234) as the order stamp up to which it sees each byte, and its work in flight. -/
structure Wave where
  used    : Bool
  block   : Nat
  index   : Nat
  slot    : Nat
  width   : Nat
  control : Option Nat
  lanes   : Tab Lane
  unif    : Tab (BitVec 64)
  udead   : List Nat
  /-- The uniform names written, the latest first (R330). -/
  urecent : List Nat
  /-- Bits of uniform names that hold undefined values (R10). -/
  uvague  : Tab (BitVec 64)
  /-- Instructions that the wave has issued, and the values of the last eight in its forwarding window. -/
  issued  : Nat
  fwd     : List Forward
  part    : Nat
  fflags  : BitVec 5
  rmode   : BitVec 2
  mmw     : Nat
  mmerr   : BitVec 64
  errs    : BitVec 64
  instar  : BitVec 32
  trapm   : Bool
  single  : Bool
  /-- Halted by a step trap or by the debugger, alone of its gang (R389). -/
  stopped : Bool
  trapc   : BitVec 16
  trapa   : BitVec 64
  handler : List Nat
  flights : List Flight
  tokens  : List Token
  phases  : Tab Bool
  /-- The phase bit that the barrier took when the phase that the wave waits for was complete, as the wave has seen it,
  before it passes (R175). -/
  flipped : Option Bool
  view    : Tab Nat
  /-- Publications that happen before the wave's next instruction; those that a reader of its atomic writes learns of;
  those that it has learnt of by reads since its last acquire (R237, R238). -/
  known   : List Nat
  told    : List Nat
  heard   : List Nat
  since   : Nat
  retired : Bool
  pend    : Option Trap
  /-- Traps of held lane sets that were raised while another waited (R193): delivered outside trap mode, the first first. -/
  later   : List Trap
  service : List Call
  /-- The writes that the wave's code shows for certain: those of its last FENCEI, or of its start (R41). -/
  code    : Tab Nat
  /-- Dirty granules of lane names (R341): the name and the granule within it. -/
  dirty   : List (Nat × Nat)
  deriving DecidableEq, Repr

/-- No wave. -/
def Wave.absent : Wave :=
  { used := false, block := 0, index := 0, slot := 0, width := 16, control := none, lanes := [], unif := [],
    udead := [], urecent := [], uvague := [], issued := 0, fwd := [], part := 16, fflags := 0, rmode := 0, mmw := 48, mmerr := 0, errs := 0, instar := 0,
    trapm := false, single := false, stopped := false, trapc := 0, trapa := 0, handler := [], flights := [], tokens := [],
    phases := [], flipped := none, view := [], known := [], told := [], heard := [], since := 0, retired := true, pend := none, later := [], service := [], code := [], dirty := [] }

/-! ## Blocks -/

/-- An instance of a scratch buffer (R204): the bytes written so far, the bytes that lane stores wrote
without a later FOPND, each with the wave that wrote it (R229), and the dirty granules (R341). -/
structure Scratch where
  bytes    : Tab Byte
  unfenced : Tab Nat
  dirty    : List Nat
  deriving DecidableEq, Repr

/-- An instance nobody has written. -/
def Scratch.fresh : Scratch := { bytes := [], unfenced := [], dirty := [] }

/-- A barrier (R172): arrivals counted and the phase bit. -/
structure Barrier where
  count : Nat
  phase : Bool
  deriving DecidableEq, Repr

/-- A barrier at placement (R141). -/
def Barrier.start : Barrier := { count := 0, phase := false }

/-- A convergence register's open epoch (R177): the signatures counted, the waves that signed, and the
number of the matrix operation recorded. -/
structure Conv where
  count  : Nat
  signed : List Nat
  op     : Option Nat
  /-- Scratch bytes that the signers' stores wrote without a later FOPND (R229). -/
  stale  : List Nat
  deriving DecidableEq, Repr

/-- An empty epoch. -/
def Conv.empty : Conv := { count := 0, signed := [], op := .none, stale := [] }

/-- A transfer slot's deposit (R168): width in bits and the valid lanes' values. -/
structure Deposit where
  width : Nat
  vals  : List (Nat × BitVec 64)
  deriving DecidableEq, Repr

/-- The special state of an accumulator element (R271). -/
inductive Spec where
  | finite
  | pinf
  | ninf
  | nan
  deriving DecidableEq, Repr

/-- An accumulator element (R271): the 48-bit signed mantissa, LOSS and SPEC. -/
structure AccElem where
  mant : Int
  loss : Bool
  spec : Spec
  deriving DecidableEq, Repr

/-- An element after ACCZ. -/
def AccElem.zero : AccElem := { mant := 0, loss := false, spec := .finite }

/-- An accumulator tile (R271, R272): the elements that differ from zero by 64 × row + column, the exponent
E (none: unset) and the count RC; `undefs` lists the elements that hold undefined values (R242, R274), `blur` says
that E and RC are undefined too, after a kill mark (R52); `dirty` the dirty granules (R341). -/
structure AccTile where
  elems : Tab AccElem
  exp   : Option Int
  rc    : Nat
  undefs : List Nat
  blur   : Bool
  dirty  : List Nat
  deriving DecidableEq, Repr

/-- A tile after ACCZ (R274). -/
def AccTile.zero : AccTile := { elems := [], exp := .none, rc := 0, undefs := [], blur := false, dirty := [] }

/-- A block's share (R314), and where its scratch, spill and HBM spill areas lie (R316). -/
abbrev Share := ShareSpec

/-- A block: its gang and core, the waves, its stack base (R22), its share and binding table (R317, keyed by
class and number), and its instances of block scope. -/
structure Block where
  used    : Bool
  gang    : Nat
  index   : Nat
  core    : Nat
  waves   : List Nat
  sb      : BitVec 64
  share   : Share
  places  : Tab (BitVec 64)
  scratch : Tab Scratch
  bars    : Tab Barrier
  convs   : Tab Conv
  slots   : Tab Deposit
  tiles   : Tab AccTile
  /-- The tiles written, the latest first (R330). -/
  trecent : List Nat
  ended   : Bool
  /-- The share changes that wait for rebinds of the block, oldest first (R314, R319, R323). -/
  rebind  : List Share
  /-- Pinned names bound outside the reduced share, by class and number (R321). -/
  excess : List (Nat × Nat)
  deriving DecidableEq, Repr

/-- No block. -/
def Block.absent : Block :=
  { used := false, gang := 0, index := 0, core := 0, waves := [], sb := 0,
    share := ⟨0, 0, 0, 0, 0, 0, 0, 0, 0, 0⟩, places := [], scratch := [], bars := [], convs := [], slots := [],
    tiles := [], trecent := [], ended := true, rebind := [], excess := [] }

/-! ## Gangs -/

/-- A grant (R185, R186, R343): its rectangle in cells by dimension, lowest cell and extent; the cells handed
back from it; the instar that formed it. -/
structure Grant where
  lo     : List Nat
  ext    : List Nat
  handed : List Nat
  instar : Nat
  deriving DecidableEq, Repr

/-- No grant. -/
def Grant.none : Grant := { lo := [], ext := [], handed := [], instar := 0 }

/-- What a gang is doing about pre-emption (R334-R339). -/
inductive Preempt where
  | none
  /-- A request waits for a rebind or a checkpoint to end (R334). -/
  | asked
  | draining
  | discarding
  | saving
  | saved
  deriving DecidableEq, Repr

/-- A gang: its launch and index, its cluster and first core (R138), its blocks, grants (R186), instances of
gang scope, progress counters (R335; CY is `cy` and the cycles since `since`), and its halts. -/
structure Gang where
  used    : Bool
  launch  : Nat
  index   : Nat
  cluster : Nat
  c0      : Nat
  placed  : Bool
  blocks  : List Nat
  grants  : Tab Grant
  scratch : Tab Scratch
  bars    : Tab Barrier
  convs   : Tab Conv
  ir      : Nat
  cy      : Nat
  since   : Nat
  cd      : Nat
  coll    : Bool
  preempt : Preempt
  /-- The standing request (R334): the cycle of its arrival, the cycle of its deadline, the actions allowed. -/
  arrived : Nat
  due     : Nat
  allow   : BitVec 3
  halted  : Bool
  /-- The fault records whose signal waits for the executive, oldest first (R325). -/
  record  : List (BitVec 64)
  seq     : Nat
  base    : BitVec 64
  retired : Bool
  /-- The base of its stack regions while they are mapped (R22): from its placement to its end or discard. -/
  stack   : Option Nat
  deriving DecidableEq, Repr

/-- No gang. -/
def Gang.absent : Gang :=
  { used := false, launch := 0, index := 0, cluster := 0, c0 := 0, placed := false, blocks := [], grants := [],
    scratch := [], bars := [], convs := [], ir := 0, cy := 0, since := 0, cd := 0, coll := false,
    preempt := .none, arrived := 0, due := 0, allow := 0, halted := false, record := [], seq := 0, base := 0, retired := true, stack := .none }

/-! ## Launches and kernels -/

/-- A name-table entry with its lifetime intervals (R315, R399, R400). -/
structure NameInfo where
  cls    : Nat
  name   : Nat
  param  : Bool
  gang   : Bool
  pk     : Nat
  type   : Nat
  weight : Nat
  size   : Nat
  live   : List (Nat × Nat)
  deriving DecidableEq, Repr

/-- A kernel as its descriptor and tables give it (R398-R400), resource entries included as eight words
each (R93, R394). -/
structure Kernel where
  desc    : Nat
  entry   : BitVec 64
  trap    : BitVec 64
  width   : Nat
  waves   : Nat
  depth   : Nat
  decl    : Declared
  params  : List Nat
  names   : List NameInfo
  res     : List (List (BitVec 64))
  /-- Debug names (R401): class, number and string. -/
  dbg     : List (Nat × Nat × List Byte)
  deriving DecidableEq, Repr

/-- No kernel. A control core has this one: DESIGN CHOICE (log 12), its call depth limit L is 1 and its stack base 0. -/
def Kernel.none : Kernel :=
  { desc := 0, entry := 0, trap := 0, width := 16, waves := 1, depth := 1, decl := ⟨0, 0, 0, 0, 0, 0, 0⟩,
    params := [], names := [], res := [], dbg := [] }

/-- A watchpoint of a launch (R390): slot, range and kind. -/
structure Watch where
  slot  : Nat
  base  : Nat
  len   : Nat
  read  : Bool
  write : Bool
  deriving DecidableEq, Repr

/-- A launch (R378): who submitted it, its kernel and argument words, its gang count, its schedule block
committed and shadow (R180, R192), its flags (R377), fault ring (R329), watchpoints (R390), time record
(R388) and completion. -/
structure Launch where
  used     : Bool
  id       : Nat
  queue    : Nat
  ctx      : Nat
  pid      : Nat
  tid      : Nat
  kernel   : Kernel
  args     : List (BitVec 64)
  count    : Nat
  gangs    : List Nat
  sched    : List (BitVec 64)
  shadow   : List (BitVec 64)
  dbg      : Bool
  tun      : Bool
  swp      : Bool
  int      : Bool
  /-- The processes that have attached a debugger (R384). -/
  debuggers : List Nat
  /-- The fault ring: its physical address, and its address in the process, mapped to be read (R329). -/
  ring     : Nat
  ringVa   : Nat
  records  : Nat
  watches  : List Watch
  packet   : Nat
  time     : BitVec 64
  signal   : BitVec 64
  sigval   : BitVec 64
  t0       : Nat
  spent    : List Nat
  status   : Nat
  ended    : Bool
  /-- The map pages' permissions were made read-only for the launch (R183). -/
  guarded  : Bool
  /-- Writes of the launch that its end publishes (R378). -/
  view     : Tab Nat
  /-- The cluster of its home leaf controller (R184). -/
  home     : Nat
  /-- Publications that happen before its start, through WAIT and SIGNAL, and those that happen before its end (R238). -/
  before   : List Nat
  known    : List Nat
  deriving DecidableEq, Repr

/-- No launch. -/
def Launch.absent : Launch :=
  { used := false, id := 0, queue := 0, ctx := 0, pid := 0, tid := 0, kernel := .none, args := [], count := 0,
    gangs := [], sched := [], shadow := [], dbg := false, tun := false, swp := false, int := false,
    debuggers := [], ring := 0, ringVa := 0, records := 0, watches := [], packet := 0, time := 0, signal := 0,
    sigval := 0, t0 := 0, spent := [], status := 0, ended := true, guarded := false, view := [], home := 0, before := [], known := [] }

/-! ## Engine operations -/

/-- A copy in flight (R246), its operands fixed at issue: `kind` 0 CPY, 1 CPYX, 2 CPYO; the global address,
the control word, the resource entry, the buffer, and each active lane's index; F, the rows written in
full (R257); a page it waits for, and whether it has a fault-buffer entry; a cancellation in force; what its token will
report (R250), with the marked words that it has met; and the bytes of home memory it wrote, with their stamps (R241).
A marked word of scratch is named by its instance and offset, above 2^64. -/
structure CopyOp where
  wave   : Nat
  block  : Nat
  pc     : BitVec 64
  lanes  : List Nat
  kind   : Nat
  addr   : Nat
  ctl    : BitVec 64
  entry  : List (BitVec 64)
  buf    : Nat
  idx    : List (Nat × Nat)
  token  : Nat
  order  : Nat
  rows   : Nat
  parked : Option Nat
  held   : Bool
  cancel : Bool
  xv     : Bool
  xi     : Bool
  bad    : List Nat
  /-- Bytes of its buffer that it may not rely on (R229). -/
  stale  : List Nat
  writes : Tab Nat
  hits   : List Nat
  /-- Publications that happen before its issue (R238). -/
  told   : List Nat
  /-- A device to which no route remains, and since when the copy waits for one; the devices given up (R365). -/
  away   : Option (Nat × Nat)
  gone   : List Nat
  deriving DecidableEq, Repr

/-- No copy. -/
def CopyOp.absent : CopyOp :=
  { wave := 0, block := 0, pc := 0, lanes := [], kind := 0, addr := 0, ctl := 0, entry := [], buf := 0,
    idx := [], token := 0, order := 0, rows := 0, parked := .none, held := false, cancel := false,
    xv := false, xi := false, bad := [], stale := [], writes := [], hits := [], told := [], away := none, gone := [] }

/-- One core's part of a matrix operation (R281): the block, G (R282), the page it waits for, and whether that has a
fault-buffer entry; whether ACCZ zeroed its tile under it (R274); once the operation is complete, the barrier phase that its arrival counts in
(R242). -/
structure MatPart where
  block  : Nat
  steps  : Nat
  parked : Option Nat
  zeroed : Bool
  phase  : Bool
  held   : Bool
  deriving DecidableEq, Repr

/-- A matrix operation recorded or posted (R266), its operands fixed at issue: W, g and its stride; its
posting place; refused 64 KiB pages of streamed B (R283); bytes written under it (R242). Once complete, a
part stays until a wave passes the wait for its arrival. -/
structure MatOp where
  wave    : Nat
  gang    : Nat
  pc      : BitVec 64
  lanes   : List Nat
  ganged  : Bool
  ops     : MmaOps
  window  : Nat
  g       : BitVec 64
  stride  : BitVec 64
  posted  : Option Nat
  parts   : List MatPart
  refused : List Nat
  /-- Operand bytes that it may not rely on (R229). -/
  stale   : List Nat
  dirty   : List (Nat × Nat)
  complete : Bool
  hits    : List Nat
  told    : List Nat
  away    : Option (Nat × Nat)
  gone    : List Nat
  deriving DecidableEq, Repr

/-- No matrix operation. -/
def MatOp.absent : MatOp :=
  { wave := 0, gang := 0, pc := 0, lanes := [], ganged := false,
    ops := ⟨⟨false, .always, false, false, false, 0⟩, 0, 0, 0, 0, 0, 0, 0, 0, 0, 0, 0⟩, window := 48, g := 0,
    stride := 0, posted := .none, parts := [], refused := [], stale := [], dirty := [], complete := false,
    hits := [], told := [], away := none, gone := [] }

/-- A palp command in flight (R295), its operands fixed at issue: `kind` 0 NMSEL, 1 NMTOPK, 2 NMSCORE,
3 NMASSIGN, 4 NMATTN; the name U; the data address, the control word, the parameter block and tables as read at issue,
the result buffer. Its progress (R295): the reads finished, by their place in data order, with the domain and the bytes read; the pages
that its parts are held for, and how many of those have a fault-buffer entry; the marked words met; a refusal, by the
page that was refused. -/
structure PalpOp where
  wave   : Nat
  block  : Nat
  pc     : BitVec 64
  lanes  : List Nat
  kind   : Nat
  name   : Nat
  addr   : Nat
  ctl    : BitVec 64
  par    : List Byte
  buf    : Nat
  token  : Nat
  order  : Nat
  got    : Tab (Nat × List Byte)
  parked : List Nat
  held   : Nat
  bad    : List Nat
  refused : List (Nat × Nat)
  writes : Tab Nat
  hits   : List Nat
  told   : List Nat
  deriving DecidableEq, Repr

/-- No palp command. -/
def PalpOp.absent : PalpOp :=
  { wave := 0, block := 0, pc := 0, lanes := [], kind := 0, name := 0, addr := 0, ctl := 0, par := [], buf := 0,
    token := 0, order := 0, got := [], parked := [], held := 0, bad := [], refused := [], writes := [], hits := [], told := [] }

/-- A COLL in flight (R370), its operands fixed at issue; its number on the handle (R369) and its captured
source. -/
structure CollOp where
  wave   : Nat
  block  : Nat
  pc     : BitVec 64
  lanes  : List Nat
  op     : Nat
  handle : BitVec 64
  ctl    : BitVec 64
  n      : Nat
  dbuf   : Nat
  sbuf   : Nat
  token  : Nat
  order  : Nat
  seq    : Nat
  src    : Option (List Byte)
  /-- Bytes of its source that it may not rely on (R229). -/
  stale  : List Nat
  err    : Nat
  se     : Nat
  hits   : List Nat
  told   : List Nat
  deriving DecidableEq, Repr

/-- No COLL. -/
def CollOp.absent : CollOp :=
  { wave := 0, block := 0, pc := 0, lanes := [], op := 0, handle := 0, ctl := 0, n := 0, dbuf := 0, sbuf := 0,
    token := 0, order := 0, seq := 0, src := .none, stale := [], err := 0, se := 0, hits := [], told := [] }

/-- An engine's access has hit a watchpoint, which is to be reported (R390): the operation, the watchpoint's slot and the
address; the wave, the PC and the lanes of its issue; whether the wave had retired. -/
structure EngineHit where
  engine : EngineRef
  slot   : Nat
  addr   : BitVec 64
  wave   : Nat
  pc     : BitVec 64
  lanes  : List Nat
  iex    : Bool
  deriving DecidableEq, Repr

/-! ## The issue in progress -/

/-- A lane set that has been granted issue in a core's cycle (R144, R146): its wave and lanes, and how many chained
members may follow its instruction in the cycle (R47). -/
structure Turn where
  wave  : Nat
  lanes : List Nat
  left  : Nat
  deriving DecidableEq, Repr

/-- What a turn's instructions have done to CR.ERRS (R332): words read as zero, by source, class and name, or bits
cleared. -/
inductive ErrNote where
  | read (src cls name n : Nat)
  | clear (bits : BitVec 64)
  deriving DecidableEq, Repr

/-- The lane set whose instruction issues next: its turn, and, once its packet is fetched, its PC, the PC after
the instruction (R19), its lookahead count (R42) and words (R329). `later` holds the turns of the cycle that
follow, in order; `late` says that another instruction of the cycle has issued, and `before`, `blocks` and `gangs`
hold the granted waves, their blocks and their gangs as they stood before the cycle (R150). `pipes` are the pipes that
the turn's earlier members have used in the cycle, `mine` the flags that they raised and `notes` what they did to
CR.ERRS. Of the wave's instructions
in the cycle: the flags raised (R83), whether one has trapped (R151), and the lanes that a step trap is due to
(R389). -/
structure Issue where
  granted : Bool
  wave    : Nat
  lanes   : List Nat
  pc      : BitVec 64
  next    : BitVec 64
  look    : Nat
  words   : List (BitVec 32)
  left    : Nat
  later   : List Turn
  late    : Bool
  before  : Tab Wave
  blocks  : Tab Block
  gangs   : Tab Gang
  pipes   : List Pipe
  mine    : BitVec 5
  notes   : List ErrNote
  raised  : BitVec 5
  trapped : Bool
  stepped : List Nat
  deriving DecidableEq, Repr

/-- No grant. -/
def Issue.none : Issue :=
  { granted := false, wave := 0, lanes := [], pc := 0, next := 0, look := 0, words := [], left := 0,
    later := [], late := false, before := [], blocks := [], gangs := [], pipes := [], mine := 0, notes := [], raised := 0, trapped := false, stepped := [] }

/-- The turn of a lane set of wave `k`, alone in its cycle. -/
def Issue.of (k : Nat) (ls : List Nat) : Issue := { Issue.none with granted := true, wave := k, lanes := ls }

/-! ## The device -/

/-- A translation that a cluster's TLBs hold (R212): context, cluster, page base, log2 of the page size, and the leaf entry. -/
structure TlbEntry where
  ctx  : Nat
  cluster : Nat
  base : Nat
  size : Nat
  leaf : BitVec 64
  deriving DecidableEq, Repr

/-- A context (R208, R374): its root table, the process that owns it, and the page ranges in use. -/
structure Context where
  root : Nat
  pid  : Nat
  used : List (Nat × Nat)
  deriving DecidableEq, Repr

/-- No context. -/
def Context.absent : Context := { root := 0, pid := 0, used := [] }

/-- A publication of writes to pages with non-atomic propagation (R237): its number, its scope, the block and the gang
that made it, and the writes by their order stamps. -/
structure Pub where
  id    : Nat
  scope : Nat
  block : Nat
  gang  : Nat
  bytes : Tab Nat
  deriving DecidableEq, Repr

/-- A vault-cache line that holds atomics (R224): the context that has it (R205), its bytes by offset, the offsets
written, the order stamp of the write that each byte holds, and the stamps of its atomics' writes, which are not home. -/
structure VLine where
  ctx     : Nat
  cluster : Nat
  line    : Nat
  bytes   : Tab Byte
  dirty   : List Nat
  stamps  : Tab Nat
  own     : List Nat
  deriving DecidableEq, Repr

/-- An access issued in a cycle and not yet performed (R228, R230): `kind` 0 a CFLUSH write-back of the line at `addr`, 4 one
from an L1 only;
1 a store or value-less atomic to global memory at `addr`; 2 a write of scratch buffer `addr`; 3 a write by EPI or TMERGE of scratch buffer `addr`. -/
structure Access where
  wave : Nat
  kind : Nat
  addr : Nat
  since : Nat
  deriving DecidableEq, Repr

/-- A message on a command link (R375). -/
inductive LinkMsg where
  | raw (bytes : List Byte)
  | faultNotice (ctx : Nat) (va : BitVec 64)
  | gangRetired (gang : Nat)
  | preemptReport (report : List (BitVec 64))
  | faultRecord (launch : Nat)
  /-- Claim-order traffic of a launch's home (R184, R375). -/
  | claims (launch : Nat)
  /-- What the scheduler asks of a leaf controller: to place or restore a gang, to change a share, to pre-empt, to end a
  launch, to resume. -/
  | order (what : Instr)
  deriving DecidableEq, Repr

/-- A command link (R375): the two inboxes, oldest first, the send permits of each direction, and the messages that wait
for one. -/
structure CmdLink where
  down        : List LinkMsg
  up          : List LinkMsg
  downPermits : Nat
  upPermits   : Nat
  downHeld    : List LinkMsg
  upHeld      : List LinkMsg
  deriving DecidableEq, Repr

/-- A link at reset: 16 permits each way. -/
def CmdLink.start : CmdLink := { down := [], up := [], downPermits := 16, upPermits := 16, downHeld := [], upHeld := [] }

/-- A control core (R373, R374): its wave and its privileged registers; `armed` since a write of CR.TIMER
until it expires. -/
structure CtlCore where
  wave  : Nat
  ctx   : BitVec 16
  root  : BitVec 64
  event : BitVec 5
  timer : BitVec 64
  armed : Bool
  deriving DecidableEq, Repr

/-- A control core at reset (R374). -/
def CtlCore.start : CtlCore := { wave := 0, ctx := 0, root := 0, event := 0, timer := 0, armed := false }

/-- A message that a link has yet to send (R361): its virtual channel, its kind, the bytes left, and whether a flit of it
has been sent. -/
structure Outgoing where
  vc    : Nat
  kind  : Nat
  bytes : List Byte
  begun : Bool
  deriving DecidableEq, Repr

/-- A Ghedy link (R361, R362): the SEQ of the next flit sent and the SEQ expected; the flits sent and not
acknowledged, oldest first; the messages that have yet to be sent; consecutive replays of the
oldest; whether it trains; whether flits are being discarded until the expected SEQ comes; the last link-control flit
sent; the last response sent, as the request's number and its data (R363). -/
structure GLink where
  next     : BitVec 8
  expect   : BitVec 8
  replay   : List (BitVec 256)
  backlog  : List Outgoing
  replays  : Nat
  training : Bool
  dropping : Bool
  control  : Option (BitVec 256)
  answer   : Option (Nat × BitVec 64)
  deriving DecidableEq, Repr

/-- A link at reset. -/
def GLink.start : GLink :=
  { next := 0, expect := 0, replay := [], backlog := [], replays := 0, training := false, dropping := false,
    control := .none, answer := .none }

/-- What a remote access asks of its home device (R363): an atomic with its operation, whether it is unsigned, and its
operands. -/
inductive RemoteOp where
  | load
  | store (data : List Byte)
  | atomic (op : Nat) (uns : Bool) (b c : Nat)
  deriving DecidableEq, Repr

/-- A remote access outstanding (R363-R365): its issuer, or the engine operation of it that makes the access; what it
asks; where its response goes; the scope of the acquire that follows it (R225); the cycle of its issue. -/
structure Remote where
  wave  : Nat
  lane  : Nat
  name  : Nat
  link  : Nat
  dev   : Nat
  lpa   : Nat
  size  : Nat
  sign  : Bool
  ask   : RemoteOp
  unit  : Bool
  acq   : Option Nat
  since : Nat
  deriving DecidableEq, Repr

/-- A packet accepted by the scheduler (R377): its address and words, when it was submitted, and how far it
is. -/
structure Packet64 where
  addr    : Nat
  words   : List (BitVec 64)
  t0      : Nat
  started : Bool
  done    : Bool
  launch  : Option Nat
  deriving DecidableEq, Repr

/-- A queue with the executive's own copy of its descriptor (R382). -/
structure Queue where
  used    : Bool
  desc    : Nat
  ctx     : Nat
  pid     : Nat
  base    : Nat
  log2n   : Nat
  vector  : Nat
  state   : Nat
  widx    : Nat
  ridx    : Nat
  lastid  : Nat
  sigring : Nat
  sigidx  : Nat
  window  : Nat
  packets : List Packet64
  /-- The write indexes received and when (R388). -/
  bells   : List (Nat × Nat)
  closing : Bool
  /-- Publications that happen before the passing of its WAITs (R238). -/
  known   : List Nat
  deriving DecidableEq, Repr

/-- No queue. -/
def Queue.absent : Queue :=
  { used := false, desc := 0, ctx := 0, pid := 0, base := 0, log2n := 4, vector := 0xFFFF, state := 2,
    widx := 0, ridx := 0, lastid := 0, sigring := 0, sigidx := 0, window := 0, packets := [], bells := [], closing := false, known := [] }

/-- An executive request being served (R383): where it came from, its block's address and words, and the call that
awaits its reply. -/
structure Request where
  src   : RequestSource
  addr  : Nat
  ctx   : Nat
  pid   : Nat
  words : List (BitVec 64)
  since : Nat
  call  : Nat
  deriving DecidableEq, Repr

/-- A communicator (R366, R384): handle, the process of this device's member, the member list as its words,
the key; this device's member by rank, launch id, gang and block, and how many COLLs it has issued. -/
structure Comm where
  handle  : BitVec 64
  pid     : Nat
  members : List (BitVec 64 × BitVec 64)
  key     : BitVec 64
  rank    : Nat
  launch  : Nat
  gang    : Nat
  block   : Nat
  issued  : Nat
  deriving DecidableEq, Repr

/-- Another member's COLL as it reached this device (R369, R370): the handle, its rank and its number. -/
structure CollMsg where
  handle : Nat
  rank   : Nat
  seq    : Nat
  cmd    : CollCmd
  /-- Publications that happen before its issue (R238). -/
  told   : List Nat
  deriving DecidableEq, Repr

/-- A loaded code object (R403): context, base, range, descriptors. -/
structure CodeObj where
  ctx       : Nat
  pid       : Nat
  base      : Nat
  size      : Nat
  kdesc     : Nat
  kernels   : Nat
  unloading : Bool
  deriving DecidableEq, Repr

/-- An image (R342, R343): its address, its size and header as written, kind, sequence and base, and the state that its
sections hold, marks of names included. -/
structure Image where
  addr   : Nat
  size   : Nat
  header : List Byte
  kind   : Nat
  seq    : Nat
  base   : Nat
  key    : Nat
  gang   : Gang
  blocks : List (Nat × Block)
  waves  : List (Nat × Wave)
  copies : List (Nat × CopyOp)
  mats   : List (Nat × MatOp)
  palps  : List (Nat × PalpOp)
  colls  : List (Nat × CollOp)
  marks  : List ErrPlace
  deriving DecidableEq, Repr

/-- A pre-emption report due (R340, R388). -/
structure Report where
  gang   : Nat
  cycles : Nat
  action : Nat
  image  : BitVec 64
  late   : Bool
  deriving DecidableEq, Repr

/-- Power and thermal state (R407-R409): whether the device has power, the throttle stages in force, the last
sensor sample (each core die's temperature, power, coolant state and throttle cycles), when it was taken, since when every
sample has shown 105 °C or more, how many in a row have asked for throttling, the counts (0 corrected errors, 1
uncorrectable, 2 remote accesses not delivered, 3 throttle cycles, 4 boot failures) and the management port's last
answer. -/
structure Power where
  on       : Bool
  throttle : List Nat
  milliC   : Nat
  milliC1  : Nat
  milliW   : Nat
  coolant  : Nat
  cycles   : Nat
  sampled  : Nat
  hot      : Option Nat
  excess   : Nat
  counts   : Tab Nat
  answer   : List Nat
  deriving DecidableEq, Repr

/-- Boot and ownership (R386, R387, R410): whether an image runs; the owner key and sealing key held; the
fused minimum version; whether a transfer makes the next boot clear memory; how many nonces have been issued and
used. -/
structure BootState where
  booted  : Bool
  failed  : Bool
  owner   : Option (List Byte)
  sealing : Bool
  fused   : Nat
  clear   : Bool
  nonces  : Nat
  deriving DecidableEq, Repr

/-- The machine. -/
structure State where
  -- time, free values, the environment's due events, the granted issue
  time     : Nat
  free     : Nat
  /-- Events that the surroundings bring, each with the cycle from which it is due. -/
  agenda   : List (Nat × Instr)
  iss      : Issue
  -- threads, blocks, gangs, launches
  waves    : Tab Wave
  blocks   : Tab Block
  gangs    : Tab Gang
  launches : Tab Launch
  -- home memory: contents; the writes of each byte, newest first; the next order stamp (R233)
  mem      : Memory
  hist     : Tab (List (Nat × Byte))
  stamp    : Nat
  -- publications (R237): to a block, to a gang, to the device, to the system; what the host published
  pubBlk   : Tab (Tab Nat)
  pubGang  : Tab (Tab Nat)
  pubDev   : Tab Nat
  pubSys   : Tab Nat
  /-- Frames of 64 KiB last written through a page with non-atomic propagation; the publications of their bytes; what a
  reader of an atomic write or of a barrier's completion learns of, by the write's stamp and by the barrier (R238). -/
  loose    : List Nat
  pubs     : List Pub
  carry    : Tab (List Nat)
  barKnown : Tab (List Nat)
  /-- Published writes that a CFLUSH has brought home, where readers outside the device see them (R227). -/
  flushed  : Tab Nat
  /-- The cluster-table writes that a table's palp unit has performed (R303). -/
  pubNear  : Tab Nat
  /-- Writes by other devices, performed here and not yet published by their release (R237, R363). -/
  pubRem   : Tab Nat
  vlines   : List VLine
  access   : List Access
  bad      : List Nat
  badNames : List ErrPlace
  vault    : Tab Byte
  /-- The division of a vault for a context (R205), by 64 × context + cluster: 64 KiB granules of the scratch partition
  and of the vault-cache partition. -/
  parts    : Tab (Nat × Nat)
  -- translation (R208-R213)
  contexts : Tab Context
  /-- What the executive has put into home memory for itself: 0 tables, 1 anything else; the address and the size. -/
  frames   : List (Nat × Nat × Nat)
  tlb      : List TlbEntry
  /-- The cores' first-level TLBs (R212): here an entry's cluster is a core. -/
  tlb1     : List TlbEntry
  notices  : List (Nat × Nat)
  /-- The pages that the executive has serviced, by context and page, and in which order (R215). -/
  serviced : List (Nat × Nat × Nat)
  -- engines
  copies   : Tab CopyOp
  mats     : Tab MatOp
  palps    : Tab PalpOp
  colls    : Tab CollOp
  nextOp   : Nat
  /-- Hits of watchpoints by engines, not yet reported (R390). -/
  hits     : List EngineHit
  images   : List Image
  reports  : List Report
  /-- The executive's report ring (R388), oldest first. -/
  ring     : List (List (BitVec 64))
  -- command set
  queues   : Tab Queue
  reqs     : Tab Request
  /-- Replies of the executive that their SYSCs have yet to receive (R352), by the call's number. -/
  replies  : Tab (BitVec 64)
  comms    : List Comm
  collBox  : List CollMsg
  objects  : List CodeObj
  ctls     : Tab CtlCore
  clinks   : Tab CmdLink
  sched    : Nat
  beat     : Nat
  /-- What leaf controllers have been asked to do and have yet to carry out, oldest first (R375). -/
  orders   : List Instr
  nextId   : Nat
  log      : List (List Byte)
  /-- MSI-X: vectors pending (R385), and the messages sent to the host. -/
  vectors  : List Nat
  msi      : List Nat
  /-- The data of the host's last read (R372). -/
  hostData : List Byte
  masks    : Tab Bool
  -- links
  glinks   : Tab GLink
  remotes  : Tab Remote
  /-- Remote accesses that the executive was told of as not delivered (R365): the context and the device. -/
  lost     : List (Nat × Nat)
  -- power, boot
  power    : Power
  /-- For how many issue cycles in a row, this one included, throttling has withheld a core's V pipes (R407). -/
  starved  : Tab Nat
  boot     : BootState
  deriving DecidableEq, Repr

/-! ## The machine's stops -/

/-- What stops the machine. -/
inductive Fault where
  /-- Raised by `step` while the device has no power (R410, R411): nothing executes. Safe: no instruction
  runs in a device without power. -/
  | poweredOff
  deriving DecidableEq, Repr

/-- Instructions without a meaning. -/
inductive Refusal where
  /-- Raised by the dispatcher for a row of the opcode table that has no meaning yet. Safe. -/
  | notModelled (mnemonic : String)
  deriving DecidableEq, Repr

/-- Right after power-on reset (R386, R410): in ROM, nothing placed, no queue; memory lists nothing. -/
def State.reset : State :=
  { time := 0, free := 0, agenda := [], iss := .none, waves := [], blocks := [], gangs := [], launches := [],
    mem := [], hist := [], stamp := 1, pubBlk := [], pubGang := [], pubDev := [], pubSys := [], loose := [], pubs := [], carry := [], barKnown := [], flushed := [], pubNear := [], pubRem := [], vlines := [],
    access := [], bad := [], badNames := [], vault := [], parts := [], contexts := [], frames := [], tlb := [], tlb1 := [], notices := [], serviced := [],
    copies := [], mats := [], palps := [], colls := [], nextOp := 1, hits := [], images := [], reports := [], ring := [],
    queues := [], reqs := [], replies := [], comms := [], collBox := [], objects := [], ctls := [], clinks := [], sched := 0, beat := 0, orders := [],
    nextId := 1, log := [], vectors := [], msi := [], hostData := [], masks := [], glinks := [], remotes := [], lost := [], starved := [],
    power := { on := true, throttle := [], milliC := 0, milliC1 := 0, milliW := 0, coolant := 0, cycles := 0, sampled := 0
               hot := .none, excess := 0, counts := [], answer := [] },
    boot := { booted := false, failed := false, owner := .none, sealing := false, fused := 0, clear := false,
              nonces := 0 } }

end Sys2Proof.Machine
end

