-- ==== Sys2Proof/Machine/Ops.lean ====
section
/-! DEFINITION. The named operations over the state: names, memory, views and publications, translation,
barriers, traps and the return from one. Every meaning is built from these. -/

namespace Sys2Proof.Machine

/-! ## Tables of the machine -/

def State.wave (s : State) (k : Nat) : Wave := s.waves.get .absent k
def State.setWave (s : State) (k : Nat) (w : Wave) : State := { s with waves := s.waves.put k w }
def State.block (s : State) (k : Nat) : Block := s.blocks.get .absent k
def State.setBlock (s : State) (k : Nat) (b : Block) : State := { s with blocks := s.blocks.put k b }
def State.gang (s : State) (k : Nat) : Gang := s.gangs.get .absent k
def State.setGang (s : State) (k : Nat) (g : Gang) : State := { s with gangs := s.gangs.put k g }
def State.launch (s : State) (k : Nat) : Launch := s.launches.get .absent k
def State.setLaunch (s : State) (k : Nat) (l : Launch) : State := { s with launches := s.launches.put k l }
def State.context (s : State) (k : Nat) : Context := s.contexts.get .absent k
def State.ctl (s : State) (k : Nat) : CtlCore := s.ctls.get .start k
def State.setCtl (s : State) (k : Nat) (c : CtlCore) : State := { s with ctls := s.ctls.put k c }
def State.copy (s : State) (k : Nat) : CopyOp := s.copies.get .absent k
def State.setCopy (s : State) (k : Nat) (c : CopyOp) : State := { s with copies := s.copies.put k c }
def State.mat (s : State) (k : Nat) : MatOp := s.mats.get .absent k
def State.setMat (s : State) (k : Nat) (m : MatOp) : State := { s with mats := s.mats.put k m }
def State.palp (s : State) (k : Nat) : PalpOp := s.palps.get .absent k
def State.setPalp (s : State) (k : Nat) (p : PalpOp) : State := { s with palps := s.palps.put k p }
def State.collOp (s : State) (k : Nat) : CollOp := s.colls.get .absent k
def State.setColl (s : State) (k : Nat) (c : CollOp) : State := { s with colls := s.colls.put k c }
def State.queue (s : State) (k : Nat) : Queue := s.queues.get .absent k
def State.setQueue (s : State) (k : Nat) (q : Queue) : State := { s with queues := s.queues.put k q }
def State.clink (s : State) (k : Nat) : CmdLink := s.clinks.get .start k
def State.setClink (s : State) (k : Nat) (c : CmdLink) : State := { s with clinks := s.clinks.put k c }
def State.glink (s : State) (k : Nat) : GLink := s.glinks.get .start k
def State.setGlink (s : State) (k : Nat) (g : GLink) : State := { s with glinks := s.glinks.put k g }

/-- Lane `l` of a wave. -/
def Wave.lane (w : Wave) (l : Nat) : Lane := w.lanes.get .absent l
def Wave.setLane (w : Wave) (l : Nat) (t : Lane) : Wave := { w with lanes := w.lanes.put l t }

/-- Update one wave. -/
def State.onWave (s : State) (k : Nat) (f : Wave → Wave) : State := s.setWave k (f (s.wave k))

/-- Update the lanes listed of one wave. -/
def Wave.onLanes (w : Wave) (ls : List Nat) (f : Lane → Lane) : Wave :=
  ls.foldl (fun w l => w.setLane l (f (w.lane l))) w

/-- The wave of the issue in progress. -/
def State.cur (s : State) : Wave := s.wave s.iss.wave

/-- Wave `k` as an instruction reads the state that it shares with others of its cycle: as it stood before the
cycle (R150). -/
def State.seenOf (s : State) (k : Nat) : Wave := if s.iss.late then s.iss.before.get (s.wave k) k else s.wave k

/-- The issuing wave, so read. -/
def State.seen (s : State) : Wave := s.seenOf s.iss.wave

/-- The issuing wave as a register is read that only instructions of these pipes write: what an earlier member of the
same turn wrote is seen (R39, R47), what another lane set wrote in the cycle is not (R150). Each of these pipes takes
one instruction of a core in a cycle (R145). -/
def State.regs (s : State) (ps : List Pipe) : Wave := if s.iss.pipes.any ps.contains then s.cur else s.seen

/-- The state in which an instruction reads scratch and barriers, likewise. -/
def State.past (s : State) (ps : List Pipe) : State :=
  if s.iss.late && !s.iss.pipes.any ps.contains then { s with blocks := s.iss.blocks, gangs := s.iss.gangs } else s

/-- The lanes of a wave that have not exited. -/
def Wave.live (w : Wave) : List Nat := (List.range w.width).filter fun l => !(w.lane l).exited

/-- The lanes of a wave that count as not exited: in trap mode the handler's only (R324). -/
def Wave.present (w : Wave) : List Nat := if w.trapm then w.live.filter w.handler.contains else w.live

/-- A set of lanes as a mask, bit j for lane j. -/
def maskOf (ls : List Nat) : BitVec 64 := BitVec.ofNat 64 (ls.foldl (fun m l => m ||| 2 ^ l) 0)

/-- The gang, launch and kernel that a wave runs. -/
def State.gangOf (s : State) (w : Wave) : Nat := (s.block w.block).gang
def State.launchOf (s : State) (w : Wave) : Nat := (s.gang (s.gangOf w)).launch
def State.kernelOf (s : State) (w : Wave) : Kernel := (s.launch (s.launchOf w)).kernel

/-- Code on a control core is privileged (R347, R373). -/
def Wave.priv (w : Wave) : Bool := w.control.isSome

/-- The names that a wave's instructions may use: its kernel's; a control core's firmware has no kernel
descriptor, so its names, resource entries among them, reach the class limits. DESIGN CHOICE (log 12). -/
def State.declared (s : State) (w : Wave) : Declared :=
  if w.priv then .limits else (s.kernelOf w).decl

/-- The context whose translations a wave's accesses use (R208, R374). -/
def State.ctxOf (s : State) (w : Wave) : Nat :=
  match w.control with
  | some c => (s.ctl c).ctx.toNat
  | none => (s.launch (s.launchOf w)).ctx

/-- The core of a wave, its cluster and its die (R1, R138): control cores lie above the cores. -/
def State.coreOf (s : State) (w : Wave) : Nat :=
  match w.control with
  | some c => 256 + c
  | none => (s.block w.block).core
def State.clusterOf (s : State) (w : Wave) : Nat := s.coreOf w / 4
def State.dieOf (s : State) (w : Wave) : Nat :=
  match w.control with
  | some c => c / 8
  | none => s.clusterOf w / 32

/-! ## Free values (R10) -/

/-- A fresh undefined value at this step. Tags keep the elements of one step apart. -/
def State.undef (s : State) (tag : Nat) : BitVec 64 := Config.freeWord s.free tag

/-- A fresh unspecified choice among `n` outcomes. -/
def State.choose (s : State) (tag n : Nat) : Nat := if n == 0 then 0 else Config.freeChoice s.free tag % n

/-- An address or size that the executive chooses, a multiple of `n` in home memory (log 25). -/
def chosen (what i n : Nat) : Nat := Config.execPlace what i % (2 ^ 38 / n) * n

/-- Round up to a multiple. -/
def upTo (a n : Nat) : Nat := (a + n - 1) / max n 1 * max n 1

/-- The lowest position from `p` that is aligned and clear of what `hit` reports, which is the end of what
stands there. -/
def lowestFree (hit : Nat → Option Nat) (size align cap : Nat) : Nat → Nat → Option Nat
  | 0, _ => none
  | fuel + 1, p =>
    if cap < p + size then none
    else match hit p with
      | some e => lowestFree hit size align cap fuel (upTo (max e (p + 1)) align)
      | none => some p

/-- The end of the first range of a list that `size` units from `p` reach into. -/
def meetEnd (rs : List (Nat × Nat)) (p size : Nat) : Option Nat :=
  (rs.find? fun r => decide (r.1 < p + size) && decide (p < r.1 + r.2)).map fun r => r.1 + r.2

/-- Where the executive puts something of its own (log 25): from an address of its choice the next multiple of `n` that is
clear of what it has put elsewhere. -/
def State.site (s : State) (what i n size : Nat) : Nat :=
  let find (p : Nat) := lowestFree (fun p => meetEnd (s.frames.map Prod.snd) p size) size n (2 ^ 38) (s.frames.length + 1) p
  ((find (chosen what i n)).or (find 0)).getD (chosen what i n)

/-- It stands there. -/
def State.keep (s : State) (kind a size : Nat) : State := { s with frames := (kind, a, size) :: s.frames }

def tagLane (l name : Nat) : Nat := 4 * (name * 64 + l)
def tagUnif (name : Nat) : Nat := 4 * name + 1
def tagByte (k : Nat) : Nat := 4 * k + 2
def tagMisc (k : Nat) : Nat := 4 * k + 3

/-! ## Names (R23-R28, R44, R52) -/

/-- The name-table entry of a name, where the kernel's table has one. -/
def Kernel.info (k : Kernel) (cls name : Nat) : Option NameInfo :=
  k.names.find? fun n => n.cls == cls && n.name == name

/-- The declared width of a lane name: 64 bits where no table entry narrows it (R24). -/
def State.laneWidth (s : State) (w : Wave) (name : Nat) : Nat :=
  match (s.kernelOf w).info 0 name with
  | some n => if n.size == 32 then 32 else 64
  | none => 64

/-- A value that the wave's forwarding window holds (R333). -/
def Wave.forwards (w : Wave) (cls l name : Nat) : Bool :=
  w.fwd.any fun f => f.cls == cls && f.name == name && (cls == 1 || f.lanes.contains l)

/-- A lane's word of a name reads as zero: it is marked, and the forwarding window does not serve the read (R332,
R333). -/
def State.zeroLane (s : State) (k l name : Nat) : Bool :=
  s.badNames.contains (.laneName k l name) && !(s.wave k).forwards 0 l name

def State.zeroUnif (s : State) (k name : Nat) : Bool :=
  s.badNames.contains (.uniformName k name) && !(s.wave k).forwards 1 0 name

/-- An undefined value of a lane name, of the name's width (R10). -/
def State.undefLane (s : State) (k l name : Nat) : BitVec 64 :=
  BitVec.ofNat 64 ((s.undef (tagLane l name)).toNat % 2 ^ s.laneWidth (s.wave k) name)

/-- A value whose bits in `blur` are those of an undefined one (R10). -/
def blurred (x u blur : BitVec 64) : BitVec 64 := (x &&& ~~~blur) ||| (u &&& blur)

/-- What a wave's uniform name holds (R10, R52): undefined after a kill mark, in part undefined where a result was. -/
def State.unifValue (s : State) (w : Wave) (name : Nat) : BitVec 64 :=
  let u := s.undef (tagUnif name)
  let x := w.unif.get 0 name
  if w.udead.contains name then u
  else if w.uvague.has name then blurred x u (w.uvague.get 0 name)
  else x

/-- A name is live at a PC (R315): one without intervals always is (R399). -/
def NameInfo.liveAt (n : NameInfo) (pc : Nat) : Bool :=
  n.live.isEmpty || n.live.any fun i => decide (i.1 ≤ pc) && decide (pc ≤ i.2)

/-- The key of a name in a binding table. -/
def NameInfo.key (n : NameInfo) : Nat := n.cls * 65536 + n.name

/-- A place word names a spill slot (R317): local, lateral or HBM; a buffer's place is in a vault. -/
def isSlot (cls : Nat) (w : BitVec 64) : Bool :=
  let k := bits w.toNat 63 60
  decide ((if cls == 2 then 5 else 4) ≤ k) && decide (k ≤ 6)

/-- A spilled name that the tables say is not live at a PC holds an undefined value there (R315, R396). -/
def State.omitted (s : State) (w : Wave) (cls name : Nat) (pc : BitVec 64) : Bool :=
  match (s.kernelOf w).info cls name with
  | some n => !n.live.isEmpty && !n.liveAt pc.toNat && isSlot cls ((s.block w.block).places.get 0 n.key)
  | none => false

/-- The open window of a lane on a name (R44). -/
def Lane.window (t : Lane) (uniform : Bool) (name : Nat) : Option Window :=
  t.windows.find? fun x => x.uniform == uniform && x.name == name

/-- Lane `l`'s value of a lane name: after a kill mark, or spilled and not live, an undefined value; inside a lookahead
window the value before the long-latency instruction; of a word that an uncorrectable error marked zero (R332); else what
the name holds. -/
def State.readLaneOf (s : State) (k l name : Nat) : BitVec 64 :=
  let t := (s.wave k).lane l
  if t.dead.contains name || s.omitted (s.wave k) 0 name t.pc then s.undefLane k l name
  else match t.window false name with
  | some x => blurred x.old (s.undefLane k l name) x.blur
  | none => if s.zeroLane k l name then 0 else t.names.get 0 name

/-- A kill mark has ended a uniform name for the issuing wave (R52): before the cycle, or by an earlier member of the
turn. -/
def State.killedUnif (s : State) (name : Nat) : Bool :=
  s.seen.udead.contains name || (!s.iss.pipes.isEmpty && s.cur.udead.contains name)

/-- A uniform name as lane `l`'s thread of the issuing wave reads it. -/
def State.readUnif (s : State) (l name : Nat) : BitVec 64 :=
  let u := s.undef (tagUnif name)
  if s.killedUnif name || s.omitted s.cur 1 name (s.cur.lane l).pc then u
  else match (s.cur.lane l).window true name with
  | some x => blurred x.old u x.blur
  | none => if s.zeroUnif s.iss.wave name then 0 else s.unifValue s.seen name

def State.readLane (s : State) (l name : Nat) : BitVec 64 := s.readLaneOf s.iss.wave l name

/-- Drop a lane's window on a name: a write is ordered after the long-latency instruction (R44). -/
def Lane.closeOn (t : Lane) (uniform : Bool) (name : Nat) : Lane :=
  { t with windows := t.windows.filter fun x => !(x.uniform == uniform && x.name == name) }

/-- A lane's own write of a name, at the name's width (R25). -/
def Lane.write (t : Lane) (width name : Nat) (v : BitVec 64) : Lane :=
  let t := t.closeOn false name
  { t with
    dead := t.dead.filter (· != name)
    recent := name :: t.recent.filter (· != name)
    names := t.names.put name (BitVec.ofNat 64 (v.toNat % 2 ^ width)) }

/-- Results in flight to these lanes of a name are discarded on arrival (R44). -/
def Wave.cancelLane (w : Wave) (name : Nat) (ls : List Nat) : Wave :=
  { w with flights := w.flights.map fun f =>
      if !f.uniform && f.name == name then { f with vals := f.vals.filter fun p => !ls.contains p.1 } else f }

/-- Results and tokens in flight to a uniform name are discarded on arrival (R44). -/
def Wave.cancelUnif (w : Wave) (name : Nat) : Wave :=
  { w with
    flights := w.flights.map fun f => if f.uniform && f.name == name then { f with vals := [] } else f
    tokens := w.tokens.filter fun t => t.name != name }

/-- The granules of a lane name that hold these lanes' values become dirty (R341): the name's bytes lie lane by
lane, 4 or 8 each. -/
def Wave.soil (w : Wave) (width name : Nat) (ls : List Nat) : Wave :=
  let gs := ((ls.map fun l => (name, l * (width / 8) / 128)).eraseDups).filter fun g => !w.dirty.contains g
  if gs.isEmpty then w else { w with dirty := w.dirty ++ gs }

/-- The forwarding window takes in values that an instruction writes. -/
def Wave.forward (w : Wave) (cls name : Nat) (ls : List Nat) : Wave := { w with fwd := ⟨cls, name, ls, w.issued⟩ :: w.fwd }

/-- An instruction more of the wave has issued: the window holds the values of the last eight. -/
def Wave.slide (w : Wave) : Wave :=
  { w with issued := w.issued + 1, fwd := w.fwd.filter fun f => decide (w.issued < f.at_ + 8) }

/-- Write a lane name in the lanes listed. -/
def State.writeLanesOf (s : State) (k name : Nat) (vals : List (Nat × BitVec 64)) : State :=
  let wd := s.laneWidth (s.wave k) name
  let s := { s with badNames := s.badNames.filter fun (e : ErrPlace) => !(vals.any fun p => e == ErrPlace.laneName k p.1 name) }
  s.onWave k fun w =>
    vals.foldl (fun w p => w.setLane p.1 ((w.lane p.1).write wd name p.2))
      (((w.cancelLane name (vals.map Prod.fst)).soil wd name (vals.map Prod.fst)).forward 0 name (vals.map Prod.fst))

def State.writeLanes (s : State) (name : Nat) (vals : List (Nat × BitVec 64)) : State :=
  s.writeLanesOf s.iss.wave name vals

/-- Write a uniform name, as the lanes listed issue it (R27). -/
def State.writeUnifOf (s : State) (k : Nat) (ls : List Nat) (name : Nat) (v : BitVec 64) : State :=
  let s := { s with badNames := s.badNames.filter fun (e : ErrPlace) => e != ErrPlace.uniformName k name }
  s.onWave k fun w =>
    let w := ((w.cancelUnif name).forward 1 name []).onLanes ls fun t => t.closeOn true name
    { w with
      udead := w.udead.filter (· != name), urecent := name :: w.urecent.filter (· != name)
      uvague := w.uvague.del name, unif := w.unif.put name v }

def State.writeUnif (s : State) (ls : List Nat) (name : Nat) (v : BitVec 64) : State :=
  s.writeUnifOf s.iss.wave ls name v

/-- A value that a name holds in program order: the value, what will give it where it has yet to come, and its undefined
bits. -/
structure Prior where
  val  : BitVec 64
  due  : Option Nat
  blur : BitVec 64
  deriving DecidableEq, Repr

/-- An undefined value (R10). -/
def Prior.undefined : Prior := ⟨0, none, BitVec.allOnes 64⟩

/-- The value a name holds in program order before a long-latency instruction: undefined after a kill mark (R52); a result
still in flight supersedes the stored value. -/
def State.priorLane (s : State) (k l name : Nat) : Prior :=
  let w := s.wave k
  if (w.lane l).dead.contains name then .undefined
  else match w.flights.reverse.find? fun f => !f.uniform && f.name == name && f.vals.any (·.1 == l) with
  | some f => ⟨((f.vals.find? (·.1 == l)).map Prod.snd).getD 0, f.remote.map (2 * ·), 0⟩
  | none => ⟨if s.zeroLane k l name then 0 else (w.lane l).names.get 0 name, none, 0⟩

def State.priorUnif (s : State) (k name : Nat) : Prior :=
  let w := s.wave k
  if w.udead.contains name then .undefined
  else match w.tokens.find? fun t => t.name == name with
  | some t => ⟨0, some (2 * t.op + 1), 0⟩
  | none => match w.flights.reverse.find? fun f => f.uniform && f.name == name && !f.vals.isEmpty with
    | some f => ⟨((f.vals.head?).map Prod.snd).getD 0, none, w.uvague.get 0 name⟩
    | none => if s.zeroUnif k name then ⟨0, none, 0⟩ else ⟨w.unif.get 0 name, none, w.uvague.get 0 name⟩

/-- A long-latency instruction that writes a name (R44): it ends a window on the name, whose instruction is ordered
before it, and opens its own of `n` instructions. -/
def State.openWindow (s : State) (k : Nat) (ls : List Nat) (uniform : Bool) (name n : Nat) : State :=
  s.onWave k fun w => ls.foldl (fun w l =>
    let t := (w.lane l).closeOn uniform name
    let old := if uniform then s.priorUnif k name else s.priorLane k l name
    w.setLane l (if n == 0 then t else { t with windows := ⟨uniform, name, old.val, n + 1, old.due, old.blur⟩ :: t.windows })) w

/-- What windows waited for has come (R44). -/
def Wave.fillWindows (w : Wave) (due : Nat) (v : BitVec 64) : Wave :=
  w.onLanes w.live fun t => { t with
    windows := t.windows.map fun x => if x.due == some due then { x with old := v, due := none } else x }

/-- A long-latency result leaves for a lane name (R43): earlier results to the same lanes are discarded. -/
def State.flyLanes (s : State) (ls : List Nat) (name : Nat) (vals : List (Nat × BitVec 64)) (fl : Flags) :
    State :=
  let s := s.openWindow s.iss.wave ls false name s.iss.look
  s.onWave s.iss.wave fun w =>
    let w := w.cancelLane name ls
    { w with
      lanes := (w.onLanes ls fun t => { t with dead := t.dead.filter (· != name) }).lanes
      flights := w.flights ++ [⟨false, name, vals, ls, fl, none, 0⟩] }

/-- The result that the issue in progress has sent off comes from memory, as CR.ERRS codes it. -/
def State.fromMem (s : State) (src : Nat) : State :=
  s.onWave s.iss.wave fun w => match w.flights.getLast? with
    | some f => { w with flights := w.flights.dropLast ++ [{ f with src := src }] }
    | none => w

/-- A long-latency result leaves for a uniform name. -/
def State.flyUnif (s : State) (ls : List Nat) (name : Nat) (v : BitVec 64) : State :=
  let s := s.openWindow s.iss.wave ls true name s.iss.look
  s.onWave s.iss.wave fun w =>
    let w := w.cancelUnif name
    { w with
      udead := w.udead.filter (· != name), uvague := w.uvague.del name
      flights := w.flights ++ [⟨true, name, [(0, v)], ls, 0, none, 0⟩] }

/-- Bits of a uniform name that the issue in progress has written, or will write, are undefined (R10). -/
def State.blurUnif (s : State) (name : Nat) (mask : BitVec 64) : State :=
  if mask == 0 then s else s.onWave s.iss.wave fun w => { w with uvague := w.uvague.put name mask }

/-- A token is due in a uniform name (R43). -/
def State.flyToken (s : State) (ls : List Nat) (name : Nat) (kind : EngineKind) (op : Nat) : State :=
  let s := s.openWindow s.iss.wave ls true name s.iss.look
  s.onWave s.iss.wave fun w =>
    let w := w.cancelUnif name
    { w with
      udead := w.udead.filter (· != name), uvague := w.uvague.del name
      tokens := w.tokens ++ [⟨name, kind, op⟩] }

/-- Lane sets that wait for a source look again. -/
def Wave.wake (w : Wave) (p : Wait → Bool) : Wave :=
  w.onLanes (w.live.filter fun l => p (w.lane l).wait) fun t => { t with wait := .none }

/-- A name's word, written whole, loses its mark (R333). -/
def State.unmarkNames (s : State) (p : ErrPlace → Bool) : State :=
  if s.badNames.isEmpty then s else { s with badNames := s.badNames.filter fun e => !p e }

/-- Flags raised in the cycle that issues for wave `k` outlast a clear of the same cycle (R83). -/
def State.noteRaised (s : State) (k : Nat) (fl : Flags) : State :=
  if s.iss.wave == k then { s with iss := { s.iss with raised := s.iss.raised ||| fl } } else s

/-- A result arrives: each lane that has not exited receives its value, a uniform name receives its value
unless every lane of the issue has exited, and the flags are contributed (R44, R83, R106, R114). -/
def State.land (s : State) (k : Nat) (f : Flight) : State :=
  let wd := s.laneWidth (s.wave k) f.name
  let s := (s.unmarkNames fun e =>
    if f.uniform then e == .uniformName k f.name else f.vals.any fun p => e == .laneName k p.1 f.name).noteRaised k f.flags
  s.onWave k fun w =>
    let w := { (w.wake fun x => x == .score) with fflags := w.fflags ||| f.flags }
    if f.uniform then
      match f.vals with
      | (_, v) :: _ =>
        if f.lanes.all fun l => (w.lane l).exited then w
        else { w with unif := w.unif.put f.name v, urecent := f.name :: w.urecent.filter (· != f.name) }
      | [] => w
    else
      f.vals.foldl (fun w p =>
        let t := w.lane p.1
        if t.exited then w
        else w.setLane p.1 { t with
          names := t.names.put f.name (BitVec.ofNat 64 (p.2.toNat % 2 ^ wd)), recent := f.name :: t.recent.filter (· != f.name) })
        (w.soil wd f.name ((f.vals.map Prod.fst).filter fun l => !(w.lane l).exited))

/-- A CRR of CR.FFLAGS waits for one contribution less, where that was among the first `left` that it waits for
(R83). -/
def Lane.oneLess (t : Lane) (n : Nat) : Lane :=
  match t.wait with
  | .flags v left => if n < left then { t with wait := .flags v (left - 1) } else t
  | _ => t

/-- Result number `n` in flight of a wave arrives. -/
def State.landNth (s : State) (k n : Nat) : State :=
  match (s.wave k).flights[n]? with
  | some f => (s.land k f).onWave k fun w =>
      let m := ((w.flights.take n).filter fun g => g.flags != 0).length
      { (if f.flags == 0 then w else w.onLanes w.live fun t => t.oneLess m) with flights := w.flights.eraseIdx n }
  | none => s

/-- Every result in flight of a wave arrives, in issue order, but those that wait for a remote response
(R324, R44). -/
def State.landAll (s : State) (k : Nat) : State :=
  (((s.wave k).flights.zipIdx.filter fun p => p.1.remote.isNone).foldl
    (fun r p => (r.1.landNth k (p.2 - r.2), r.2 + 1)) (s, 0)).1

/-- The windows of these lanes close (R44). -/
def State.closeWindows (s : State) (k : Nat) (ls : List Nat) : State :=
  s.onWave k fun w => w.onLanes ls fun t => { t with windows := [] }

/-! ## Home memory, views, publications (R233-R239) -/

/-- The latest stamp of a byte; 0 for the value it has had since reset. -/
def State.head (s : State) (pa : Nat) : Nat := ((s.hist.get [] pa).head?.map Prod.fst).getD 0

/-- The stamp of the write that home holds of a byte: the newest but for those that stand in vault-cache lines (R224). -/
def State.homeHead (s : State) (pa : Nat) : Nat :=
  let away := (s.vlines.filter fun v => v.line == pa / 128).flatMap (·.own)
  (((s.hist.get [] pa).find? fun p => !away.contains p.1).map Prod.fst).getD 0

/-- The byte that the writes up to stamp `n` leave at `pa`: the latest of them in coherence order. -/
def State.byteAt (s : State) (pa n : Nat) : Byte :=
  match s.hist.get [] pa with
  | [] => s.mem.get pa
  | ws => ((ws.find? fun p => p.1 ≤ n).map Prod.snd).getD (s.mem.get pa)

/-- A load by wave `k` (R235). -/
def State.loadByte (s : State) (k pa : Nat) : Byte := s.byteAt pa ((s.seenOf k).view.get 0 pa)

/-- A load where an uncorrectable word reads as zero (R216). -/
def State.viewByte (s : State) (k pa : Nat) : Byte := if s.bad.contains (pa / 8 * 8) then 0 else s.loadByte k pa

/-- Perform a write of one byte at home: next in the byte's coherence order. -/
def State.pushByte (s : State) (pa : Nat) (b : Byte) : State :=
  let ws := match s.hist.get [] pa with
    | [] => [(0, s.mem.get pa)]
    | ws => ws
  { s with mem := s.mem.set pa b, hist := s.hist.put pa ((s.stamp, b) :: ws) }

/-- Perform a write of bytes at home, as one write. -/
def State.pushBytes (s : State) (pa : Nat) (bs : List Byte) : State :=
  let s' := (bs.zipIdx).foldl (fun s p => s.pushByte (pa + p.2) p.1) s
  { s' with stamp := s.stamp + 1 }

/-- The write at stamp `n` enters a view. -/
def Wave.see (w : Wave) (pa len n : Nat) : Wave :=
  { w with view := (List.range len).foldl (fun v i => v.put (pa + i) n) w.view }

/-- The waves of a block. -/
def State.wavesOf (s : State) (b : Nat) : List Nat := (s.block b).waves

/-- A write enters the views of every wave of wave `k`'s block: the issuing wave's when performed, its
siblings' at an unspecified moment (R234), which this model takes to be at once (log 20). -/
def State.seeBlock (s : State) (k pa len n : Nat) : State :=
  let ks := if (s.wave k).priv then [k] else k :: (s.wavesOf (s.wave k).block).filter (· != k)
  ks.foldl (fun s j => s.onWave j fun w => w.see pa len n) s

/-- A marked word of home memory is written whole, which clears its mark (R216); words are of 8 bytes
(log 21). -/
def State.unmark (s : State) (pa len : Nat) : State :=
  { s with bad := s.bad.filter fun a => !(decide (pa ≤ a) && decide (a + 8 ≤ pa + len)) }

/-- A vault-cache line takes in bytes that are performed at home (R224, R233): they are no longer its own to write
back. -/
def VLine.store (v : VLine) (pa : Nat) (bs : List Byte) (n : Nat) : VLine :=
  let offs := (bs.zipIdx.map fun p => (pa + p.2, p.1)).filter fun p => p.1 / 128 == v.line
  if offs.isEmpty then v
  else { v with
    bytes := v.bytes.puts (offs.map fun p => (p.1 % 128, p.2))
    stamps := v.stamps.puts (offs.map fun p => (p.1 % 128, n))
    dirty := v.dirty.filter fun d => !(offs.any fun p => p.1 % 128 == d) }

/-- The lines that a cluster's vault cache holds take in a write of the cluster. -/
def State.storeLines (s : State) (cluster pa : Nat) (bs : List Byte) (n : Nat) : State :=
  if s.vlines.isEmpty then s
  else { s with vlines := s.vlines.map fun v => if v.cluster == cluster then v.store pa bs n else v }

/-- The stamp `n` of a byte's write is `m` from now on, in a view that has it. -/
def restampIn (pa n m : Nat) (t : Tab Nat) : Tab Nat := if t.get 0 pa == n then t.put pa m else t

/-- An atomic's write of a byte, stamp `n`, that stands in a vault-cache line only takes the next place in the byte's
coherence order, in every view that has it: home has taken in another write before it (R224, R233). -/
def State.restamp (s : State) (pa n : Nat) : State :=
  let m := max s.stamp (n + 1)
  let go := restampIn pa n m
  let ws := s.hist.get [] pa
  { s with
    stamp := m + 1
    hist := s.hist.put pa ((ws.filterMap fun p => if p.1 == n then some (m, p.2) else none) ++ ws.filter fun p => p.1 != n)
    waves := s.waves.map fun p => (p.1, { p.2 with view := go p.2.view, code := go p.2.code })
    pubBlk := s.pubBlk.map fun p => (p.1, go p.2)
    pubGang := s.pubGang.map fun p => (p.1, go p.2)
    pubs := s.pubs.map fun p => { p with bytes := go p.bytes }
    carry := if s.carry.has n then s.carry.put m (s.carry.get [] n) else s.carry
    vlines := s.vlines.map fun v => if v.line == pa / 128 && v.stamps.get 0 (pa % 128) == n then
      { v with stamps := v.stamps.put (pa % 128) m, own := m :: v.own } else v }

/-- Home has taken in a write of these bytes: writes of them that stand in lines, to go home later, follow it in the
coherence order (R224: the home value is that of the copy written back last). -/
def State.overtake (s : State) (pa len : Nat) : State :=
  if s.vlines.isEmpty then s
  else (List.range len).foldl (fun s i =>
    s.vlines.foldl (fun s v =>
      let n := v.stamps.get 0 ((pa + i) % 128)
      if v.line == (pa + i) / 128 && v.dirty.contains ((pa + i) % 128) && decide (n < s.homeHead (pa + i)) then
        s.restamp (pa + i) n
      else s) s) s

/-- A write of bytes performed at home by an agent of a cluster. -/
def State.putHome (s : State) (cluster pa : Nat) (bs : List Byte) : State :=
  (((s.pushBytes pa bs).unmark pa bs.length).storeLines cluster pa bs s.stamp).overtake pa bs.length

/-- A store by wave `k` to home memory. -/
def State.storeHome (s : State) (k pa : Nat) (bs : List Byte) : State :=
  (s.putHome (s.clusterOf (s.wave k)) pa bs).seeBlock k pa bs.length s.stamp

/-- The frame of 64 KiB that a byte lies in. -/
def frameOf (pa : Nat) : Nat := pa / 2 ^ 16

/-- An access of wave `k` is issued and not yet performed (R230). -/
def State.access1 (s : State) (k kind addr : Nat) : State :=
  { s with access := s.access ++ [⟨k, kind, addr, s.time⟩] }

/-- Earlier accesses of wave `k` that satisfy `p`, or remote ones, are not yet performed. -/
def State.busy (s : State) (k : Nat) (p : Access → Bool) : Bool :=
  s.access.any (fun a => a.wave == k && p a) || s.remotes.any fun r => r.2.wave == k

/-- Take the later of two views, byte by byte. -/
def mergeView (a b : Tab Nat) : Tab Nat :=
  b.foldl (fun t p => if t.get 0 p.1 < p.2 then t.put p.1 p.2 else t) a

/-- A vault-cache line is dropped, and its dirty bytes go home (R224). -/
def State.writeLine (s : State) (v : VLine) : State :=
  v.dirty.foldl (fun s off =>
    let pa := v.line * 128 + off
    ({ s with mem := s.mem.set pa (v.bytes.get 0 off) } : State).overtake pa 1)
    { s with vlines := s.vlines.filter fun x => !(x.cluster == v.cluster && x.line == v.line) }

/-- Every line that a cluster holds goes home and is dropped. -/
def State.writeLines (s : State) (cluster : Nat) : State :=
  (s.vlines.filter fun v => v.cluster == cluster).foldl State.writeLine s

/-- Two lists of numbers together. -/
def joinKnown (a b : List Nat) : List Nat := a ++ b.filter fun x => !a.contains x

/-- The writes of a view to pages with non-atomic propagation are published on their own, so that an acquire may take
each such publication in or not (R237). -/
def State.publishLoose (s : State) (k scope : Nat) : State :=
  let w := s.wave k
  let v := w.view.filter fun p => s.loose.contains (frameOf p.1)
  if v.isEmpty then s.onWave k fun w => { w with told := w.known }
  else
    let id := s.pubs.length
    ({ s with pubs := s.pubs ++ [⟨id, scope, w.block, s.gangOf w, v⟩] } : State).onWave k fun w =>
      { w with known := id :: w.known, told := id :: w.known }

/-- A release by wave `k` at a scope (R237): everything in its view is published to every party in the
scope; 0 .BLK, 1 .GANG, 2 .DEV, 3 .SYS. Lines of the cluster go home before a .DEV or .SYS release. -/
def State.release (s : State) (k scope : Nat) : State :=
  let s := if 2 ≤ scope then s.writeLines (s.clusterOf (s.wave k)) else s
  let w := s.wave k
  let v := if s.loose.isEmpty then w.view else w.view.filter fun p => !s.loose.contains (frameOf p.1)
  let s := s.publishLoose k scope
  let g := s.gangOf w
  let s := { s with pubBlk := s.pubBlk.put w.block (mergeView (s.pubBlk.get [] w.block) v) }
  let s := if 1 ≤ scope then { s with pubGang := s.pubGang.put g (mergeView (s.pubGang.get [] g) v) } else s
  let s := if 2 ≤ scope then { s with pubDev := mergeView s.pubDev v } else s
  if 3 ≤ scope then { s with pubSys := mergeView s.pubSys v } else s

/-- A publication reaches an acquire at a scope by a wave: each party lies in the other's scope (R232). -/
def Pub.reaches (p : Pub) (block gang scope : Nat) : Bool :=
  p.block == block || (p.gang == gang && decide (1 ≤ p.scope) && decide (1 ≤ scope)) ||
    (decide (2 ≤ p.scope) && decide (2 ≤ scope))

/-- Of the publications to pages with non-atomic propagation an acquire takes in those that happen before it, and
of the others what is left open, each for itself (R237, log 22). -/
def State.takePubs (s : State) (w : Wave) (scope : Nat) (v : Tab Nat) : Tab Nat :=
  s.pubs.foldl (fun v p =>
    if p.reaches w.block (s.gangOf w) scope && (w.known.contains p.id || s.choose (tagMisc (2 ^ 20 + p.id)) 2 == 1) then
      mergeView v p.bytes
    else v) v

/-- What wave `k` has read of an atomic write, or of a barrier's completion, tells it of publications (R238). -/
def State.hear (s : State) (k : Nat) (ns : List Nat) : State :=
  if ns.isEmpty then s else s.onWave k fun w => { w with heard := joinKnown w.heard ns }

/-- An acquire by wave `k` at a scope (R237): every earlier publication that reaches it is taken in, on a page with
non-atomic propagation as `takePubs` says. -/
def State.acquire (s : State) (k scope : Nat) : State :=
  let w := { s.wave k with known := joinKnown (s.wave k).known (s.wave k).heard, heard := [] }
  let v := mergeView w.view (s.pubBlk.get [] w.block)
  let v := if 1 ≤ scope then mergeView v (s.pubGang.get [] (s.gangOf w)) else v
  let v := if 2 ≤ scope then mergeView v s.pubDev else v
  let v := if 3 ≤ scope then mergeView v s.pubSys else v
  s.setWave k { w with view := s.takePubs w scope v }

/-- The latest write of a byte that is published at a scope of at least `scope`, 2 .DEV or 3 .SYS. -/
def State.published (s : State) (scope pa : Nat) : Nat :=
  let n := max (s.pubSys.get 0 pa) (if scope ≤ 2 then s.pubDev.get 0 pa else 0)
  s.pubs.foldl (fun n p => if decide (scope ≤ p.scope) then max n (p.bytes.get 0 pa) else n) n

/-- Bytes written at stamp `n` are in a publication. -/
def stampAll (pa len n : Nat) (t : Tab Nat) : Tab Nat := (List.range len).foldl (fun v i => v.put (pa + i) n) t

/-- A write by the host, performed at home and published at .SYS scope (R372). -/
def State.hostWrite (s : State) (pa : Nat) (bs : List Byte) : State :=
  let t := ((s.pushBytes pa bs).unmark pa bs.length).overtake pa bs.length
  { t with pubSys := stampAll pa bs.length s.stamp t.pubSys }

/-- A write by the executive, performed at home and published at .SYS scope: the executive is on the device, so an acquire
at .DEV scope takes it in too (R232, R383). -/
def State.sysWrite (s : State) (pa : Nat) (bs : List Byte) : State :=
  let t := s.hostWrite pa bs
  { t with pubDev := stampAll pa bs.length s.stamp t.pubDev }

/-- Bytes of home memory. -/
def State.home (s : State) (pa len : Nat) : List Byte := s.mem.read pa len

/-- A 64-bit word of home memory. -/
def State.homeWord (s : State) (pa : Nat) : Nat := ofLe (s.home pa 8)

/-! ## Translation (R208-R213, R359, R360) -/

/-- Kinds of access (R211). -/
inductive AccKind where
  | fetch
  | load
  | store
  | atomic
  | stackRead
  | stackWrite
  deriving DecidableEq, Repr

/-- log2 of the page size of an SZ field. -/
def pageLog (sz : Nat) : Nat := if sz == 0 then 16 else if sz == 1 then 21 else 30

def leafV (e : Nat) : Bool := bit e 0
def leafR (e : Nat) : Bool := bit e 1
def leafW (e : Nat) : Bool := bit e 2
def leafX (e : Nat) : Bool := bit e 3
def leafPriv (e : Nat) : Bool := bit e 4
def leafC (e : Nat) : Bool := bit e 56
def leafNear (e : Nat) : Bool := bit e 57
def leafProp (e : Nat) : Bool := bit e 58
def leafRepl (e : Nat) : Bool := bit e 59
def leafSync (e : Nat) : Bool := bit e 60
def leafStk (e : Nat) : Bool := bit e 61
def leafPa (e : Nat) : Nat := bits e 55 16 * 2 ^ 16

/-- Domain region of a physical address (R359): the palp domain, 0-191, of a NEAR page. -/
def domainOf (pa : Nat) : Option Nat :=
  if bits pa 46 39 == 0 && bit pa 35 && decide (bits pa 34 30 < 24) then
    some (bits pa 38 36 * 24 + bits pa 34 30)
  else none

/-- A leaf is well formed at its level (R210, R359, R360, R363). -/
def leafOk (level e : Nat) : Bool :=
  let sz := bits e 15 14
  let pa := leafPa e
  let region := bits pa 46 39
  let remote := bit pa 55
  decide (sz ≤ 2) && level + sz == 4 && bits e 63 62 == 0 && bits e 13 5 == 0 &&
    pa % 2 ^ pageLog sz == 0 &&
    !(leafRepl e && (leafProp e || leafSync e || leafNear e || bit pa 38)) &&
    !(leafStk e && (leafSync e || leafRepl e || leafProp e || leafNear e || leafX e)) &&
    (if remote then !leafNear e && !leafRepl e && !leafStk e && region == 0
     else bits pa 54 47 == 0 && decide (region ≤ 3) &&
      (!leafNear e || (domainOf pa).isSome) &&
      (region == 0 ||
        (leafPriv e && !leafC e && !leafX e && !leafNear e && !leafRepl e && !leafSync e && !leafStk e &&
          sz == 0 &&
          (match region with
           | 1 => bits pa 38 30 == 0 && decide (bits pa 23 0 + 2 ^ 16 ≤ 10 * 2 ^ 20)
           | 2 => decide (bits pa 38 0 < 2 ^ 20) && !leafW e
           | _ => decide (bits pa 38 0 < 2 ^ 16) && !leafW e))))

/-- The index bits of a level (R208). -/
def levelIndex (level va : Nat) : Nat :=
  match level with
  | 0 => bits va 55 48
  | 1 => bits va 47 39
  | 2 => bits va 38 30
  | 3 => bits va 29 21
  | _ => bits va 20 16

/-- The walk (R208): from a table at a level, the leaf for an address, if a valid one is there; `word` reads the
tables. -/
def walkFrom (word : Nat → Nat) (va : Nat) : Nat → Nat → Nat → Option Nat
  | 0, _, _ => none
  | n + 1, level, table =>
    let e := word (table + 8 * levelIndex level va)
    if !leafV e then none
    else if leafR e || leafW e || leafX e then
      if 2 ≤ level && leafOk level e then some e else none
    else if bits e 63 56 != 0 then none
    else walkFrom word va n (level + 1) (bits e 55 8 * 2 ^ 8)

/-- The root table of a context; a control core walks from its CR.PTROOT (R374). -/
def State.rootOf (s : State) (w : Wave) : Nat :=
  match w.control with
  | some c => bits (s.ctl c).root.toNat 55 8 * 2 ^ 8
  | none => (s.context (s.ctxOf w)).root

/-- A word of a table as a walk reads it: a marked word reads as zero (R216). -/
def State.walkWord (s : State) (pa : Nat) : Nat := if s.bad.contains pa then 0 else s.homeWord pa

/-- Soft errors that the management port reports (R409): 0 corrected, 1 uncorrectable ones and the reads of marked words that
no wave or engine counts, 2 remote accesses not delivered. -/
def State.countErrors (s : State) (k n : Nat) : State :=
  if n == 0 then s else { s with power := { s.power with counts := s.power.counts.put k (s.power.counts.get 0 k + n) } }

/-- Marked table words that a walk meets: it ends at the first, which reads as an invalid entry (R216). -/
def State.walkBad (s : State) (va : Nat) : Nat → Nat → Nat → Nat
  | 0, _, _ => 0
  | n + 1, level, table =>
    let a := table + 8 * levelIndex level va
    if s.bad.contains a then 1
    else
      let e := s.homeWord a
      if !leafV e || leafR e || leafW e || leafX e || bits e 63 56 != 0 then 0
      else s.walkBad va n (level + 1) (bits e 55 8 * 2 ^ 8)

/-- The walk of an address from a root table. -/
def State.walk (s : State) (root va : Nat) : Option Nat := walkFrom s.walkWord va 5 0 root

/-- An entry translates an address. -/
def TlbEntry.covers (t : TlbEntry) (ctx unit va : Nat) : Bool :=
  t.ctx == ctx && t.cluster == unit && va / 2 ^ t.size == t.base / 2 ^ t.size

/-- The translation that a core's TLB or its cluster's holds, or what the walk finds (R212): the leaf, or none on a
translation fault. -/
def State.leafFor (s : State) (ctx core root va : Nat) : Option Nat :=
  match s.tlb1.find? fun t => t.covers ctx core va with
  | some t => some t.leaf.toNat
  | none => match s.tlb.find? fun t => t.covers ctx (core / 4) va with
    | some t => some t.leaf.toNat
    | none => s.walk root va

/-- The translation that a cluster's TLB holds, or what the walk finds: a palp command's (R295). -/
def State.leafFor2 (s : State) (ctx cluster root va : Nat) : Option Nat :=
  match s.tlb.find? fun t => t.covers ctx cluster va with
  | some t => some t.leaf.toNat
  | none => s.walk root va

/-- The marked words that the walks of addresses which no TLB translates read for a wave are counted (R216). -/
def State.countWalks (s : State) (w : Wave) (vas : List Nat) : State :=
  if s.bad.isEmpty then s
  else s.countErrors 1 ((vas.map fun va =>
    if (s.leafFor (s.ctxOf w) (s.coreOf w) (s.rootOf w) va).isSome then 0 else s.walkBad va 5 0 (s.rootOf w)).sum)

/-- The marked words of home memory that a read touches are counted by the device. -/
def State.countRead (s : State) (pa n : Nat) : State :=
  if s.bad.isEmpty then s else s.countErrors 1 ((s.bad.filter fun a => decide (a < pa + n) && decide (pa < a + 8)).length)

/-- The physical address of `va` under a leaf. -/
def leafAddr (leaf va : Nat) : Nat := leafPa leaf + va % 2 ^ pageLog (bits leaf 15 14)

/-- A TLB of `cap` entries for each unit keeps a translation; a full one loses its oldest entry (log 17). -/
def keepEntry (cap : Nat) (ts : List TlbEntry) (ctx unit va leaf : Nat) : List TlbEntry :=
  let sz := pageLog (bits leaf 15 14)
  if ts.any fun t => t.covers ctx unit va then ts
  else
    let mine := ts.filter fun t => t.cluster == unit
    (if cap ≤ mine.length then ts.erase (mine.headD ⟨0, 0, 0, 0, 0⟩) else ts) ++
      [⟨ctx, unit, va / 2 ^ sz * 2 ^ sz, sz, BitVec.ofNat 64 leaf⟩]

/-- The TLBs of a core and its cluster keep a translation (R212). -/
def State.fill (s : State) (ctx core va leaf : Nat) : State :=
  { s with tlb1 := keepEntry 96 s.tlb1 ctx core va leaf, tlb := keepEntry 4096 s.tlb ctx (core / 4) va leaf }

/-- A cluster's TLB keeps one. -/
def State.fill2 (s : State) (ctx cluster va leaf : Nat) : State :=
  { s with tlb := keepEntry 4096 s.tlb ctx cluster va leaf }

/-- Word `i` of a schedule block, and the coverage map's bytes (R183). -/
def schWord (ws : List (BitVec 64)) (i : Nat) : Nat := (ws.getD i 0).toNat
def schExt (ws : List (BitVec 64)) (d : Nat) : Nat := bits (schWord ws (d / 2)) (32 * (d % 2) + 31) (32 * (d % 2))
def schQ (ws : List (BitVec 64)) (d : Nat) : Nat := bits (schWord ws 2) (16 * d + 15) (16 * d)
def schMap (ws : List (BitVec 64)) : Nat := schWord ws 11
/-- Cells in a dimension. -/
def schC (ws : List (BitVec 64)) (d : Nat) : Nat := (schExt ws d + schQ ws d - 1) / max (schQ ws d) 1
def schCells (ws : List (BitVec 64)) : Nat := schC ws 0 * schC ws 1 * schC ws 2 * schC ws 3
def schMapBytes (ws : List (BitVec 64)) : Nat := ((schCells ws + 31) / 32 * 8 + 63) / 64 * 64

/-- The pages that a range of bytes of a context lies on: the virtual base and the leaf of each. -/
def State.pagesOf (s : State) (ctx va len : Nat) : List (Nat × Nat) :=
  ((List.range ((va + max len 1 - 1) / 2 ^ 16 - va / 2 ^ 16 + 1)).filterMap fun i =>
    let a := (va / 2 ^ 16 + i) * 2 ^ 16
    (s.walk (s.context ctx).root a).map fun leaf => (a / 2 ^ pageLog (bits leaf 15 14) * 2 ^ pageLog (bits leaf 15 14), leaf)).eraseDups

/-- Two pages of physical memory overlap. -/
def leafMeets (a b : Nat) : Bool :=
  decide (leafPa a < leafPa b + 2 ^ pageLog (bits b 15 14)) && decide (leafPa b < leafPa a + 2 ^ pageLog (bits a 15 14))

/-- A page that holds a byte of the coverage map of a running launch of the context's process is mapped
read-only, in every mapping of the process (R183). -/
def State.mapGuarded (s : State) (ctx leaf : Nat) : Bool :=
  s.launches.any fun p =>
    let l := p.2
    l.used && l.guarded && !l.ended && (l.ctx == ctx || (s.context l.ctx).pid == (s.context ctx).pid) &&
      (s.pagesOf l.ctx (schMap l.sched) (schMapBytes l.sched)).any fun q => leafMeets q.2 leaf

/-- The permission an access needs (R211, R21): STK pages only for the call stack and the call stack only
there. -/
def leafAllows (kind : AccKind) (priv : Bool) (leaf : Nat) : Bool :=
  (priv || !leafPriv leaf) &&
    match kind with
    | .fetch => leafX leaf && !leafStk leaf
    | .load => leafR leaf && !leafStk leaf
    | .store => leafW leaf && !leafStk leaf
    | .atomic => leafR leaf && leafW leaf && !leafStk leaf && !leafRepl leaf
    | .stackRead => leafStk leaf && leafR leaf
    | .stackWrite => leafStk leaf && leafW leaf

/-- What translating an access of a wave gives. -/
inductive Trans where
  | ok (pa leaf : Nat)
  | fault
  | denied
  deriving DecidableEq, Repr

/-- A physical address that names this device as a remote address does (R363). -/
def ownRemote (pa : Nat) : Bool := bit pa 55 && bits pa 54 47 == Config.device.toNat

/-- A physical address under a leaf as this device reaches it: a remote address of its own is that of its home memory, past
every cache (R363). -/
def reached (leaf pa : Nat) : Trans :=
  if ownRemote pa then .ok (bits pa 38 0) (if leafC leaf then leaf - 2 ^ 56 else leaf) else .ok pa leaf

/-- What a leaf gives an access. -/
def State.allowed (s : State) (w : Wave) (kind : AccKind) (va leaf : Nat) : Trans :=
  let wr := kind == .store || kind == .atomic
  if leafAllows kind w.priv leaf && !(wr && s.mapGuarded (s.ctxOf w) leaf) then reached leaf (leafAddr leaf va)
  else .denied

/-- Translate an access by wave `w`. -/
def State.translate (s : State) (w : Wave) (kind : AccKind) (va : Nat) : Trans :=
  match s.leafFor (s.ctxOf w) (s.coreOf w) (s.rootOf w) va with
  | none => .fault
  | some leaf => s.allowed w kind va leaf

/-- The TLBs keep the translations that an instruction's lanes used. -/
def State.fills (s : State) (w : Wave) (vas : List Nat) : State :=
  vas.foldl (fun s va =>
    match s.leafFor (s.ctxOf w) (s.coreOf w) (s.rootOf w) va with
    | some leaf => s.fill (s.ctxOf w) (s.coreOf w) va leaf
    | none => s) s

/-- The copy of a replicated page that a die's loads read (R211, R360). -/
def copyFor (die leaf pa : Nat) : Nat := if leafRepl leaf && die == 1 then pa ^^^ 2 ^ 38 else pa

/-- The addresses that a store reaches: both copies of a replicated page. -/
def copiesFor (leaf pa : Nat) : List Nat := if leafRepl leaf then [pa, pa ^^^ 2 ^ 38] else [pa]

/-! ## Instances of block and gang scope (R172, R177, R202) -/

/-- Whether a scratch buffer (class 2), barrier (3) or convergence register (4) has gang scope (R399). -/
def Kernel.gangScope (k : Kernel) (cls name : Nat) : Bool := ((k.info cls name).map (·.gang)).getD false

/-- The declared size: a buffer's bytes, a barrier's arrival count, a register's member count (R399). -/
def Kernel.sizeOf (k : Kernel) (cls name dflt : Nat) : Nat := ((k.info cls name).map (·.size)).getD dflt

/-- The barrier instance that block `b` of the kernel reaches. -/
def State.bar (s : State) (b name : Nat) : Barrier :=
  let k := (s.launch (s.gang (s.block b).gang).launch).kernel
  if k.gangScope 3 name then (s.gang (s.block b).gang).bars.get .start name else (s.block b).bars.get .start name

def State.setBar (s : State) (b name : Nat) (v : Barrier) : State :=
  let g := (s.block b).gang
  let k := (s.launch (s.gang g).launch).kernel
  if k.gangScope 3 name then s.setGang g { s.gang g with bars := (s.gang g).bars.put name v }
  else s.setBlock b { s.block b with bars := (s.block b).bars.put name v }

/-- A number for the barrier instance that block `b` reaches, for what its arrivals tell (R238): those of the open
phase, and with one more those of the phase last completed. -/
def State.barKey (s : State) (b name : Nat) : Nat :=
  let g := (s.block b).gang
  2 * ((if (s.launch (s.gang g).launch).kernel.gangScope 3 name then 2 * g + 1 else 2 * b) * 64 + name)

/-- An arrival tells of publications. -/
def State.tellBar (s : State) (b name : Nat) (ns : List Nat) : State :=
  if ns.isEmpty then s
  else { s with barKnown := s.barKnown.put (s.barKey b name) (joinKnown (s.barKnown.get [] (s.barKey b name)) ns) }

/-- A phase completes: what its arrivals told stands for those that pass its wait. -/
def State.turnBar (s : State) (b name : Nat) : State :=
  if s.barKnown.isEmpty then s
  else
    let q := s.barKey b name
    { s with barKnown := (s.barKnown.put (q + 1) (s.barKnown.get [] q)).del q }

/-- `arrive(b)` of R174: the count rises; the completing arrival resets it and flips the phase. -/
def State.arrive (s : State) (b name : Nat) : State :=
  let k := (s.launch (s.gang (s.block b).gang).launch).kernel
  let v := s.bar b name
  if v.count + 1 = k.sizeOf 3 name 1 then (s.turnBar b name).setBar b name ⟨0, !v.phase⟩
  else s.setBar b name ⟨v.count + 1, v.phase⟩

/-- The scope of a barrier's release and acquire (R175). -/
def State.barScope (s : State) (b name : Nat) : Nat :=
  let k := (s.launch (s.gang (s.block b).gang).launch).kernel
  if k.gangScope 3 name then 1 else 0

/-- The convergence register that block `b` reaches. -/
def State.conv (s : State) (b name : Nat) : Conv :=
  let k := (s.launch (s.gang (s.block b).gang).launch).kernel
  if k.gangScope 4 name then (s.gang (s.block b).gang).convs.get .empty name else (s.block b).convs.get .empty name

def State.setConv (s : State) (b name : Nat) (v : Conv) : State :=
  let g := (s.block b).gang
  let k := (s.launch (s.gang g).launch).kernel
  if k.gangScope 4 name then s.setGang g { s.gang g with convs := (s.gang g).convs.put name v }
  else s.setBlock b { s.block b with convs := (s.block b).convs.put name v }

/-- A number for the scratch instance that block `b` reaches under a buffer name. -/
def State.instance? (s : State) (b buf : Nat) : Nat :=
  let g := (s.block b).gang
  if (s.launch (s.gang g).launch).kernel.gangScope 2 buf then (2 * g + 1) * 256 + buf else 2 * b * 256 + buf

def State.scratch (s : State) (b buf : Nat) : Scratch :=
  let g := (s.block b).gang
  if (s.launch (s.gang g).launch).kernel.gangScope 2 buf then (s.gang g).scratch.get .fresh buf
  else (s.block b).scratch.get .fresh buf

def State.setScratch (s : State) (b buf : Nat) (v : Scratch) : State :=
  let g := (s.block b).gang
  if (s.launch (s.gang g).launch).kernel.gangScope 2 buf then
    s.setGang g { s.gang g with scratch := (s.gang g).scratch.put buf v }
  else s.setBlock b { s.block b with scratch := (s.block b).scratch.put buf v }

/-- The declared size of a buffer (R204). -/
def State.scratchSize (s : State) (b buf : Nat) : Nat :=
  (s.launch (s.gang (s.block b).gang).launch).kernel.sizeOf 2 buf 0

/-- A scratch byte as lanes read it: an undefined value until it is first written (R204). -/
def State.scratchByte (s : State) (b buf off : Nat) : Byte :=
  match (s.scratch b buf).bytes.find? fun p => p.1 == off with
  | some (_, v) => v
  | none => BitVec.ofNat 8 (s.undef (tagByte (buf * 2 ^ 32 + off))).toNat

/-- A number for a byte of a scratch instance. -/
def State.scratchKey (s : State) (b buf off : Nat) : Nat := s.instance? b buf * 2 ^ 32 + off

/-- The bytes of a buffer that lane stores wrote without a later FOPND, as an engine operation finds them at its issue
(R229); with a wave, only its own. -/
def State.unfenced (s : State) (b buf : Nat) (k : Option Nat) : List Nat :=
  ((s.scratch b buf).unfenced.filter fun u => k.all (· == u.2)).map fun u => s.scratchKey b buf u.1

/-- A marked word of a buffer covers an offset (R216). -/
def State.markedScratch (s : State) (b buf off : Nat) : Bool :=
  s.badNames.any fun e => match e with
    | .scratch c m o => s.instance? c m == s.instance? b buf && decide (o ≤ off) && decide (off < o + 8)
    | _ => false

/-- A scratch byte as an engine operation reads it: undefined where `stale`, the bytes unfenced at its issue, has it
(R229); a marked word reads as zero. -/
def State.scratchEngine (s : State) (stale : List Nat) (b buf off : Nat) : Byte :=
  if stale.contains (s.scratchKey b buf off) then BitVec.ofNat 8 (s.undef (tagByte (buf * 2 ^ 32 + off))).toNat
  else if s.markedScratch b buf off then 0
  else s.scratchByte b buf off

/-- CR.ERRS after `n` words read as zero (R332): the count saturates, and the first read is logged. -/
def errsAfter (e : BitVec 64) (src cls name n : Nat) : BitVec 64 :=
  let x := e.toNat
  let c := min 65535 (bits x 47 32 + n)
  BitVec.ofNat 64 (c * 2 ^ 32 +
    (if bit x 0 then x % 2 ^ 32 else name % 65536 * 2 ^ 16 + cls * 256 + src * 2 + 1))

/-- CR.ERRS after a note. -/
def ErrNote.apply (e : BitVec 64) : ErrNote → BitVec 64
  | .read src cls name n => errsAfter e src cls name n
  | .clear b => e &&& ~~~b

/-- What the issue in progress does to its wave's CR.ERRS. -/
def State.noteErr (s : State) (k : Nat) (x : ErrNote) : State :=
  let t := s.onWave k fun w => { w with errs := x.apply w.errs }
  if s.iss.granted && s.iss.wave == k then { t with iss := { s.iss with notes := s.iss.notes ++ [x] } } else t

/-- `n` words have been read as zero. -/
def State.noteErrs (s : State) (k src cls name n : Nat) : State :=
  if n == 0 then s else s.noteErr k (.read src cls name n)

/-- A write under a posted matrix operation makes the elements that depend on it undefined (R242): the
bytes are noted until the completion wait passes. -/
def State.touch (s : State) (b buf off len : Nat) : State :=
  let i := s.instance? b buf
  { s with mats := s.mats.map fun p =>
      let m := p.2
      if m.posted.isSome && m.parts.any (fun q =>
          s.instance? q.block m.ops.ab.toNat == i ||
            (!bit m.ops.h.mod.toNat 0 && s.instance? q.block m.ops.bn.toNat == i)) then
        (p.1, { m with dirty := m.dirty ++ (List.range len).map fun j => (i, off + j) })
      else p }

/-- Marked words of a buffer that lie in bytes written whole lose their marks (R216). -/
def State.unmarkScratch (s : State) (b buf off len : Nat) : State :=
  if s.badNames.isEmpty then s
  else { s with badNames := s.badNames.filter fun (e : ErrPlace) => match e with
    | .scratch c m o => !(s.instance? c m == s.instance? b buf && decide (off ≤ o) && decide (o + 8 ≤ off + len))
    | _ => true }

/-- A write of scratch bytes: by lanes of wave `k` (not yet fenced for engines) or by an engine. DESIGN CHOICE (log 74):
every wave that reaches the instance sees it at once (R234). -/
def State.writeScratch (s : State) (b buf off : Nat) (bs : List Byte) (lane : Option Nat) : State :=
  let i := s.scratch b buf
  let ps := bs.zipIdx.map fun p => (off + p.2, p.1)
  let i := { i with
    dirty := ((ps.map fun p => p.1 / 128).eraseDups).foldl (fun d g => if d.contains g then d else d ++ [g]) i.dirty
    bytes := i.bytes.puts ps
    unfenced := match lane with
      | some k => i.unfenced.puts (ps.map fun p => (p.1, k))
      | none => i.unfenced.filter fun u => !(ps.any fun p => p.1 == u.1) }
  ((s.setScratch b buf i).touch b buf off bs.length)

/-- An engine writes undefined values: each read of these bytes may give another pattern (R10). -/
def State.blurScratch (s : State) (b buf off len : Nat) : State :=
  let t := s.writeScratch b buf off (List.replicate len 0) none
  let i := t.scratch b buf
  t.setScratch b buf { i with bytes := (List.range len).foldl (fun x j => x.del (off + j)) i.bytes }

/-- A scratch pointer (R202). -/
def scratchPtr (buf off : Nat) : BitVec 64 := BitVec.ofNat 64 (0xFE * 2 ^ 56 + buf * 2 ^ 48 + off % 2 ^ 32)

/-! ## Program counter and fetch (R18, R19, R41) -/

/-- The PC after an instruction of `n` words that begins at `pc` (R19). DESIGN CHOICE (log 60): after the last packet of
the 56-bit address space it is 0, so that bits 63:56 stay zero (R18). -/
def nextPc (pc : BitVec 64) (n : Nat) : BitVec 64 :=
  let slot := bits pc.toNat 3 2
  let base := pc.toNat / 16 * 16
  if slot + n ≤ 2 then BitVec.ofNat 64 (base + 4 * (slot + n)) else BitVec.ofNat 64 ((base + 16) % 2 ^ 56)

/-- The packet at an address of home memory as it stood after the write of stamp `c`, of those that have become visible to
the wave since its last FENCEI (R41). Marked words read as zero (R216). -/
def State.versionAt (s : State) (k pa c : Nat) : List Byte :=
  (List.range 16).map fun i =>
    if s.bad.contains ((pa + i) / 8 * 8) then 0
    else s.byteAt (pa + i) (max ((s.wave k).code.get 0 (pa + i)) (min ((s.seenOf k).view.get 0 (pa + i)) c))

/-- The versions of a packet that the wave may fetch: the one that its last FENCEI shows, and what each write that has
become visible since has made of it. -/
def State.versions (s : State) (k pa : Nat) : List (List Byte) :=
  let cuts := (List.range 16).flatMap fun i => ((s.hist.get [] (pa + i)).map Prod.fst).filter fun n =>
    decide ((s.wave k).code.get 0 (pa + i) < n) && decide (n ≤ (s.seenOf k).view.get 0 (pa + i))
  ((0 :: cuts.eraseDups).map (s.versionAt k pa)).eraseDups

/-- The packet at a translated address (R41), read as one: where there are several versions, which it is is left open. -/
def State.packetAt (s : State) (k pa : Nat) : Packet :=
  match s.versions k pa with
  | [v] => Packet.ofBytes v
  | vs => Packet.ofBytes (vs.getD (s.choose (tagMisc pa) vs.length) [])

/-- The packet that a fetch through a leaf reads: of another device's page a free value (R363, log 35). -/
def State.fetchPacket (s : State) (k pa leaf : Nat) : Packet :=
  if bit pa 55 then Packet.ofBytes ((List.range 16).map fun i => BitVec.ofNat 8 (s.undef (tagByte (pa + i))).toNat)
  else s.packetAt k (copyFor (s.dieOf (s.wave k)) leaf pa)

/-- Words an instruction occupies. -/
def wordsOf (w : Nat) : Nat := match lengthField w with | 1 => 2 | 2 => 3 | _ => 1

/-- What fetching the packet that holds `pc` gives (R38, R211): it needs X. -/
def State.fetch (s : State) (k : Nat) (pc : BitVec 64) : Trans :=
  s.translate (s.wave k) .fetch (pc.toNat / 16 * 16)

/-- The words of the instruction that begins at a slot of a packet. -/
def claimWords (p : Packet) (slot : Nat) : List (BitVec 32) :=
  (List.range (wordsOf (p.word slot))).map fun i =>
    BitVec.ofNat 32 (if slot + i ≤ 2 then p.word (slot + i) else 0)

/-- The base of the packet that holds a PC. -/
def packetBase (pc : BitVec 64) : BitVec 64 := BitVec.ofNat 64 (pc.toNat / 16 * 16)

/-- The packet that a thread is within at a PC, as it fetched it; none where it has yet to fetch it (R41). -/
def Lane.within (t : Lane) (pc : BitVec 64) : Option Packet :=
  match t.code with
  | some (b, p) => if b == packetBase pc then some p else none
  | none => none

/-- Marked words of a packet that a fetch reads are counted (R216). -/
def State.countFetch (s : State) (k : Nat) (pc : BitVec 64) : State :=
  if s.bad.isEmpty then s
  else match s.fetch k pc with
    | .ok pa leaf => if bit pa 55 then s else s.countRead (copyFor (s.dieOf (s.wave k)) leaf pa) 16
    | _ => s

/-- The packet that holds a PC, as a fetch would read it; none where it cannot. -/
def State.packetOf (s : State) (k : Nat) (pc : BitVec 64) : Option Packet :=
  match s.fetch k pc with
  | .ok pa leaf => some (s.fetchPacket k pa leaf)
  | _ => none

/-- The packet that holds a PC as lane `l` meets it: the one that the lane has fetched, or a fetch. -/
def State.lanePacket (s : State) (k l : Nat) (pc : BitVec 64) : Option Packet :=
  match ((s.wave k).lane l).within pc with
  | some p => some p
  | none => s.packetOf k pc

/-- The instruction words at a PC of a packet; empty where there is none. -/
def wordsIn (p : Option Packet) (pc : BitVec 64) : List (BitVec 32) :=
  match p with
  | some p => claimWords p (bits pc.toNat 3 2)
  | none => []

/-- The instruction words at a PC, as lane `l` meets them. -/
def State.wordsOfLane (s : State) (k l : Nat) (pc : BitVec 64) : List (BitVec 32) := wordsIn (s.lanePacket k l pc) pc

/-- The instruction words at a PC that a transfer leads to. -/
def State.wordsAt (s : State) (k : Nat) (pc : BitVec 64) : List (BitVec 32) := wordsIn (s.packetOf k pc) pc

/-! ## Accumulator summary (R275) -/

/-- What ACCTEST writes for a tile. -/
def AccTile.summary (t : AccTile) : BitVec 64 :=
  let has (q : Spec) := t.elems.any fun p => p.2.spec == q
  let loss := t.elems.any fun p => p.2.loss
  BitVec.ofNat 64
    ((match t.exp with | some e => wrap 16 e * 2 ^ 48 | none => 16) + t.rc * 2 ^ 16 +
      (has .ninf).toNat * 8 + (has .pinf).toNat * 4 + (has .nan).toNat * 2 + loss.toNat)

/-- The elements of a tile that a soft error marked. -/
def State.badTile (s : State) (b t : Nat) : List Nat :=
  s.badNames.filterMap fun e => match e with
    | .tile x y i => if x == b && y == t then some i else none
    | _ => none

/-- A tile as ACCTEST reads it: elements that are marked, or whose values are undefined, are left out. -/
def State.tileShown (s : State) (b t : Nat) : AccTile :=
  let v := (s.block b).tiles.get .zero t
  { v with elems := (s.badTile b t ++ v.undefs).foldl (fun es i => es.del i) v.elems }

/-- The bits of the summary that undefined values leave open: SPEC and LOSS bits that no other element sets, and E and RC
where those are undefined (R10, log 9). -/
def AccTile.vague (t shown : AccTile) : BitVec 64 :=
  (if t.undefs.isEmpty then 0 else 15#64 &&& ~~~shown.summary) ||| (if t.blur then 0xFFFF0000FFFF0010#64 else 0)

/-- An operation on a block's tile is posted and not complete. -/
def State.tileBusy (s : State) (b t : Nat) : Bool :=
  s.mats.any fun p => p.2.posted.isSome && !p.2.complete && p.2.ops.tl.toNat == t && p.2.parts.any fun q => q.block == b

/-- The summary's bits that are undefined: all of them while an operation on the tile is posted and not complete. -/
def State.tileVague (s : State) (b t : Nat) : BitVec 64 :=
  if s.tileBusy b t then BitVec.allOnes 64 else ((s.block b).tiles.get .zero t).vague (s.tileShown b t)

/-- A block's tile is written (R330). -/
def State.putTile (s : State) (b n : Nat) (t : AccTile) : State :=
  s.setBlock b { s.block b with
    tiles := (s.block b).tiles.put n t, trecent := n :: (s.block b).trecent.filter (· != n) }

/-! ## Pinned names (R321) -/

/-- Two blocks reach one instance under a buffer name. -/
def State.sameBuf (s : State) (b c name : Nat) : Bool := s.instance? b name == s.instance? c name

/-- A name of a block is pinned: an operation in flight needs it in its place (R321). -/
def State.pinned (s : State) (b cls name : Nat) : Bool :=
  match cls with
  | 1 =>
    s.copies.any (fun p => p.2.block == b && p.2.token == name) ||
      s.palps.any (fun p => p.2.block == b && (p.2.token == name || p.2.name == name || p.2.name + 1 == name)) ||
      s.colls.any (fun p => p.2.block == b && p.2.token == name) ||
      s.mats.any fun p => !p.2.complete && bit p.2.ops.h.mod.toNat 0 && (s.wave p.2.wave).block == b &&
        (p.2.ops.bn.toNat == name || p.2.ops.bn.toNat + 1 == name)
  | 2 =>
    s.copies.any (fun p => p.2.buf == name && s.sameBuf p.2.block b name) ||
      s.palps.any (fun p => !bit p.2.ctl.toNat 62 && p.2.buf == name && s.sameBuf p.2.block b name) ||
      s.colls.any (fun p => (p.2.dbuf == name || p.2.sbuf == name) && s.sameBuf p.2.block b name) ||
      s.mats.any fun p => !p.2.complete &&
        (p.2.ops.ab.toNat == name || (!bit p.2.ops.h.mod.toNat 0 && p.2.ops.bn.toNat == name)) &&
        p.2.parts.any fun q => s.sameBuf q.block b name
  | 5 => s.mats.any fun p => !p.2.complete && p.2.ops.tl.toNat == name && p.2.parts.any fun q => q.block == b
  | _ => false

/-! ## Places (R206, R316, R317) -/

/-- Size in units of its class's places, alignment, and bytes of a spill slot (R24, R316, R317): lane names in
half rows, uniform names and tiles one each, buffers in bytes. -/
def NameInfo.extent (n : NameInfo) (width : Nat) : Nat × Nat × Nat :=
  match n.cls with
  | 0 => let h := max (width * n.size / 512) 1; (h, h, width * n.size / 8)
  | 2 => (n.size, 128, n.size)
  | 1 => (1, 1, 8)
  | _ => (1, 1, 32768)

/-- Two names' intervals overlap. -/
def NameInfo.overlaps (a b : NameInfo) : Bool :=
  a.live.isEmpty || b.live.isEmpty ||
    a.live.any fun i => b.live.any fun j => decide (i.1 ≤ j.2) && decide (j.1 ≤ i.2)

/-- Where the places of a class in a share begin and end: those of buffers are vault offsets, below the spill
region. -/
def Share.first (h : Share) (cls : Nat) : Nat := if cls == 2 then h.vbase else 0
def Share.cap (h : Share) (cls : Nat) : Nat :=
  match cls with
  | 0 => 2 * h.rows
  | 1 => h.unif
  | 2 => h.spill
  | _ => h.tiles

/-- Where a share's part of the vault ends. -/
def Share.vend (h : Share) : Nat := h.vbase + 1024 * h.kib

/-- The place word of a position in a share (R317). -/
def placeAt (cls p : Nat) : BitVec 64 :=
  BitVec.ofNat 64 (match cls with
    | 0 => 2 ^ 60 + p % 2 * 2 ^ 56 + p / 2
    | 1 => 2 * 2 ^ 60 + p
    | 2 => 4 * 2 ^ 60 + p % 2 ^ 24
    | _ => 3 * 2 ^ 60 + p)

/-- The place word of a spill slot of a kind: 4 local, 5 lateral in a cluster, 6 HBM (R317). -/
def slotWord (h : Share) (kind a : Nat) : BitVec 64 :=
  BitVec.ofNat 64 (kind * 2 ^ 60 + match kind with
    | 4 => a % 2 ^ 24
    | 5 => h.latc % 64 * 2 ^ 24 + a % 2 ^ 24
    | _ => a % 2 ^ 56)

/-- The position that a place word of a class names; none for a spill slot. -/
def placePos (cls : Nat) (w : BitVec 64) : Option Nat :=
  let x := w.toNat
  match cls, bits x 63 60 with
  | 0, 1 => some (2 * bits x 55 0 + (bit x 56).toNat)
  | 1, 2 => some (bits x 55 0)
  | 5, 3 => some (bits x 55 0)
  | 2, 4 => some (bits x 23 0)
  | _, _ => none

/-- A binding under construction: the table that it replaces, place words by key, places taken, slots taken by kind, the
keys of pinned names. -/
structure Binding where
  old    : Tab (BitVec 64)
  places : Tab (BitVec 64)
  taken  : List (NameInfo × Nat × Nat)
  slots  : List (Nat × Nat × Nat)
  pins   : List Nat
  deriving DecidableEq, Repr

/-- Whether two names interfere (R316): at a rebind every two names of the live set do. -/
def interferes (live : List Nat) (a b : NameInfo) : Bool :=
  a.overlaps b || (live.contains a.key && live.contains b.key)

/-- What stands in the local vault: slots, and buffers. -/
def Binding.inVault (t : Binding) : List (Nat × Nat) :=
  (t.slots.filterMap fun q => if q.1 == 4 then some q.2 else none) ++
    t.taken.filterMap fun q => if q.1.cls == 2 then some q.2 else none

/-- A place taken is barred to a name: one of a name that interferes, or of a pinned name, which no other name is given; one
that held the place beside it keeps it (R316, R321, R357). -/
def Binding.bars (t : Binding) (live : List Nat) (n : NameInfo) (q : NameInfo × Nat × Nat) : Bool :=
  q.1.cls == n.cls && (interferes live n q.1 ||
    (t.pins.contains q.1.key && placePos n.cls (t.old.get 0 n.key) != some q.2.1))

/-- The place of a name within the share. -/
def Binding.find (t : Binding) (h : Share) (width : Nat) (live : List Nat) (n : NameInfo) : Option Nat :=
  let x := n.extent width
  let there := (t.taken.filterMap fun q => if t.bars live n q then some q.2 else none) ++
    if n.cls == 2 then t.slots.filterMap fun q => if q.1 == 4 then some q.2 else none else []
  lowestFree (fun p => meetEnd there p x.1) x.1 x.2.1 (h.cap n.cls) (there.length + 1) (h.first n.cls)

/-- The next slot of a region of a kind from its start. -/
def Binding.slot (t : Binding) (kind start stop size : Nat) : Option Nat :=
  let there := if kind == 4 then t.inVault else t.slots.filterMap fun q => if q.1 == kind then some q.2 else none
  lowestFree (fun p => meetEnd there p size) size 128 stop (there.length + 1) (upTo start 128)

/-- A share's spill regions in order (R316): local, lateral, HBM; the kind, the start and the end. -/
def Share.regions (h : Share) : List (Nat × Nat × Nat) :=
  [(4, h.spill, h.vend), (5, h.lat, h.lat + 1024 * h.latk), (6, h.hbm, 2 ^ 56)]

/-- Bind one name (R316): in the share, else in a slot of the first spill region that has one. -/
def Binding.bind (t : Binding) (h : Share) (width : Nat) (live : List Nat) (n : NameInfo) : Binding :=
  let x := n.extent width
  match t.find h width live n with
  | some p => { t with places := t.places.put n.key (placeAt n.cls p), taken := t.taken ++ [(n, p, x.1)] }
  | none =>
    match h.regions.findSome? fun r => (t.slot r.1 r.2.1 r.2.2 x.2.2).map fun a => (r.1, a) with
    | some (kind, a) => { t with
        places := t.places.put n.key (slotWord h kind a), slots := t.slots ++ [(kind, a, x.2.2)] }
    | none => t

/-- Pinned names keep their places (R316). -/
def Binding.keep (t : Binding) (width : Nat) (n : NameInfo) : Binding :=
  let w := t.old.get 0 n.key
  let x := n.extent width
  let kind := bits w.toNat 63 60
  let t := { t with places := t.places.put n.key w, pins := n.key :: t.pins }
  match placePos n.cls w with
  | some p => { t with taken := t.taken ++ [(n, p, x.1)] }
  | none => { t with slots := t.slots ++ [(kind, if kind == 6 then bits w.toNat 55 0 else bits w.toNat 23 0, x.2.2)] }

/-- The order in which names are placed: descending weight, then class, then number. -/
def NameInfo.sooner (a b : NameInfo) : Bool :=
  if a.weight != b.weight then decide (b.weight < a.weight)
  else if a.cls != b.cls then decide (a.cls < b.cls) else decide (a.name < b.name)

/-- The names of a kernel that receive places in stores: lane and uniform names, buffers, tiles. -/
def Kernel.bound (k : Kernel) : List NameInfo := k.names.filter fun n => n.cls ≤ 2 || n.cls == 5

/-- The binding table of a block for a share (R316), with a live set and the buffers bound with block 0. -/
def State.bindBlock (s : State) (k : Kernel) (b : Nat) (head : Option (Tab (BitVec 64))) (old : Tab (BitVec 64))
    (h : Share) (live : List Nat) : Tab (BitVec 64) :=
  let shared : List (Nat × BitVec 64) := match head with
    | some t => (k.bound.filter fun n => n.cls == 2 && n.gang).map fun n => (n.key, t.get 0 n.key)
    | none => []
  let own := k.bound.filter fun n => !(shared.any fun p => p.1 == n.key)
  let pins := own.filter fun n => Tab.has old n.key && s.pinned b n.cls n.name
  let rest := sortBy NameInfo.sooner (own.filter fun n => !(pins.any fun p => p.key == n.key))
  let t := pins.foldl (fun t n => Binding.keep t k.width n) ⟨old, shared.foldl (fun t p => Tab.put t p.1 p.2) [], [], [], []⟩
  (rest.foldl (fun t n => Binding.bind t h k.width live n) t).places

/-- The kernel of a block. -/
def State.kernelOfBlock (s : State) (b : Nat) : Kernel := (s.launch (s.gang (s.block b).gang).launch).kernel

/-- The names of a block live at a PC that a live lane of it holds (R322). -/
def State.liveSet (s : State) (b : Nat) : List Nat :=
  let pcs := (((s.wavesOf b).flatMap fun k => (s.wave k).live.map fun l => ((s.wave k).lane l).pc.toNat)).eraseDups
  ((s.kernelOfBlock b).bound.filter fun n => pcs.any n.liveAt).map NameInfo.key

/-- The table that block 0 of the block's gang holds; none where the block is it. -/
def State.headTable (s : State) (b : Nat) : Option (Tab (BitVec 64)) :=
  match (s.gang (s.block b).gang).blocks.head? with
  | some c => if c == b then none else some (s.block c).places
  | none => none

/-- A block's pending rebind shrinks its vault share and would move a buffer of gang scope (R319). -/
def State.movesGang (s : State) (b : Nat) : Bool :=
  match (s.block b).rebind with
  | h :: _ =>
    let x := s.block b
    let k := s.kernelOfBlock b
    decide (h.kib < x.share.kib) && (s.headTable b).isNone && (k.bound.any fun n => n.cls == 2 && n.gang) &&
      (let t := s.bindBlock k b none x.places h (s.liveSet b)
       k.bound.any fun n => n.cls == 2 && n.gang && x.places.get 0 n.key != Tab.get 0 t n.key)
  | [] => false

/-- A block's waves are asked to stop for a rebind (R319): its own, or another's of its gang that moves a buffer of
gang scope. -/
def State.rebindStops (s : State) (b : Nat) : Bool :=
  !(s.block b).rebind.isEmpty || (s.gang (s.block b).gang).blocks.any s.movesGang

/-! ## What a name's place holds (R322, R330) -/

/-- A name of a block's kernel shares its place with another, of its class. -/
def NameInfo.sharesWith (n m : NameInfo) (places : Tab (BitVec 64)) : Bool :=
  n.cls == m.cls && (placePos n.cls (places.get 0 n.key)).isSome &&
    placePos n.cls (places.get 0 n.key) == placePos m.cls (places.get 0 m.key)

/-- Of names in one place, the one whose value stands there: one that is live, else the latest written. -/
def holder (ns : List NameInfo) (live : NameInfo → Bool) (recent : List Nat) : Option NameInfo :=
  (ns.find? live).or (recent.findSome? fun m => ns.find? fun n => n.name == m)

/-- The first word of a lane name's place, in the core's lane-register words: those of lane 0's low word; the words of
each of its wave's lanes follow, low words first (R24). -/
def NameInfo.wordAt (n : NameInfo) (places : Tab (BitVec 64)) : Option Nat :=
  (placePos 0 (places.get 0 n.key)).map fun p => 16 * p

/-- What a lane itself holds of a lane name: an undefined value after a kill mark (R52). -/
def State.ownLane (s : State) (k l name : Nat) : BitVec 64 :=
  if ((s.wave k).lane l).dead.contains name then s.undefLane k l name else ((s.wave k).lane l).names.get 0 name

/-- The lane names whose places hold a word of the lane-register store (R24). -/
def State.wordNames (s : State) (k x : Nat) : List NameInfo :=
  let w := s.wave k
  (s.kernelOf w).names.filter fun n => n.cls == 0 && match n.wordAt (s.block w.block).places with
    | some a => decide (a ≤ x) && decide (x < a + w.width * (n.size / 32))
    | none => false

/-- A word of the lane-register store: of the name whose value stands there in the word's lane (R322, R330). -/
def State.rowWord (s : State) (k x : Nat) : Option (BitVec 32) :=
  let w := s.wave k
  let word (n : NameInfo) : Option (Nat × Nat) := (n.wordAt (s.block w.block).places).map fun a => ((x - a) % w.width, (x - a) / w.width)
  let ns := s.wordNames k x
  let l := (((ns.head?).bind word).map Prod.fst).getD 0
  let t := w.lane l
  match holder ns (fun n => n.liveAt t.pc.toNat && !t.exited) t.recent with
  | some n => (word n).map fun q => BitVec.ofNat 32 (bits (s.ownLane k q.1 n.name).toNat (32 * q.2 + 31) (32 * q.2))
  | none => none

/-- The contents of a lane name's place in a lane: its value, or where it is dead, what the names that share its place
hold there (R330). -/
def State.laneContents (s : State) (k l name : Nat) : BitVec 64 :=
  let w := s.wave k
  let v := s.ownLane k l name
  match (s.kernelOf w).info 0 name with
  | none => v
  | some n =>
    if n.liveAt (w.lane l).pc.toNat then v
    else match n.wordAt (s.block w.block).places with
      | none => v
      | some a =>
        let word (j : Nat) : Nat := match s.rowWord k (a + w.width * j + l) with
          | some x => x.toNat
          | none => bits v.toNat (32 * j + 31) (32 * j)
        BitVec.ofNat 64 (word 0 + (if n.size == 32 then 0 else 2 ^ 32 * word 1))

/-- A name is live in a wave: at the PC of one of its lanes. -/
def State.liveIn (s : State) (k : Nat) (n : NameInfo) : Bool :=
  (s.wave k).live.any fun l => n.liveAt ((s.wave k).lane l).pc.toNat

/-- The name whose value stands in the place of a uniform name, or of a tile, of a wave: its own while it is live. -/
def State.standsIn (s : State) (k cls name : Nat) (recent : List Nat) (live : NameInfo → Bool) : Nat :=
  let w := s.wave k
  match (s.kernelOf w).info cls name with
  | none => name
  | some n =>
    if live n then name
    else
      let ns := (s.kernelOf w).names.filter fun m => m.key == n.key || m.sharesWith n (s.block w.block).places
      ((holder ns live recent).map NameInfo.name).getD name

/-! ## Taking a trap (R323-R330) -/

/-- Causes (R326). -/
def causeEncoding : Nat := 0x01
def causeTarget : Nat := 0x02
def causeCanonical : Nat := 0x03
def causeAlign : Nat := 0x04
def causeInvalid : Nat := 0x05
def causeProtection : Nat := 0x06
def causeScope : Nat := 0x07
def causeBounds : Nat := 0x08
def causeCallOver : Nat := 0x10
def causeCallUnder : Nat := 0x11
def causePredOver : Nat := 0x12
def causePredUnder : Nat := 0x13
def causeCtlWrite : Nat := 0x18
def causeCtlValue : Nat := 0x19
def causeSelf : Nat := 0x20
def causeDeadlock : Nat := 0x21
def causeTransfer : Nat := 0x22
def causeBarrier : Nat := 0x23
def causeConvOrphan : Nat := 0x24
def causeConflict : Nat := 0x25
def causeCoverage : Nat := 0x30
def causeOperand : Nat := 0x31
def causeGrant : Nat := 0x32
def causeRight : Nat := 0x33
def causeSchedWrite : Nat := 0x34
def causeSchedule : Nat := 0x35
def causeCopy : Nat := 0x40
def causeEpilogue : Nat := 0x41
def causeNear : Nat := 0x42
def causeSoftware : Nat := 0x50
def causeBreak : Nat := 0x51
def causeStep : Nat := 0x52
def causeWatch : Nat := 0x53
def causePriv : Nat := 0x54

/-- Whether a name is declared in its class (R23). -/
def declaredIn (d : Declared) (cls name : Nat) : Bool :=
  match cls with
  | 0 => decide (name < d.lane)
  | 1 => decide (name < d.unif)
  | 2 => decide (name < d.scr)
  | 3 => decide (name < d.bar)
  | 4 => decide (name < d.conv)
  | 5 => decide (name < d.acc)
  | _ => decide (name < d.res)

/-- The value of a name as a fault record or the debugger view shows it (R330). -/
def State.viewValue (s : State) (k lane cls name : Nat) : BitVec 64 :=
  let w := s.wave k
  let b := w.block
  match cls with
  | 0 => s.laneContents k lane name
  | 1 => s.unifValue w (s.standsIn k 1 name w.urecent (s.liveIn k))
  | 2 => BitVec.ofNat 64 (s.scratchSize b name)
  | 3 => let v := s.bar b name; BitVec.ofNat 64 (v.count + 4096 * v.phase.toNat)
  | 4 => let c := s.conv b name; BitVec.ofNat 64 (c.count + 256 * c.op.isSome.toNat)
  | 5 =>
    let t := s.standsIn k 5 name (s.block b).trecent fun n => (s.wavesOf b).any fun j => s.liveIn j n
    blurred (s.tileShown b t).summary (s.undef (tagUnif (4096 + t))) (s.tileVague b t)
  | _ => (((s.kernelOf w).res.getD name []).head?).getD 0

/-- The place word of a name (R317): its binding-table entry, with PIN as it stands. -/
def State.placeWord (s : State) (b cls name : Nat) : BitVec 64 :=
  let e := (s.block b).places.get 0 (cls * 65536 + name)
  if s.pinned b cls name then e ||| 0x0200000000000000#64 else e

def State.place (s : State) (k cls name : Nat) : BitVec 64 := s.placeWord (s.wave k).block cls name

/-- Whether a name's word is marked by a soft error (R216, R330). -/
def State.marked (s : State) (k lane cls name : Nat) : Bool :=
  s.badNames.any fun p => match p with
    | .laneName w l n => cls == 0 && w == k && l == lane && n == name && !(s.wave k).forwards 0 l n
    | .uniformName w n => cls == 1 && w == k && n == name && !(s.wave k).forwards 1 0 n
    | .tile b n _ => cls == 5 && b == (s.wave k).block && n == name
    | _ => false

/-- Word 0 of an operand entry (R330). -/
def State.entryHead (s : State) (k : Nat) (p : Operand) (undecl : Bool) : BitVec 64 :=
  let ty := (((s.kernelOf (s.wave k)).info p.cls p.name).map (·.type)).getD 0x3F
  BitVec.ofNat 64 (p.role * 2 ^ 32 + p.cls * 2 ^ 28 + undecl.toNat * 2 ^ 25 + p.kill.toNat * 2 ^ 24 +
    (if decide (p.cls ≤ 1) then ty else 0x3F) * 2 ^ 16 + p.name)

/-- VALUE of R330: a marked word reads as zero. -/
def State.shown (s : State) (k lane cls name : Nat) : BitVec 64 :=
  if s.marked k lane cls name then 0 else s.viewValue k lane cls name

/-- An operand entry of a fault record: four words (R330). -/
def State.entry (s : State) (k lane : Nat) (p : Operand) : List (BitVec 64) :=
  if !declaredIn (s.declared (s.wave k)) p.cls p.name then [s.entryHead k p true, 0, 0, 0]
  else [s.entryHead k p false, s.place k p.cls p.name, s.shown k lane p.cls p.name,
    if s.marked k lane p.cls p.name then 1 else 0]

/-- The operands of the instruction whose words are given; none where its opcode is not assigned (R330). -/
def operandsOfWords (priv : Bool) (ws : List (BitVec 32)) : List Operand :=
  let p : Packet := ⟨ws.getD 0 0, ws.getD 1 0, ws.getD 2 0, 0⟩
  match decode .limits priv p 0 with
  | .ok i => operands i
  | .error _ => looseOperands p

/-- A fault record of 32 words (R329). -/
def State.record (s : State) (k : Nat) (t : Trap) (ws : List (BitVec 32)) (trapm noh nowave : Bool) :
    List (BitVec 64) :=
  let w := s.wave k
  let b := s.block w.block
  let g := s.gang b.gang
  let l := s.launch g.launch
  let es := ((operandsOfWords w.priv ws).take 6).flatMap fun p => s.entry k t.lane p
  [BitVec.ofNat 64 (l.pid * 2 ^ 32 + l.tid), BitVec.ofNat 64 l.id,
   BitVec.ofNat 64 (b.index * 2 ^ 56 + t.lane * 2 ^ 40 + w.index * 2 ^ 32 + g.index), t.pc,
   BitVec.ofNat 64 ((ws.getD 1 0).toNat * 2 ^ 32 + (ws.getD 0 0).toNat),
   BitVec.ofNat 64 (t.iex.toNat * 2 ^ 51 + nowave.toNat * 2 ^ 50 + noh.toNat * 2 ^ 49 +
     trapm.toNat * 2 ^ 48 + t.cause * 2 ^ 32 + (ws.getD 2 0).toNat),
   t.addr, maskOf t.lanes] ++ es ++ List.replicate (24 - es.length) 0

/-- Bits of a control core's CR.EVENT are set (R374). -/
def State.signalEvent (s : State) (cc : Nat) (e : BitVec 5) : State :=
  s.setCtl cc { s.ctl cc with event := (s.ctl cc).event ||| e }

/-- The order in which a page of a context was serviced, once it has been (R215). -/
def State.servedAt (s : State) (ctx va : Nat) : Option Nat :=
  (s.serviced.find? fun p => p.1 == ctx && p.2.1 == va / 2 ^ 16).map fun p => p.2.2

/-- An access to a page faults anew: the page awaits service. -/
def State.unserve (s : State) (ctx va : Nat) : State :=
  { s with serviced := s.serviced.filter fun p => !(p.1 == ctx && p.2.1 == va / 2 ^ 16) }

/-- A leaf controller sends a message to the scheduler core, whose CR.EVENT shows it (R374, R375); without a permit it waits
for one. -/
def State.sendUp (s : State) (cluster : Nat) (m : LinkMsg) : State :=
  let c := s.clink cluster
  if c.upPermits == 0 then s.setClink cluster { c with upHeld := c.upHeld ++ [m] }
  else (s.setClink cluster { c with up := c.up ++ [m], upPermits := c.upPermits - 1 }).signalEvent s.sched 1

/-- The leaf controller writes a record to the launch's fault ring of 64 (R329) and tells the scheduler
(R375). The result is the record's address. -/
def State.putRecord (s : State) (launch : Nat) (cluster : Nat) (ws : List (BitVec 64)) : State × BitVec 64 :=
  let l := s.launch launch
  let a := l.ring + 256 * (l.records % 64)
  let s := s.sysWrite a (ws.flatMap fun w => leBytes 8 w.toNat)
  let s := s.setLaunch launch { l with records := l.records + 1 }
  (s.sendUp cluster (.faultRecord launch), BitVec.ofNat 64 a)

/-- A debugger is attached to a launch. -/
def Launch.attached (l : Launch) : Bool := !l.debuggers.isEmpty

/-- A breakpoint under a debugger halts (R350). -/
def State.brkHalts (s : State) (k cause : Nat) : Bool :=
  cause == causeBreak && (s.launch (s.launchOf (s.wave k))).attached

/-- Whether a trap halts the gang (R325, R350): no handler, in trap mode already, or a breakpoint under a
debugger. -/
def State.trapHalts (s : State) (k cause : Nat) : Bool :=
  (s.wave k).trapm || (s.kernelOf (s.wave k)).trap == 0 || s.brkHalts k cause

/-- The registers of a trap's delivery (R324): CR.TRAPC, CR.TRAPA, and CR.EPC of each lane of the set; the set's
instruction has ended. -/
def Wave.trapped (w : Wave) (t : Trap) : Wave :=
  { w with
    trapc := BitVec.ofNat 16 t.cause
    trapa := t.addr
    pend := none
    later := w.later.filter (· != t)
    service := w.service.filter fun c => !(t.lanes.any c.lanes.contains)
    lanes := (w.onLanes t.lanes fun x => { x with
      epc := if t.cause == causeStep then x.pc else t.pc, wait := .none, chain := false }).lanes }

/-- Taking a trap (R324, R325): the wave's long-latency results are received and the thread's windows close; the
registers are written; a fault record is formed; then the lane set enters the kernel's handler in trap mode, or, where
`trapHalts`, the gang halts. A step trap halts its wave alone (R389). A control core has no handler, no gang and no
fault ring: DESIGN CHOICE (log 38), its registers are written, no record is formed and its wave stops. -/
def State.takeTrap (s : State) (k : Nat) (t : Trap) : State :=
  let ws := if s.iss.wave == k && s.iss.pc == t.pc && !s.iss.words.isEmpty then s.iss.words
    else s.wordsOfLane k t.lane t.pc
  let s := (s.landAll k).closeWindows k t.lanes
  let w := s.wave k
  let entry := (s.kernelOf w).trap
  let halts := s.trapHalts k t.cause
  let brk := s.brkHalts k t.cause
  let s := s.onWave k fun w => w.trapped t
  if w.priv then s.onWave k fun w => { w with stopped := true }
  else
    let g := s.gangOf w
    let (s, a) := s.putRecord (s.gang g).launch (s.clusterOf w) (s.record k t ws w.trapm (entry == 0) false)
    if t.cause == causeStep then s.onWave k fun w => { w with stopped := true }
    else if halts then
      (s.setGang g { s.gang g with halted := true, record := (s.gang g).record ++ [a] }).onWave k fun w =>
        if brk then { w with lanes := (w.onLanes t.lanes fun x => { x with wait := .brk }).lanes } else w
    else s.onWave k fun w => { w with
      trapm := true
      handler := t.lanes
      lanes := (w.onLanes t.lanes fun x => { x with pc := entry, code := none }).lanes }

/-- The trap that a wave's delivery is due to: the one raised first; one of a set that was held waits for the end of trap
mode. -/
def Wave.awaiting (w : Wave) : Option Trap := w.pend.or (if w.trapm then none else w.later.head?)

/-- A trap can be delivered to a wave now: no remote response is awaited (R324), every load, store and atomic is
performed (R230), its block is not stopped for a rebind (R323), and none of its lanes is held at a MOLT that is not
performed (R199). -/
def State.deliverable (s : State) (k : Nat) (t : Trap) : Bool :=
  !((s.wave k).flights.any fun f => f.remote.isSome) && !(s.busy k fun a => a.kind != 0 && a.kind != 4) &&
    ((s.wave k).priv || !s.rebindStops (s.wave k).block) &&
    t.lanes.all fun l => match ((s.wave k).lane l).wait with
      | .molt _ _ => false
      | _ => true

/-- A trap is raised: delivered at once where it can be, else later by TRAP_DELIVERY; an earlier one stands before
it, and the instruction that raised this one then executes afresh. -/
def State.raiseTrap (s : State) (k : Nat) (t : Trap) : State :=
  let s := s.onWave k fun w => if (w.pend.isNone && t.lanes.all fun l => match (w.lane l).wait with
      | .molt _ _ => false
      | _ => true) then w.onLanes t.lanes fun x => { x with wait := .none } else w
  if (s.wave k).pend.isSome then s
  else if s.deliverable k t then s.takeTrap k t else s.onWave k fun w => { w with pend := some t }

/-- A trap of a lane set that an operation held: one of another lane set that stands before it is delivered first. -/
def State.raiseHeld (s : State) (k : Nat) (t : Trap) : State :=
  match (s.wave k).pend with
  | some p => if t.lanes.any p.lanes.contains then s else s.onWave k fun w => { w with later := w.later ++ [t] }
  | none => s.raiseTrap k t

/-- The lowest-PC lane set of a wave. -/
def Wave.lowest (w : Wave) : List Nat :=
  let m := (w.live.map fun l => (w.lane l).pc.toNat).foldl min (2 ^ 64)
  w.live.filter fun l => (w.lane l).pc.toNat == m

/-- A trap raised for a wave: its lowest-PC lane set takes it (R324). DEDUCED (log 69): which set that is, and the PC that
CR.EPC receives, are those of the moment at which the trap is raised, also where its delivery waits (R199). -/
def State.raiseWave (s : State) (k cause : Nat) (addr : BitVec 64) : State :=
  let ls := (s.wave k).lowest
  s.raiseTrap k ⟨cause, addr, ls.headD 0, ls, ((s.wave k).lane (ls.headD 0)).pc, false⟩

/-- Trap mode ends (R351): held lane sets are released, counts and hold marks become zero. -/
def State.endTrapMode (s : State) (k : Nat) : State :=
  s.onWave k fun w => { w with
    trapm := false
    handler := []
    lanes := (w.onLanes (List.range w.width) fun x => { x with passed := 0, held := false }).lanes }

/-- Where the return from a trap leads (R351): each lane's CR.EPC, or with NEXT the PC that follows the
instruction there by R19, found from the W field of its first word. -/
def State.returnPcs (s : State) (k : Nat) (ls : List Nat) (next : Bool) : List (Nat × BitVec 64) :=
  ls.map fun l =>
    let e := ((s.wave k).lane l).epc
    (l, if next then nextPc e (wordsOf ((s.wordsAt k e).getD 0 0).toNat) else e)

/-- The return from a trap (R351): the lanes continue at those PCs and trap mode ends. -/
def State.trapReturn (s : State) (k : Nat) (ls : List Nat) (next : Bool) : State :=
  let s' := (s.returnPcs k ls next).foldl (fun s p => s.onWave k fun w =>
    w.setLane p.1 { w.lane p.1 with pc := p.2 }) s
  s'.endTrapMode k

end Sys2Proof.Machine
end

