-- ==== Sys2Proof/Machine/Operands.lean ====
section
/-! DEFINITION. One instruction of a lane set, step by step (R38): its active lanes, the scoreboard, operand
forms, and how it completes, traps or waits. Every Sirgen instruction's meaning is `issue` of its own
effect. -/

namespace Sys2Proof.Machine

/-! ## The predicate stack (R29-R31) -/

/-- Entry at depth `d`: an entry at or below the count reads 0. -/
def Lane.pred (t : Lane) (d : Nat) : Bool := decide (d < t.count) && bit t.preds.toNat d

def Lane.push (t : Lane) (b : Bool) : Lane :=
  { t with preds := BitVec.ofNat 8 (2 * t.preds.toNat + b.toNat), count := t.count + 1 }

def Lane.pop (t : Lane) : Lane :=
  { t with preds := BitVec.ofNat 8 (t.preds.toNat / 2), count := t.count - 1 }

/-- The stack with entry `d` set. -/
def Lane.setPred (t : Lane) (d : Nat) (b : Bool) : Lane :=
  let p := t.preds.toNat
  { t with preds := BitVec.ofNat 8 (if bit p d then (if b then p else p - 2 ^ d) else (if b then p + 2 ^ d else p)) }

/-- Whether a guard holds for a lane (R30). -/
def guardHolds (g : Guard) (t : Lane) : Bool :=
  match g with
  | .always => true
  | .pred neg d => t.pred d.val != neg

/-! ## The lanes of an issue -/

/-- The lanes of the issuing lane set. -/
def State.issuing (s : State) : List Nat := s.cur.live.filter s.iss.lanes.contains

/-- The active lanes (R8): those whose guard holds. -/
def State.active (s : State) (i : Instr) : List Nat :=
  s.issuing.filter fun l => guardHolds (guardOfInstr i) (s.cur.lane l)

/-- A lane name whose value is a result in flight: outside a window on it, or inside one whose value is (R28, R44). -/
def Wave.pendingLane (w : Wave) (l name : Nat) : Bool :=
  match (w.lane l).window false name with
  | some x => x.due.isSome
  | none => w.flights.any fun f => !f.uniform && f.name == name && f.vals.any fun p => p.1 == l

/-- A uniform name whose value is a result or a token in flight, as lane `l` of the issuing wave reads it. -/
def State.pendingUnif (s : State) (l name : Nat) : Bool :=
  match (s.cur.lane l).window true name with
  | some x => x.due.isSome
  | none =>
    s.seen.flights.any (fun f => f.uniform && f.name == name && !f.vals.isEmpty) ||
      s.seen.tokens.any fun t => t.name == name

/-- Some source of the active lanes is not available (R143). -/
def State.pending (s : State) (i : Instr) (act : List Nat) : Bool :=
  (operands i).any fun p => p.read && act.any fun l =>
    match p.cls with
    | 0 => s.cur.pendingLane l p.name
    | 1 => s.pendingUnif l p.name
    | _ => false

/-! ## Operand forms (R25, R55, R88, R89) -/

/-- The operation width that modifier bit 2 selects (R87). -/
def widthOf (o : Ops) : Nat := if bit o.mod.toNat 2 then 64 else 32

/-- A 32-bit immediate across SRC1 and SRC2, or a 10-bit one in SRC2 (R55). -/
def immOf (o : Ops) : Int :=
  if o.wide then sext 32 (o.s1.toNat * 65536 + o.s2.toNat) else sext 10 o.s2.toNat

/-- An offset or field immediate in SRC2: 10 bits, or 16 (R97, R108). -/
def imm16Of (o : Ops) : Int := if o.wide then sext 16 o.s2.toNat else sext 10 o.s2.toNat

/-- A lane operand at N bits (R25). -/
def State.rd (s : State) (n l name : Nat) : Nat := (s.readLane l name).toNat % 2 ^ n

/-- A uniform operand as the issue's lowest active lane reads it. -/
def State.ru (s : State) (act : List Nat) (name : Nat) : Nat := (s.readUnif (act.headD 0) name).toNat

/-- `val` of R88. -/
def valOf (n : Nat) (u : Bool) (x : Nat) : Int := if u then ((x % 2 ^ n : Nat) : Int) else sext n (x % 2 ^ n)

/-- `sat_n` and `sat_i` of R63. -/
def satN (n : Nat) (v : Int) : Nat := (max 0 (min v ((2 ^ n : Nat) - 1))).toNat
def satI (n : Nat) (v : Int) : Nat :=
  wrap n (max (-((2 ^ (n - 1) : Nat) : Int)) (min v (((2 ^ (n - 1) : Nat) : Int) - 1)))

/-- `fit` of R88. -/
def fit (n : Nat) (u sat : Bool) (v : Int) : Nat :=
  if !sat then wrap n v else if u then satN n v else satI n v

/-- `cnt` of R88. -/
def cnt (x : Nat) : Nat := x % 256

/-! ## How an instruction ends (R9, R38, R143) -/

/-- What an instruction does when its sources are available: completes and advances; completes with these
lanes at new PCs (`mark`: the transfer may set hold marks, R148); traps; or its lane set is not ready. -/
inductive Eff where
  | done (s : State)
  | jump (s : State) (dest : List (Nat × BitVec 64)) (mark : Bool)
  | trap (cause : Nat) (addr : BitVec 64) (lane : Nat)
  | wait (s : State) (w : Wait)

/-- A lane set with this wait has issued its instruction (R143): the wait is for what that does. -/
def Wait.entered : Wait → Bool
  | .barrier _ | .molt _ _ | .sysc | .ckpt | .halt | .parked _ _ | .tlbi _ _ | .replay _ | .ended | .flags _ _ | .brk =>
    true
  | .none | .score | .snext | .xmov _ _ | .members _ | .epoch _ | .fifo | .limit | .clsend | .access | .order => false

/-- A lane waits for members of a wave operation. -/
def Wait.isMembers : Wait → Bool
  | .members _ => true
  | _ => false

/-- The names an instruction writes, by class and number. -/
def writtenNames (i : Instr) : List (Nat × Nat) :=
  (operands i).filterMap fun p => if p.role == 1 || !p.read then some (p.cls, p.name) else none

/-- The names an instruction's kill marks end, unless it writes them (R52). -/
def killedNames (i : Instr) : List (Nat × Nat) :=
  (operands i).filterMap fun p =>
    if p.kill && !(writtenNames i).contains (p.cls, p.name) then some (p.cls, p.name) else none

/-- Kill marks take effect in the active lanes; a uniform name dies for the whole wave. -/
def Wave.kill (w : Wave) (act : List Nat) (ns : List (Nat × Nat)) : Wave :=
  ns.foldl (fun w n =>
    match n.1 with
    | 0 => w.onLanes act fun t => { t with dead := n.2 :: t.dead.filter (· != n.2) }
    | 1 => { w with udead := n.2 :: w.udead.filter (· != n.2) }
    | _ => w) w

/-- A killed accumulator tile of block `b` holds undefined values, E and RC too, until it is zeroed (R52, R274). -/
def State.killTiles (s : State) (b : Nat) (ns : List (Nat × Nat)) : State :=
  ns.foldl (fun s n =>
    if n.1 == 5 then
      s.setBlock b { s.block b with
        tiles := (s.block b).tiles.put n.2 { (s.block b).tiles.get .zero n.2 with undefs := List.range 4096, blur := true } }
    else s) s

/-- The windows of a lane after one more instruction (R44). -/
def Lane.tick (t : Lane) : Lane :=
  { t with windows := t.windows.filterMap fun x => if x.left ≤ 1 then none else some { x with left := x.left - 1 } }

/-- A thread moves to a PC; onward it stays within the packet that it has fetched, and back it fetches anew (R41). -/
def Lane.goto (t : Lane) (pc : BitVec 64) : Lane :=
  { t with pc := pc, code := t.code.filter fun c => c.1 == packetBase pc && decide (t.pc.toNat < pc.toNat) }

/-- The lanes `ls` leave the instruction: PC, waits, counts, marks and windows. -/
def Wave.advance (w : Wave) (ls : List Nat) (next : BitVec 64) (dest : List (Nat × BitVec 64)) (chain : Bool) :
    Wave :=
  let w := w.onLanes ls fun t =>
    { t.tick with wait := .none, passed := 0, held := false, chain := chain }
  ls.foldl (fun w l =>
    w.setLane l ((w.lane l).goto (((dest.find? fun p => p.1 == l).map Prod.snd).getD next))) w

/-- Lanes whose lane set has issued: their counts and marks end (R147, R148). -/
def Wave.spent (w : Wave) (ls : List Nat) : Wave := w.onLanes ls fun t => { t with passed := 0, held := false }

/-- The turn that follows in the cycle. -/
def Issue.follow (i : Issue) (t : Turn) (ts : List Turn) : Issue :=
  let same := t.wave == i.wave
  { Issue.of t.wave t.lanes with
    left := t.left, later := ts, late := true, before := i.before, blocks := i.blocks, gangs := i.gangs
    raised := if same then i.raised else 0
    trapped := same && i.trapped
    stepped := if same then i.stepped else [] }

/-- What issues after the lane set's turn: its group goes on after a member of this pipe, another lane set of the cycle
has its turn, or the cycle's issue is over (R146, R150). -/
def State.nextIssue (s : State) (more : Option Pipe) : Issue :=
  let i := s.iss
  let ls := i.lanes.filter fun l => !(s.cur.lane l).exited && (s.cur.lane l).pc == i.next
  match (if i.left != 0 && !ls.isEmpty then more else none), i.later with
  | some x, _ =>
    { i with lanes := ls, pc := 0, next := 0, look := 0, words := [], left := i.left - 1, late := true
             pipes := x :: i.pipes }
  | none, t :: ts => i.follow t ts
  | none, [] => .none

/-- The lane set's turn is over. -/
def State.endTurn (s : State) (more : Option Pipe) : State := { s with iss := s.nextIssue more }

/-- The step trap (R389) of the lanes that issued in a cycle, those of the lower PC first: the effects stand, and the
trap is delivered as R324 says. -/
def State.stepTrap (s : State) (k : Nat) (first others : List Nat) : State :=
  let w := s.wave k
  let head := first.filter fun l => !(w.lane l).exited
  let live := (first ++ others).filter fun l => !(w.lane l).exited
  let pc := ((if head.isEmpty then live else head).map fun l => (w.lane l).pc.toNat).foldl min (2 ^ 64 - 1)
  if live.isEmpty then s else s.raiseTrap k ⟨causeStep, 0, live.headD 0, live, BitVec.ofNat 64 pc, false⟩

/-- The lane set's turn is over without an effect of its own: the step trap of the set that issued before it in the cycle
follows, unless another turn of the wave does (R389). -/
def State.leaveTurn (s : State) : State :=
  (if s.iss.stepped.isEmpty || s.iss.later.any fun t => t.wave == s.iss.wave then s
   else s.stepTrap s.iss.wave s.iss.stepped []).endTurn none

/-- The lane set turns out not to be ready, by what another did in the cycle (R170): it is passed over (R147), unless an
earlier member of its group has issued. -/
def State.dropTurn (s : State) : State :=
  (if s.iss.pipes.isEmpty then
    s.onWave s.iss.wave fun w => w.onLanes s.issuing fun t => { t with passed := t.passed + 1 }
  else s).leaveTurn

/-- The step trap that an issue is followed by; one covers the lane sets of a cycle (R389, R151). -/
def State.stepped (s : State) : State :=
  let k := s.iss.wave
  let ls := s.issuing
  if !(s.wave k).single || s.iss.trapped then s
  else if s.iss.later.any fun t => t.wave == k then { s with iss := { s.iss with stepped := ls } }
  else if s.iss.stepped.isEmpty then s.stepTrap k ls []
  else s.stepTrap k s.iss.stepped ls

/-- One more instruction retired by a gang (R335). -/
def State.countIr (s : State) (k : Nat) : State :=
  if (s.wave k).priv then s
  else
    let g := s.gangOf (s.wave k)
    s.setGang g { s.gang g with ir := (s.gang g).ir + 1 }

/-- The names whose values an instruction ends: none without an active lane (R52). -/
def endedNames (i : Instr) (act : List Nat) : List (Nat × Nat) := if act.isEmpty then [] else killedNames i

/-- The lanes `ls` of a wave complete the instruction at `pc`: kills, PCs, marks. A taken forward BRA or JMP (`mark`) marks its lanes; a mark with no lane below at the end of the cycle ends
at the next opportunity (R148). -/
def Wave.complete (w : Wave) (i : Instr) (act ls : List Nat) (pc next : BitVec 64) (dest : List (Nat × BitVec 64))
    (mark : Bool) : Wave :=
  let w := ((w.kill act (endedNames i act)).advance ls next dest (chainOf i)).slide
  if mark then
    dest.foldl (fun w p => w.setLane p.1 { w.lane p.1 with held := decide (pc.toNat < p.2.toNat) }) w
  else w

/-- The instruction completes with the effect `t`. -/
def State.commit (s t : State) (i : Instr) (act : List Nat) (dest : List (Nat × BitVec 64)) (mark : Bool) : State :=
  ((t.countIr s.iss.wave).killTiles s.cur.block (endedNames i act)).onWave s.iss.wave fun w =>
    w.complete i act s.issuing s.iss.pc s.iss.next dest mark

/-- The instruction completes, a step trap follows where one is due, and its turn is over. -/
def State.retire (s t : State) (i : Instr) (act : List Nat) (dest : List (Nat × BitVec 64)) (mark : Bool) : State :=
  ((s.commit t i act dest mark).stepped).endTurn (if chainOf i then some (pipeOf i) else none)

/-- The lane set keeps its PC with a wait: it has issued and is held, or it is not ready. Parking ends its windows
(R44, R213). -/
def State.hold (s t : State) (w : Wait) : State :=
  let k := s.iss.wave
  let ls := s.issuing
  let set (t : State) := t.onWave k fun v => v.onLanes ls fun x => { x with wait := w }
  if w.entered then
    let t := match w with
      | .parked as _ => ((t.countWalks (t.wave k) (as.map Prod.snd)).landAll k).closeWindows k ls
      | _ => t
    ((set t).onWave k fun v => v.spent ls).leaveTurn
  else (set t).dropTurn

/-- The lane set traps (R9); of two in one cycle, the lower-PC lane set's is delivered, and the other
instruction has no effect (R151). -/
def State.trapTurn (s : State) (cause : Nat) (addr : BitVec 64) (lane : Nat) : State :=
  if s.iss.trapped || !s.iss.stepped.isEmpty then (s.onWave s.iss.wave fun w => w.spent s.issuing).leaveTurn
  else
    let t := (s.raiseTrap s.iss.wave ⟨cause, addr, lane, s.issuing, s.iss.pc, false⟩).onWave s.iss.wave fun w =>
      w.spent s.issuing
    { t with iss := { t.iss with trapped := true } }.endTurn none

/-- The TLBs keep the translation of an access that is denied (R212). -/
def State.refilled (s : State) (cause : Nat) (addr : BitVec 64) : State :=
  if cause == causeProtection then s.fills s.cur [addr.toNat] else s

/-- How the instruction ends. -/
def State.finish (s : State) (i : Instr) (act : List Nat) (e : Eff) : State :=
  match e with
  | .done t => s.retire t i act [] false
  | .jump t dest mark => s.retire t i act dest mark
  | .trap cause addr lane => (s.refilled cause addr).trapTurn cause addr lane
  | .wait t w => s.hold t w

/-- Where a name's value lies, as CR.ERRS codes it: its spill slot where it is spilled (R317, R332). -/
def State.errSource (s : State) (cls name : Nat) : Nat :=
  let kind := bits (s.place s.iss.wave cls name).toNat 63 60
  if decide (4 ≤ kind) && decide (kind ≤ 6) then 2 else cls

/-- Sources whose word an uncorrectable error marked read as zero and are counted, each word once (R332). -/
def State.noteSources (s : State) (i : Instr) (act : List Nat) : State :=
  if s.badNames.isEmpty then s
  else ((((operands i).filter fun p => p.read).map fun p => (p.cls, p.name)).eraseDups).foldl (fun t p =>
    match p.1 with
    | 0 => t.noteErrs s.iss.wave (s.errSource 0 p.2) 0 p.2 (act.filter fun l => s.zeroLane s.iss.wave l p.2).length
    | 1 => t.noteErrs s.iss.wave (s.errSource 1 p.2) 1 p.2 (s.zeroUnif s.iss.wave p.2).toNat
    | _ => t) s

/-- An EPI or TMERGE write of the wave to one of these buffers is not yet performed: a later access of the
wave to it, or a command naming it, waits (R280, R309). -/
def State.unitBusy (s : State) (bufs : List Nat) : Bool :=
  s.access.any fun a => a.wave == s.iss.wave && a.kind == 3 && bufs.contains a.addr

/-- The scratch buffers that an instruction names. -/
def buffersOf (i : Instr) : List Nat :=
  (operands i).filterMap fun p => if p.cls == 2 then some p.name else none

/-- The PC-relative transfer whose own slot field is 3 (R59): its target is misaligned whatever its guard (R30). -/
def badSlot : Instr → Bool
  | .bra _ _ _ _ slot | .call _ _ _ slot | .jmp _ _ slot => slot == 3#2
  | .braWide o | .callWide o | .jmpWide o => o.dst == 3#16
  | _ => false

/-- The target of a PC-relative transfer (R59). -/
def relTarget (pc : BitVec 64) (off : Int) (slot : Nat) : BitVec 64 :=
  BitVec.ofNat 64 (wrap 64 (((pc.toNat / 16 * 16 : Nat) : Int) + 16 * off) / 16 * 16 + 4 * slot)

/-- The target that such a transfer names. -/
def relOf (pc : BitVec 64) : Instr → BitVec 64
  | .bra _ _ _ off slot | .call _ _ off slot => relTarget pc (sext 15 off.toNat) slot.toNat
  | .jmp _ off slot => relTarget pc (sext 21 off.toNat) slot.toNat
  | .braWide o | .callWide o | .jmpWide o => relTarget pc (immOf o) o.dst.toNat
  | _ => 0

/-- What an instruction without an active lane does (R8, R30): it only advances; one whose own slot field is 3 traps,
and an XMOV waits for its slot (R169). -/
def State.idle (s : State) (i : Instr) : Eff :=
  let slots := (s.block s.cur.block).slots
  if badSlot i then .trap causeTarget (relOf s.iss.pc i) (s.issuing.headD 0)
  else match i with
    | .xmovS o => if slots.has o.s2.toNat then .wait s (.xmov true o.s2.toNat) else .done s
    | .xmovR o => if slots.has o.s2.toNat then .done s else .wait s (.xmov false o.s2.toNat)
    | _ => .done s

/-- The wait is over in which the lane set's instruction was held, and the instruction is complete (R324, R354). -/
def State.resumes (s : State) : Bool :=
  s.issuing.any fun l => match (s.cur.lane l).wait with
    | .ended | .tlbi _ _ => true
    | _ => false

/-- A lane set with this wait has executed its instruction as far as its sources (R143, R213). -/
def Wait.reads : Wait → Bool
  | .parked _ _ => false
  | w => w.entered

/-- An instruction's end with the words that its sources read as zero counted: an instruction that is not ready, or that
parks and will execute afresh, has not read them (R332). -/
def State.counted (s : State) (i : Instr) (act : List Nat) (f : State → List Nat → Eff) : Eff :=
  if s.badNames.isEmpty then f s act
  else match f s act with
    | .wait t w => if w.reads then f (s.noteSources i act) act else .wait t w
    | .trap c a l => .trap c a l
    | _ => f (s.noteSources i act) act

/-- Run one instruction of the granted lane set (R38): with no active lane it only advances; with a source
missing its lane set is not ready; otherwise it has its effect. -/
def State.issue (s : State) (i : Instr) (f : State → List Nat → Eff) : State :=
  let act := s.active i
  if s.resumes then s.finish i act (.done s)
  else if act.isEmpty then s.finish i [] (s.idle i)
  else if s.pending i act then s.finish i act (.wait s .score)
  else if s.unitBusy (buffersOf i) then s.finish i act (.wait s .access)
  else s.finish i act (s.counted i act f)

/-- An instruction that control cores do not execute (R373). -/
def State.onCore (s : State) (act : List Nat) (f : Unit → Eff) : Eff :=
  if s.cur.priv then .trap causePriv 0 (act.headD 0) else f ()

/-- A lane instruction with one destination: the value of each active lane. -/
def State.laneEff (s : State) (name : Nat) (act : List Nat) (f : Nat → Nat) : Eff :=
  .done (s.writeLanes name (act.map fun l => (l, BitVec.ofNat 64 (f l))))

/-- A uniform instruction: one value for the wave (R27, R94). -/
def State.unifEff (s : State) (name v : Nat) : Eff :=
  .done (s.writeUnif s.issuing name (BitVec.ofNat 64 v))

/-- A push onto each active lane's stack, after the overflow check (R29, R9). -/
def State.pushEff (s : State) (act : List Nat) (f : Nat → Bool) : Eff :=
  match act.find? fun l => (s.cur.lane l).count == 8 with
  | some l => .trap causePredOver (BitVec.ofNat 64 8) l
  | none => .done (s.onWave s.iss.wave fun w =>
      act.foldl (fun w l => w.setLane l ((w.lane l).push (f l))) w)

end Sys2Proof.Machine
end

