-- ==== Sys2Proof/Machine/Flags.lean ====
section
/-! DEFINITION. CR.FFLAGS and the rounding mode (R33, R34, R83, R84, R113, R114). -/

namespace Sys2Proof.Machine

/-- OR flags into CR.FFLAGS of the issuing wave (R33). -/
def State.raise (s : State) (fl : Flags) : State :=
  { s.onWave s.iss.wave fun w => { w with fflags := w.fflags ||| fl } with
    iss := { s.iss with raised := s.iss.raised ||| fl, mine := s.iss.mine ||| fl } }

/-- The flags of several lanes together. -/
def orFlags (fs : List Flags) : Flags := fs.foldl (· ||| ·) 0

/-- The rounding mode of an instruction of class R (R113): 0 RN, 1 RZ, 2 RU, 3 RD. DEDUCED (log 54): a chained member
that follows a write of CR.RMODE in its cycle rounds by the new mode. -/
def State.mode (s : State) (o : Ops) : RMode :=
  if o.mod == 4#3 then (s.regs [.y]).rmode.toNat else o.mod.toNat

/-- A float lane instruction: each active lane's value and flags, contributed at completion (R114). -/
def State.floatEff (s : State) (name : Nat) (act : List Nat) (f : Nat → Nat × Flags) : Eff :=
  let rs := act.map fun l => (l, f l)
  .done ((s.writeLanes name (rs.map fun r => (r.1, BitVec.ofNat 64 r.2.1))).raise
    (orFlags (rs.map fun r => r.2.2)))

/-- A special function: values and flags arrive later (R114). -/
def State.specialEff (s : State) (name : Nat) (act : List Nat) (f : Nat → Nat × Flags) : Eff :=
  let rs := act.map fun l => (l, f l)
  .done (s.flyLanes act name (rs.map fun r => (r.1, BitVec.ofNat 64 r.2.1)) (orFlags (rs.map fun r => r.2.2)))

end Sys2Proof.Machine
end

