-- ==== Sys2Proof/Machine/BarConv.lean ====
section
/-! DEFINITION. Barriers and convergence registers (R172-R179), and the retirement of waves (R106). -/

namespace Sys2Proof.Machine

/-! ## Whole-wave instructions and waits -/

/-- A whole-wave instruction (R173): its lane set must hold every lane of the wave that has not exited, as the wave
stood before the cycle. -/
def State.whole (s : State) (f : Unit → Eff) : Eff :=
  if s.seen.present.all s.issuing.contains then f ()
  else .wait s (.members (maskOf s.seen.present))

/-- The instruction at a PC, as lane `l` has fetched it (R41). -/
def State.instrAt (s : State) (k l : Nat) (pc : BitVec 64) : Instr :=
  let ws := s.wordsOfLane k l pc
  match decode .limits (s.wave k).priv ⟨ws.getD 0 0, ws.getD 1 0, ws.getD 2 0, 0⟩ 0 with
  | .ok i => i
  | .error _ => .nop

/-- Lanes of wave `k` that wait at an instruction complete it: its kills, windows and step trap, and the PC
after it. `f` is the instruction's effect at the end of the wait. -/
def State.resumeAt (s : State) (k : Nat) (ls : List Nat) (f : State → State) : State :=
  let l := ls.headD 0
  let pc := ((s.wave k).lane l).pc
  let ws := s.wordsOfLane k l pc
  let s := { s with iss := { Issue.of k ls with pc := pc, next := nextPc pc ws.length, words := ws } }
  s.retire (f s) (s.instrAt k l pc) ls [] false

/-- Of some lanes of a wave, those of the lowest PC. -/
def Wave.lowestOf (w : Wave) (ls : List Nat) : List Nat :=
  let m := (ls.map fun l => (w.lane l).pc.toNat).foldl min (2 ^ 64)
  ls.filter fun l => (w.lane l).pc.toNat == m

/-- The lanes of a wave that have not exited and whose wait satisfies `p`, of the lowest such PC. -/
def Wave.waiting (w : Wave) (p : Wait → Bool) : List Nat := w.lowestOf (w.live.filter fun l => p (w.lane l).wait)

/-- Of these, those that a trap handler does not hold (R324). -/
def Wave.due (w : Wave) (p : Wait → Bool) : List Nat := w.lowestOf (w.present.filter fun l => p (w.lane l).wait)

/-- A wave is stopped for a rebind: nothing of it happens until the rebind is over (R323). -/
def State.frozen (s : State) (k : Nat) : Bool := !(s.wave k).priv && s.rebindStops (s.wave k).block

/-! ## Barriers (R172-R176) -/

/-- The wait-phase bit q of a wave for a barrier. -/
def Wave.q (w : Wave) (name : Nat) : Bool := w.phases.get false name

/-- An arrival by the issuing wave: a release at the barrier's scope (R175). -/
def State.arriveWave (s : State) (k name : Nat) : State :=
  let b := (s.wave k).block
  let t := s.release k (s.barScope b name)
  (t.tellBar b name (t.wave k).known).arrive b name

/-- Whether the wave's wait at a barrier is over (R174). -/
def State.barOpen (s : State) (k name : Nat) : Bool :=
  (s.bar (s.wave k).block name).phase != (s.wave k).q name

/-- The largest power of two, at most 8, that divides `n` (R249). -/
def chunkGroup (n : Nat) : Nat := if n % 8 == 0 then 8 else if n % 4 == 0 then 4 else if n % 2 == 0 then 2 else 1

/-- The byte of element `c` of row `q` in an image of `p` bytes a row, elements of `wd` bytes (R249). -/
def imageOff (plain : Bool) (p wd q c : Nat) : Nat :=
  if plain then q * p + c * wd
  else
    let g := chunkGroup (p / 16)
    q * p + 16 * ((c * wd / 16) ^^^ (q % g)) + c * wd % 16

/-- Elements of an M × N operation that depend on byte `x` of buffer instance `i` (R242, R262). -/
def MatOp.depends (m : MatOp) (s : State) (b i x : Nat) : List Nat :=
  let rows := 16 * 2 ^ m.ops.mc.toNat
  let cols := 16 * 2 ^ m.ops.nc.toNat
  let sc := if bit m.ops.h.mod.toNat 1 then 128 else 0
  let sa := 64 * rows + sc
  let sb := 64 * cols + sc
  let wb := fmtWidth m.ops.fb.toNat / 8
  let xa := x - m.ops.ia.toNat * sa
  let xb := x - m.ops.ib.toNat * sb
  let row := if xa < 64 * rows then xa / 64 else xa - 64 * rows
  let q := xb / (cols * wb)
  let chunk := (xb % (cols * wb) / 16) ^^^ (q % chunkGroup (cols * wb / 16))
  let col := if xb < 64 * cols then (16 * chunk + xb % 16) / wb else xb - 64 * cols
  (if i == s.instance? b m.ops.ab.toNat && decide (m.ops.ia.toNat * sa ≤ x) && decide (xa < sa) &&
      decide (row < rows) then (List.range cols).map fun j => 64 * row + j else []) ++
    (if !bit m.ops.h.mod.toNat 0 && i == s.instance? b m.ops.bn.toNat && decide (m.ops.ib.toNat * sb ≤ x) &&
      decide (xb < sb) && decide (col < cols) then (List.range rows).map fun r => 64 * r + col else [])

/-- A wave of block `b` passed the wait at barrier `name` (R242): a completed operation whose arrival counted
in that phase is over for the block; elements that depend on bytes written under it hold undefined values. -/
def State.settleMats (s : State) (b name : Nat) (phase : Bool) : State :=
  s.mats.foldl (fun s p =>
    let m := p.2
    let mine := m.parts.filter fun q => q.block == b && q.phase != phase
    if m.complete && m.ops.br.toNat == name && !mine.isEmpty then
      let us := (m.dirty.flatMap fun x => m.depends s b x.1 x.2).eraseDups
      let t := (s.block b).tiles.get .zero m.ops.tl.toNat
      let s := if us.isEmpty then s else s.putTile b m.ops.tl.toNat { t with undefs := t.undefs ++ us }
      let rest := m.parts.filter fun q => !(q.block == b && q.phase != phase)
      if rest.isEmpty then { s with mats := s.mats.del p.1 } else s.setMat p.1 { m with parts := rest }
    else s) s

/-- Publications that the arrivals of the phase last completed of a barrier tell of (R238). -/
def State.phaseKnown (s : State) (b name : Nat) : List Nat := s.barKnown.get [] (s.barKey b name + 1)

/-- Passing the wait on a phase: q takes it, and an acquire at the barrier's scope, which takes in what the phase's
arrivals published (R174, R175, R238); a wave that waited has heard of that when it saw the phase complete. -/
def State.passPhase (s : State) (k name : Nat) (ph : Bool) : State :=
  let b := (s.wave k).block
  let ns := if (s.wave k).flipped.isSome then [] else s.phaseKnown b name
  (((s.onWave k fun w => { w with phases := w.phases.put name ph, flipped := none }).hear k ns).acquire k
    (s.barScope b name)).settleMats b name ph

/-- Passing the wait on the phase that the wave has seen complete, else on the barrier's phase as it stands. -/
def State.passBarrier (s : State) (k name : Nat) : State :=
  s.passPhase k name ((s.wave k).flipped.getD (s.bar (s.wave k).block name).phase)

/-- BARA (R174). -/
def State.baraEff (s : State) (o : Ops) (_ : List Nat) : Eff :=
  s.whole fun _ => .done (s.arriveWave s.iss.wave o.s0.toNat)

/-- BARA. -/
def execBara (o : Ops) (s : State) : Host.Outcome State Fault Refusal :=
  .next (s.issue (.bara o) fun s act => s.baraEff o act)

/-- BARW (R174): a wait sees a flip from the cycle after it (R175). -/
def State.barwEff (s : State) (o : Ops) (_ : List Nat) : Eff :=
  let k := s.iss.wave
  let name := o.s0.toNat
  let was := s.past [.m]
  s.whole fun _ =>
    if was.barOpen k name then .done (s.passPhase k name (was.bar (s.wave k).block name).phase)
    else .wait s (.barrier name)

/-- BARW. -/
def execBarw (o : Ops) (s : State) : Host.Outcome State Fault Refusal :=
  .next (s.issue (.barw o) fun s act => s.barwEff o act)

/-- BARS (R174): it arrives once, then waits as BARW; it passes at once only on a phase that was complete before the
cycle and still is the latest. -/
def State.barsEff (s : State) (o : Ops) (_ : List Nat) : Eff :=
  let k := s.iss.wave
  let name := o.s0.toNat
  s.whole fun _ =>
    let t := s.arriveWave k name
    if (s.past [.m]).barOpen k name && t.barOpen k name then .done (t.passBarrier k name)
    else .wait t (.barrier name)

/-- BARS. -/
def execBars (o : Ops) (s : State) : Host.Outcome State Fault Refusal :=
  .next (s.issue (.bars o) fun s act => s.barsEff o act)

/-- The barrier a wait is for. -/
def Wait.barrier? : Wait → Option Nat
  | .barrier b => Option.some b
  | _ => Option.none

/-- The barrier that a wave's lanes wait at, where they do; a handler's lanes only, in trap mode (R324). -/
def Wave.atBarrier (w : Wave) : Option Nat :=
  (w.present.filterMap fun l => (w.lane l).wait.barrier?).head?

/-- A wave's wait at a barrier is flipped: it has seen the flip, or sees it now. -/
def State.barPasses (s : State) (k name : Nat) : Bool := (s.wave k).flipped.isSome || s.barOpen k name

/-- Waiting waves see the flips of the cycles before: later arrivals do not take one back (R175). -/
def State.seeFlips (s : State) : State :=
  { s with waves := s.waves.map fun p =>
      match (if p.2.used && !p.2.retired && p.2.flipped.isNone then p.2.atBarrier else none) with
      | some b => if s.barOpen p.1 b then
          (p.1, { p.2 with flipped := some (s.bar p.2.block b).phase, heard := joinKnown p.2.heard (s.phaseKnown p.2.block b) })
        else p
      | none => p }

/-- BARRIER_PASS (R174, R175): a waiting wave passes once the phase it waits for is complete, unless it is stopped for
a rebind (R323). -/
def execBarrierPass (wave : Nat) (s : State) : Host.Outcome State Fault Refusal :=
  .next (match (s.wave wave).atBarrier with
    | some b =>
      if s.barPasses wave b && !s.iss.granted && !s.frozen wave then
        s.resumeAt wave ((s.wave wave).due fun w => w == .barrier b) fun t => t.passBarrier wave b
      else s
    | none => s)

/-- The waves of a gang, by block and wave index. -/
def State.gangWaves (s : State) (g : Nat) : List Nat := (s.gang g).blocks.flatMap s.wavesOf

/-- The waves in the scope of a barrier or convergence register that block `b` reaches. -/
def State.scopeWaves (s : State) (b cls name : Nat) : List Nat :=
  let g := (s.block b).gang
  if (s.launch (s.gang g).launch).kernel.gangScope cls name then s.gangWaves g else s.wavesOf b

/-- The completion barrier of an engine command's control word: BV and BAR (R245, R290, R367). -/
def ctlBar (c : BitVec 64) : Option Nat := if bit c.toNat 63 then some (bits c.toNat 61 56) else none

/-- An engine operation in flight names a barrier of block `b` (R176). -/
def State.engineNames (s : State) (b name : Nat) : Bool :=
  let g := (s.block b).gang
  let wide := (s.launch (s.gang g).launch).kernel.gangScope 3 name
  let reach (x : Nat) := if wide then (s.block x).gang == g else x == b
  s.copies.any (fun p => ctlBar p.2.ctl == some name && reach p.2.block) ||
    s.mats.any (fun p => p.2.ops.br.toNat == name && !p.2.complete && p.2.parts.any fun q => reach q.block) ||
    s.palps.any (fun p => ctlBar p.2.ctl == some name && reach p.2.block) ||
    s.colls.any fun p => ctlBar p.2.ctl == some name && reach p.2.block

/-- The waves of a barrier's scope that have not retired. -/
def State.barWaves (s : State) (b name : Nat) : List Nat :=
  (s.scopeWaves b 3 name).filter fun k => !(s.wave k).retired

/-- The condition of R176. -/
def State.barOrphan (s : State) (b name : Nat) : Bool :=
  let ks := s.barWaves b name
  !ks.isEmpty && ks.all (fun k => (s.wave k).awaiting.isNone && (s.wave k).atBarrier == some name && !s.barPasses k name) &&
    !s.engineNames b name

/-- BARRIER_ORPHANED (R176). -/
def execBarrierOrphaned (block name : Nat) (s : State) : Host.Outcome State Fault Refusal :=
  .next (
    if s.barOrphan block name then
      s.raiseWave ((s.barWaves block name).headD 0) causeBarrier (BitVec.ofNat 64 name)
    else s)

/-! ## Convergence registers (R177-R179) -/

/-- The order number that the next matrix operation posted receives (R267). -/
def State.nextPost (s : State) : Nat :=
  1 + (s.mats.map fun p => p.2.posted.getD 0).foldl max 0

/-- The scratch bytes of a block that lane stores wrote without a later FOPND: a wave's, or those of every wave but the
ones listed (R229). -/
def State.staleBytes (s : State) (b : Nat) (p : Nat → Bool) : List Nat :=
  ((s.block b).scratch ++ (s.gang (s.block b).gang).scratch).flatMap fun q =>
    ((s.scratch b q.1).unfenced.filter fun u => p u.2).map fun u => s.scratchKey b q.1 u.1

/-- A recorded matrix operation is posted to the matrix FIFO, with the operand bytes that it may not rely on. -/
def State.post (s : State) (op : Nat) (stale : List Nat) : State :=
  s.setMat op { s.mat op with posted := some s.nextPost, stale := stale }

/-- Sign the open epoch (R177, R178): the signature that brings the count to n closes it, posts the recorded
operation and opens an empty epoch. -/
def State.sign (s : State) (k name : Nat) (op : Option Nat) : State :=
  let b := (s.wave k).block
  let n := (s.kernelOf (s.wave k)).sizeOf 4 name 1
  let c := s.conv b name
  let c := { c with
    count := c.count + 1, signed := c.signed ++ [k], op := if op.isSome then op else c.op
    stale := c.stale ++ s.staleBytes b (· == k) }
  if c.count == n then
    let s := s.setConv b name .empty
    match c.op with
    | some x =>
      let bs := ((s.mat x).parts.map (·.block)).eraseDups
      s.post x (c.stale ++ bs.flatMap fun d => s.staleBytes d fun j => !c.signed.contains j)
    | none => s
  else s.setConv b name c

/-- CSIGN (R178). -/
def State.csignEff (s : State) (o : Ops) (_ : List Nat) : Eff :=
  s.whole fun _ =>
    if (s.conv s.cur.block o.s0.toNat).signed.contains s.iss.wave then .wait s (.epoch o.s0.toNat)
    else .done (s.sign s.iss.wave o.s0.toNat none)

/-- CSIGN. -/
def execCsign (o : Ops) (s : State) : Host.Outcome State Fault Refusal :=
  .next (s.issue (.csign o) fun s act => s.csignEff o act)

/-- The open epoch can no longer close (R179). -/
def State.convOrphan (s : State) (b name : Nat) : Bool :=
  let c := s.conv b name
  let n := (s.launch (s.gang (s.block b).gang).launch).kernel.sizeOf 4 name 1
  let rest := (s.scopeWaves b 4 name).filter fun k => !(s.wave k).retired && !c.signed.contains k
  decide (0 < c.count) && decide (c.count + rest.length < n)

/-- The open epoch is emptied: its recorded operation and its FIFO places go (R179). -/
def State.emptyEpoch (s : State) (b name : Nat) : State :=
  let s' := match (s.conv b name).op with
    | some x => { s with mats := s.mats.del x }
    | none => s
  s'.setConv b name .empty

/-- A trap that no wave remains to take: its fault record goes to the executive and the gang halts (R179,
R325). -/
def State.trapNoWave (s : State) (k cause : Nat) (addr : BitVec 64) : State :=
  let w := s.wave k
  let g := s.gangOf w
  let t : Trap := ⟨cause, addr, 0, [], 0, false⟩
  let r := s.putRecord (s.gang g).launch (s.clusterOf w) (s.record k t [] false ((s.kernelOf w).trap == 0) true)
  r.1.setGang g { r.1.gang g with halted := true, record := (r.1.gang g).record ++ [r.2] }

/-- After a wave retires: every convergence register of its scope whose epoch can no longer close traps
(R179). -/
def State.afterRetirement (s : State) (k : Nat) : State :=
  let b := (s.wave k).block
  (List.range 16).foldl (fun s name =>
    if s.convOrphan b name then
      let s := s.emptyEpoch b name
      match (s.gangWaves (s.gangOf (s.wave k))).find? fun j => !(s.wave j).retired with
      | some j => s.raiseWave j causeConvOrphan (BitVec.ofNat 64 name)
      | none => s.trapNoWave k causeConvOrphan (BitVec.ofNat 64 name)
    else s) s

/-- Lanes exit (R106): a wave whose lanes have all exited retires. Trap mode ends when every lane of the handler
has exited (R351). -/
def State.exitLanes (s : State) (k : Nat) (ls : List Nat) : State :=
  let s := s.onWave k fun w => w.onLanes ls fun t => { t with exited := true }
  let s := if (s.wave k).trapm && (s.wave k).handler.all fun l => ((s.wave k).lane l).exited then s.endTrapMode k
    else s
  if (s.wave k).live.isEmpty then
    (s.onWave k fun w => { w with retired := true }).afterRetirement k
  else s

end Sys2Proof.Machine
end

