-- ==== Sys2Proof/Machine/Fetch.lean ====
section
/-! DEFINITION. Fetch and decode of the granted lane set's next instruction (R38 steps 1 and 2, R41, R46), and
parking (R213). -/

namespace Sys2Proof.Machine

/-- The entries of a core's fault buffer in use (R213): parked lane sets, and what engine operations wait for (R257,
R283, R295). -/
def State.faultEntries (s : State) (core : Nat) : Nat :=
  (s.waves.map fun p =>
    if s.coreOf p.2 == core then
      ((p.2.live.filterMap fun l => match (p.2.lane l).wait with
        | .parked _ true => some (p.2.lane l).pc
        | _ => none).eraseDups).length
    else 0).sum +
  (s.copies.filter fun p => p.2.held && s.coreOf (s.wave p.2.wave) == core).length +
  (s.mats.map fun p => (p.2.parts.filter fun q => q.held && (s.block q.block).core == core).length).sum +
  (s.palps.map fun p => if s.coreOf (s.wave p.2.wave) == core then p.2.held else 0).sum

/-- The core's fault buffer has a place (R213). -/
def State.entryFree (s : State) (core : Nat) : Bool := decide (s.faultEntries core < 256)

/-- A result of these lanes of a wave comes with a remote response: parking waits for it (R44, R213). -/
def State.awaitsRemote (s : State) (k : Nat) (ls : List Nat) : Bool :=
  (s.wave k).flights.any fun f => f.remote.isSome && f.vals.any fun v => ls.contains v.1

/-- The wait of a lane set that parks on these lanes' addresses: it has a fault-buffer entry unless all 256
are in use. Until its results have come it is not ready. -/
def State.park (s : State) (addrs : List (Nat × Nat)) : Wait :=
  if s.awaitsRemote s.iss.wave s.iss.lanes then .access else .parked addrs (s.entryFree (s.coreOf s.cur))

/-- What fetching gives: an instruction to run, or a lane set that parked or trapped. -/
inductive Fetched where
  | run (s : State) (i : Instr)
  | stop (s : State)

/-- The lane set's lanes that meet a packet's instruction at a PC: a lane that has fetched another version of the packet
goes by that (R41). -/
def State.sameCode (s : State) (pc : BitVec 64) (p : Packet) : List Nat :=
  let slot := bits pc.toNat 3 2
  s.issuing.filter fun l => ((s.cur.lane l).within pc).all fun q =>
    claimWords q slot == claimWords p slot && q.look slot == p.look slot

/-- The lane set is at a PC of a packet, which its lanes have now fetched. -/
def State.atPacket (s : State) (pc : BitVec 64) (p : Packet) : State :=
  let slot := bits pc.toNat 3 2
  let ws := claimWords p slot
  let ls := s.sameCode pc p
  let t := s.onWave s.iss.wave fun w => w.onLanes (ls.filter fun l => ((w.lane l).within pc).isNone) fun x =>
    { x with code := some (packetBase pc, p) }
  { t with iss := { s.iss with lanes := ls, pc := pc, next := nextPc pc ws.length, look := p.look slot, words := ws } }

/-- Decode the instruction at a PC of a packet. -/
def State.decodeAt (s : State) (pc : BitVec 64) (p : Packet) : Fetched :=
  let t := s.atPacket pc p
  match decode (s.declared s.cur) s.cur.priv p (bits pc.toNat 3 2) with
  | .ok i => .run t i
  | .error n => .stop (t.finish .nop [] (.trap causeEncoding (BitVec.ofNat 64 n) (t.issuing.headD 0)))

/-- Fetch and decode for the granted lane set: within the packet that it has fetched, nothing is read again (R41). -/
def State.fetchIssue (s : State) : Fetched :=
  let w := s.cur
  let l := s.issuing.headD 0
  let pc := (w.lane l).pc
  match (w.lane l).within pc with
  | some p => s.decodeAt pc p
  | none =>
    match s.fetch s.iss.wave pc with
    | .fault => .stop (s.hold s (s.park [(l, pc.toNat)]))
    | .denied =>
      let s := { s with iss := { s.iss with pc := pc, next := pc, look := 0, words := [0] } }
      .stop (s.finish .nop [] (.trap causeProtection pc l))
    | .ok pa leaf =>
      ((s.countFetch s.iss.wave pc).fill (s.ctxOf w) (s.coreOf w) pc.toNat leaf).decodeAt pc (s.fetchPacket s.iss.wave pa leaf)

end Sys2Proof.Machine
end

