-- ==== Sys2Proof/Machine/Control.lean ====
section
/-! DEFINITION. Control transfer (R18-R22, R59, R60, R103-R107). -/

namespace Sys2Proof.Machine

/-! ## Targets -/

/-- Translations that a check of several lanes makes together (R110): pairs of lane and address. -/
inductive Reach where
  | park (addrs : List (Nat × Nat))
  | denied (lane va : Nat)
  | ok (pas : List (Nat × Nat × Nat))
  deriving DecidableEq, Repr

/-- Translate a lane's address each: the lowest lane without the permission is denied, and lanes without a
translation park the lane set; which of the two is looked for first depends on the access (R104, R110, R231).
Else the physical addresses and leaves. -/
def State.reach (s : State) (kind : AccKind) (parkFirst : Bool) (as : List (Nat × Nat)) : Reach :=
  let rs := as.map fun p => (p.1, p.2, s.translate s.cur kind p.2)
  let faults := rs.filterMap fun r => match r.2.2 with | .fault => some (r.1, r.2.1) | _ => none
  let denied := rs.find? fun r => r.2.2 == .denied
  match parkFirst && !faults.isEmpty, denied with
  | false, some r => .denied r.1 r.2.1
  | _, _ =>
    if !faults.isEmpty then .park faults
    else .ok (rs.filterMap fun r => match r.2.2 with | .ok pa leaf => some (r.1, pa, leaf) | _ => none)

/-- Checks 3 to 5 of R104 on the targets of the active lanes. -/
def State.targets (s : State) (ts : List (Nat × BitVec 64)) : Option Eff :=
  match ts.find? fun t => bits t.2.toNat 63 56 != 0 with
  | some t => some (.trap causeCanonical t.2 t.1)
  | none =>
    match ts.find? fun t => bits t.2.toNat 1 0 != 0 || bits t.2.toNat 3 2 == 3 with
    | some t => some (.trap causeTarget t.2 t.1)
    | none =>
      match s.reach .fetch true (ts.map fun t => (t.1, t.2.toNat)) with
      | .park as => some (.wait s (s.park as))
      | .denied l va => some (.trap causeProtection (BitVec.ofNat 64 va) l)
      | .ok _ =>
        match ts.find? fun t => lengthField ((s.wordsAt s.iss.wave t.2).getD 0 0).toNat == 3 with
        | some t => some (.trap causeTarget t.2 t.1)
        | none => none

/-- The target packets are read at the transfer (R38): the TLBs keep the translations, and each lane is within its
target's packet (R41). -/
def State.landing (s : State) (ts : List (Nat × BitVec 64)) : State :=
  let k := s.iss.wave
  let ps := ts.map fun t => (t.1, (s.packetOf k t.2).map fun p => (packetBase t.2, p))
  (s.fills s.cur (ts.map fun t => t.2.toNat)).onWave k fun w =>
    ps.foldl (fun w p => w.setLane p.1 { w.lane p.1 with code := p.2 }) w

/-! ## The call stack (R20, R22) -/

/-- The address of entry `d` of a lane's stack region (R22). -/
def State.stackEntry (s : State) (k l d : Nat) : Nat :=
  let w := s.wave k
  let b := s.block w.block
  let kn := s.kernelOf w
  (b.sb.toNat + 8 * kn.depth * (64 * (kn.waves * b.index + w.index) + l) + 8 * d) % 2 ^ 64

/-- Calls (R104): `t` gives each active lane's target. A control core's limit is 1 and its stack base 0 (log 12). -/
def State.callEff (s : State) (act : List Nat) (t : Nat → BitVec 64) : Eff :=
  let k := s.iss.wave
  let d (l : Nat) := (s.cur.lane l).depth
  match act.find? fun l => decide ((s.kernelOf s.cur).depth ≤ d l) with
  | some l => .trap causeCallOver (BitVec.ofNat 64 (d l)) l
  | none =>
    match s.reach .stackWrite true (act.map fun l => (l, s.stackEntry k l (d l))) with
    | .park as => .wait s (s.park as)
    | .denied l va => .trap causeProtection (BitVec.ofNat 64 va) l
    | .ok pas =>
      match s.targets (act.map fun l => (l, t l)) with
      | some e => e
      | none =>
        let s := (s.fills s.cur (act.map fun l => s.stackEntry k l (d l))).landing (act.map fun l => (l, t l))
        let s := pas.foldl (fun s p => s.storeHome k p.2.1 (leBytes 8 s.iss.next.toNat)) s
        .jump (s.onWave k fun w => w.onLanes act fun x => { x with depth := x.depth + 1 })
          (act.map fun l => (l, t l)) false

/-- A jump of the active lanes. -/
def State.jumpEff (s : State) (act : List Nat) (t : Nat → BitVec 64) (mark : Bool) : Eff :=
  match s.targets (act.map fun l => (l, t l)) with
  | some e => e
  | none => .jump (s.landing (act.map fun l => (l, t l))) (act.map fun l => (l, t l)) mark

/-! ## The instructions -/

/-- BRA (R103, R148): taken forward it may mark its lanes, unless its hint is `.HD` (coded 0b11, R48). -/
def execBra (c : Bool) (g : Guard) (hint : BitVec 2) (off : BitVec 15) (slot : BitVec 2) (s : State) :
    Host.Outcome State Fault Refusal :=
  .next (s.issue (.bra c g hint off slot) fun s act =>
    s.jumpEff act (fun _ => relTarget s.iss.pc (sext 15 off.toNat) slot.toNat) (hint != 3#2))

/-- BRA in three words (R103): the hint in modifier bits 1:0. -/
def execBraWide (o : Ops) (s : State) : Host.Outcome State Fault Refusal :=
  .next (s.issue (.braWide o) fun s act =>
    s.jumpEff act (fun _ => relTarget s.iss.pc (immOf o) o.dst.toNat) (bits o.mod.toNat 1 0 != 3))

/-- JMP (R104). -/
def execJmp (c : Bool) (off : BitVec 21) (slot : BitVec 2) (s : State) : Host.Outcome State Fault Refusal :=
  .next (s.issue (.jmp c off slot) fun s act =>
    s.jumpEff act (fun _ => relTarget s.iss.pc (sext 21 off.toNat) slot.toNat) true)

/-- JMP in three words (R104). -/
def execJmpWide (o : Ops) (s : State) : Host.Outcome State Fault Refusal :=
  .next (s.issue (.jmpWide o) fun s act =>
    s.jumpEff act (fun _ => relTarget s.iss.pc (immOf o) o.dst.toNat) true)

/-- CALL (R104). -/
def execCall (c : Bool) (g : Guard) (off : BitVec 15) (slot : BitVec 2) (s : State) :
    Host.Outcome State Fault Refusal :=
  .next (s.issue (.call c g off slot) fun s act =>
    s.callEff act fun _ => relTarget s.iss.pc (sext 15 off.toNat) slot.toNat)

/-- CALL in three words (R104). -/
def execCallWide (o : Ops) (s : State) : Host.Outcome State Fault Refusal :=
  .next (s.issue (.callWide o) fun s act =>
    s.callEff act fun _ => relTarget s.iss.pc (immOf o) o.dst.toNat)

/-- CALLI (R104): each lane's own target. -/
def execCalli (o : Ops) (s : State) : Host.Outcome State Fault Refusal :=
  .next (s.issue (.calli o) fun s act => s.callEff act fun l => s.readLane l o.s0.toNat)

/-- JMPI (R104): each lane's own target; it sets no mark (R148). -/
def execJmpi (o : Ops) (s : State) : Host.Outcome State Fault Refusal :=
  .next (s.issue (.jmpi o) fun s act => s.jumpEff act (fun l => s.readLane l o.s0.toNat) false)

/-- RET (R20, R104): the target is entry D - 1; marked words read as zero and are counted (R216). -/
def execRet (c : Bool) (g : Guard) (s : State) : Host.Outcome State Fault Refusal :=
  .next (s.issue (.ret c g) fun s act =>
    let k := s.iss.wave
    let d (l : Nat) := (s.cur.lane l).depth
    match act.find? fun l => d l == 0 with
    | some l => .trap causeCallUnder 0 l
    | none =>
      match s.reach .stackRead true (act.map fun l => (l, s.stackEntry k l (d l - 1))) with
      | .park as => .wait s (s.park as)
      | .denied l va => .trap causeProtection (BitVec.ofNat 64 va) l
      | .ok pas =>
        let ts := pas.map fun p =>
          (p.1, BitVec.ofNat 64 (ofLe ((List.range 8).map fun i => s.viewByte k (p.2.1 + i))))
        match s.targets ts with
        | some e => e
        | none =>
          let s := (s.fills s.cur (act.map fun l => s.stackEntry k l (d l - 1))).landing ts
          let s := pas.foldl (fun s p => s.countRead p.2.1 8) s
          .jump (s.onWave k fun w => w.onLanes act fun x => { x with depth := x.depth - 1 }) ts false)

/-- EXIT (R106). -/
def execExit (c : Bool) (g : Guard) (s : State) : Host.Outcome State Fault Refusal :=
  .next (s.issue (.exit c g) fun s act => .done (s.exitLanes s.iss.wave act))

/-- YIELD (R107): the lane set gives up its next opportunity. -/
def execYield (c : Bool) (s : State) : Host.Outcome State Fault Refusal :=
  .next (s.issue (.yield c) fun s act =>
    .done (s.onWave s.iss.wave fun w => w.onLanes act fun x => { x with rest := true }))

/-- NOP (R19, R107). -/
def execNop (s : State) : Host.Outcome State Fault Refusal := .next (s.issue .nop fun s _ => .done s)

end Sys2Proof.Machine
end

