-- ==== Sys2Proof/Machine/LaneInt.lean ====
section
/-! DEFINITION. Lane integer instructions (R86-R89, R95-R101). -/

namespace Sys2Proof.Machine

/-! ## Modifier bits and values -/

/-- U and S of R88. -/
def unsOf (o : Ops) : Bool := bit o.mod.toNat 1
def satOf (o : Ops) : Bool := bit o.mod.toNat 0

/-- Arithmetic of R95 on patterns of N bits, U and S given. -/
def addI (n : Nat) (u s : Bool) (a b : Nat) : Nat := fit n u s (valOf n u a + valOf n u b)
def subI (n : Nat) (u s : Bool) (a b : Nat) : Nat := fit n u s (valOf n u a - valOf n u b)
def mulI (n : Nat) (u s : Bool) (a b : Nat) : Nat := fit n u s (valOf n u a * valOf n u b)
def mulhI (n : Nat) (u : Bool) (a b : Nat) : Nat := wrap n (valOf n u a * valOf n u b / (2 ^ n : Nat))
def madI (n : Nat) (u s : Bool) (a b c : Nat) : Nat := fit n u s (valOf n u a * valOf n u b + valOf n u c)
def minI (n : Nat) (u : Bool) (a b : Nat) : Nat := wrap n (min (valOf n u a) (valOf n u b))
def maxI (n : Nat) (u : Bool) (a b : Nat) : Nat := wrap n (max (valOf n u a) (valOf n u b))
def absI (n : Nat) (s : Bool) (a : Nat) : Nat := fit n false s ((valOf n false a).natAbs : Nat)
def notI (n a : Nat) : Nat := 2 ^ n - 1 - a % 2 ^ n
def shlI (n a b : Nat) : Nat := a % 2 ^ n * 2 ^ cnt b % 2 ^ n
def shrI (n a b : Nat) : Nat := a % 2 ^ n / 2 ^ cnt b
def sarI (n a b : Nat) : Nat := wrap n (valOf n false a / (2 ^ cnt b : Nat))

/-- The condition codes of R48 on integers. -/
def condI (cc : Nat) (a b : Int) : Bool :=
  match cc with
  | 0 => a == b
  | 1 => a != b
  | 2 => decide (a < b)
  | 3 => decide (a ≤ b)
  | 4 => decide (b < a)
  | _ => decide (b ≤ a)

/-! ## Elements (R96, R99, R100) -/

/-- A value of `n` elements of `w` bits, element k being `f k`. -/
def elements (w : Nat) (f : Nat → Nat) : Nat → Nat
  | 0 => 0
  | n + 1 => elements w f n + f n % 2 ^ w * 2 ^ (w * n)

def elem (w x k : Nat) : Nat := x / 2 ^ (w * k) % 2 ^ w

/-- Bits counted from the top that are 0, the lowest set bit, the number of set bits, the reversal. -/
def clz (w e : Nat) : Nat := if e == 0 then w else w - 1 - Nat.log2 e
def ffs (w e : Nat) : Nat := ((List.range w).find? fun i => bit e i).getD (2 ^ w - 1)
def popc (w e : Nat) : Nat := ((List.range w).filter fun i => bit e i).length
def brev (w e : Nat) : Nat := ((List.range w).map fun i => (bit e i).toNat * 2 ^ (w - 1 - i)).sum

/-- The element width of R96. -/
def selWidth (n sel : Nat) : Nat := match sel % 4 with | 1 => 8 | 2 => 16 | 3 => 32 | _ => n

/-- An element-wise function of one source. -/
def perElem (f : Nat → Nat → Nat) (n sel a : Nat) : Nat :=
  let w := selWidth n sel
  elements w (fun k => f w (elem w a k)) (n / w)

/-- VPADD (R99). -/
def paddI (w : Nat) (u s : Bool) (a b : Nat) : Nat :=
  elements w (fun k => addI w u s (elem w a k) (elem w b k)) (32 / w)

/-- VDOT4 (R100): `m` is the modifier. -/
def dot4I (m a b c : Nat) : Nat :=
  let ua := bit m 1
  let ub := bit m 0
  let t := ua && ub
  let v := (List.range 4).foldl (fun (v : Int) k => v + valOf 8 ua (elem 8 a k) * valOf 8 ub (elem 8 b k))
    (valOf 32 t c)
  if bit m 2 then (if t then satN 32 v else satI 32 v) else wrap 32 v

/-! ## Bit fields (R97) -/

/-- L of R97. -/
def fieldLen (n p q : Nat) : Nat := if n ≤ p then 0 else min q (n - p)

def bfeI (n : Nat) (u : Bool) (a pos len : Nat) : Nat :=
  let p := cnt pos
  let l := fieldLen n p (cnt len)
  let f := a % 2 ^ n / 2 ^ p % 2 ^ l
  if u || l == 0 then f else wrap n (sext l f)

def bfiI (n a b ctl : Nat) : Nat :=
  let p := cnt ctl
  let l := fieldLen n p (bits ctl 15 8)
  let old := a % 2 ^ n / 2 ^ p % 2 ^ l
  a % 2 ^ n - old * 2 ^ p + b % 2 ^ l * 2 ^ p

/-! ## Operand shapes -/

/-- `OP %d, %a`. -/
def State.lane1 (s : State) (i : Instr) (o : Ops) (n : Nat) (f : Nat → Nat) : State :=
  s.issue i fun s act => s.laneEff o.dst.toNat act fun l => f (s.rd n l o.s0.toNat)

/-- `OP %d, %a, %b`. -/
def State.lane2 (s : State) (i : Instr) (o : Ops) (n : Nat) (f : Nat → Nat → Nat) : State :=
  s.issue i fun s act => s.laneEff o.dst.toNat act fun l => f (s.rd n l o.s0.toNat) (s.rd n l o.s1.toNat)

/-- `OP %d, %a, imm`. -/
def State.laneI (s : State) (i : Instr) (o : Ops) (n : Nat) (f : Nat → Nat → Nat) : State :=
  s.issue i fun s act => s.laneEff o.dst.toNat act fun l => f (s.rd n l o.s0.toNat) (wrap n (immOf o))

/-- `OP %d, %a, %b, %c`. -/
def State.lane3 (s : State) (i : Instr) (o : Ops) (n : Nat) (f : Nat → Nat → Nat → Nat) : State :=
  s.issue i fun s act => s.laneEff o.dst.toNat act fun l =>
    f (s.rd n l o.s0.toNat) (s.rd n l o.s1.toNat) (s.rd n l o.s2.toNat)

/-! ## The instructions -/

/-- VIADD (R95). -/
def execViadd (o : Ops) (s : State) : Host.Outcome State Fault Refusal :=
  .next (s.lane2 (.viadd o) o (widthOf o) (addI (widthOf o) (unsOf o) (satOf o)))

/-- VISUB (R95). -/
def execVisub (o : Ops) (s : State) : Host.Outcome State Fault Refusal :=
  .next (s.lane2 (.visub o) o (widthOf o) (subI (widthOf o) (unsOf o) (satOf o)))

/-- VIMUL (R95). -/
def execVimul (o : Ops) (s : State) : Host.Outcome State Fault Refusal :=
  .next (s.lane2 (.vimul o) o (widthOf o) (mulI (widthOf o) (unsOf o) (satOf o)))

/-- VIMULH (R95). -/
def execVimulh (o : Ops) (s : State) : Host.Outcome State Fault Refusal :=
  .next (s.lane2 (.vimulh o) o (widthOf o) (mulhI (widthOf o) (unsOf o)))

/-- VIMIN (R95). -/
def execVimin (o : Ops) (s : State) : Host.Outcome State Fault Refusal :=
  .next (s.lane2 (.vimin o) o (widthOf o) (minI (widthOf o) (unsOf o)))

/-- VIMAX (R95). -/
def execVimax (o : Ops) (s : State) : Host.Outcome State Fault Refusal :=
  .next (s.lane2 (.vimax o) o (widthOf o) (maxI (widthOf o) (unsOf o)))

/-- VAND (R95). -/
def execVand (o : Ops) (s : State) : Host.Outcome State Fault Refusal :=
  .next (s.lane2 (.vand o) o (widthOf o) (fun a b => a &&& b))

/-- VOR (R95). -/
def execVor (o : Ops) (s : State) : Host.Outcome State Fault Refusal :=
  .next (s.lane2 (.vor o) o (widthOf o) (fun a b => a ||| b))

/-- VXOR (R95). -/
def execVxor (o : Ops) (s : State) : Host.Outcome State Fault Refusal :=
  .next (s.lane2 (.vxor o) o (widthOf o) (fun a b => a ^^^ b))

/-- VSHL (R95). -/
def execVshl (o : Ops) (s : State) : Host.Outcome State Fault Refusal :=
  .next (s.lane2 (.vshl o) o (widthOf o) (shlI (widthOf o)))

/-- VSHR (R95). -/
def execVshr (o : Ops) (s : State) : Host.Outcome State Fault Refusal :=
  .next (s.lane2 (.vshr o) o (widthOf o) (shrI (widthOf o)))

/-- VSAR (R95). -/
def execVsar (o : Ops) (s : State) : Host.Outcome State Fault Refusal :=
  .next (s.lane2 (.vsar o) o (widthOf o) (sarI (widthOf o)))

/-- VIMAD (R95). -/
def execVimad (o : Ops) (s : State) : Host.Outcome State Fault Refusal :=
  .next (s.lane3 (.vimad o) o (widthOf o) (madI (widthOf o) (unsOf o) (satOf o)))

/-- VIABS (R95). -/
def execViabs (o : Ops) (s : State) : Host.Outcome State Fault Refusal :=
  .next (s.lane1 (.viabs o) o (widthOf o) (absI (widthOf o) (satOf o)))

/-- VNOT (R95). -/
def execVnot (o : Ops) (s : State) : Host.Outcome State Fault Refusal :=
  .next (s.lane1 (.vnot o) o (widthOf o) (notI (widthOf o)))

/-- VCLZ (R96). -/
def execVclz (o : Ops) (s : State) : Host.Outcome State Fault Refusal :=
  .next (s.lane1 (.vclz o) o (widthOf o) (perElem clz (widthOf o) o.s2.toNat))

/-- VFFS (R96). -/
def execVffs (o : Ops) (s : State) : Host.Outcome State Fault Refusal :=
  .next (s.lane1 (.vffs o) o (widthOf o) (perElem ffs (widthOf o) o.s2.toNat))

/-- VPOPC (R96). -/
def execVpopc (o : Ops) (s : State) : Host.Outcome State Fault Refusal :=
  .next (s.lane1 (.vpopc o) o (widthOf o) (perElem popc (widthOf o) o.s2.toNat))

/-- VBREV (R96). -/
def execVbrev (o : Ops) (s : State) : Host.Outcome State Fault Refusal :=
  .next (s.lane1 (.vbrev o) o (widthOf o) (perElem brev (widthOf o) o.s2.toNat))

/-- VBFE (R97). -/
def execVbfe (o : Ops) (s : State) : Host.Outcome State Fault Refusal :=
  .next (s.lane3 (.vbfe o) o (widthOf o) (bfeI (widthOf o) (unsOf o)))

/-- VBFI (R97). -/
def execVbfi (o : Ops) (s : State) : Host.Outcome State Fault Refusal :=
  .next (s.lane3 (.vbfi o) o (widthOf o) (bfiI (widthOf o)))

/-- VSEL (R98: each lane reads Pk before the instruction, its operands at 64 bits). -/
def execVsel (o : Ops) (s : State) : Host.Outcome State Fault Refusal :=
  .next (s.issue (.vsel o) fun s act => s.laneEff o.dst.toNat act fun l =>
    if (s.cur.lane l).pred o.mod.toNat then s.rd 64 l o.s0.toNat else s.rd 64 l o.s1.toNat)

/-- VMOV (R98). -/
def execVmov (o : Ops) (s : State) : Host.Outcome State Fault Refusal :=
  .next (s.lane1 (.vmov o) o (widthOf o) id)

/-- VBCAST (R98). -/
def execVbcast (o : Ops) (s : State) : Host.Outcome State Fault Refusal :=
  .next (s.issue (.vbcast o) fun s act => s.laneEff o.dst.toNat act fun l =>
    (s.readUnif l o.s0.toNat).toNat % 2 ^ (widthOf o))

/-- VPADD (R99: modifier bit 2 selects 16-bit elements). -/
def execVpadd (o : Ops) (s : State) : Host.Outcome State Fault Refusal :=
  .next (s.lane2 (.vpadd o) o 32 (paddI (if bit o.mod.toNat 2 then 16 else 8) (unsOf o) (satOf o)))

/-- VDOT4 (R100). -/
def execVdot4 (o : Ops) (s : State) : Host.Outcome State Fault Refusal :=
  .next (s.lane3 (.vdot4 o) o 32 (dot4I o.mod.toNat))

/-- VCMP (R101). -/
def execVcmp (o : Ops) (s : State) : Host.Outcome State Fault Refusal :=
  .next (s.issue (.vcmp o) fun s act => s.pushEff act fun l =>
    condI o.dst.toNat (valOf (widthOf o) (unsOf o) (s.rd (widthOf o) l o.s0.toNat))
      (valOf (widthOf o) (unsOf o) (s.rd (widthOf o) l o.s1.toNat)))

/-- VIADD with an immediate (R89, R95). -/
def execViaddImmediate (o : Ops) (s : State) : Host.Outcome State Fault Refusal :=
  .next (s.laneI (.viaddImmediate o) o (widthOf o) (addI (widthOf o) (unsOf o) (satOf o)))

/-- VISUB with an immediate (R89, R95). -/
def execVisubImmediate (o : Ops) (s : State) : Host.Outcome State Fault Refusal :=
  .next (s.laneI (.visubImmediate o) o (widthOf o) (subI (widthOf o) (unsOf o) (satOf o)))

/-- VIMUL with an immediate (R89, R95). -/
def execVimulImmediate (o : Ops) (s : State) : Host.Outcome State Fault Refusal :=
  .next (s.laneI (.vimulImmediate o) o (widthOf o) (mulI (widthOf o) (unsOf o) (satOf o)))

/-- VIMULH with an immediate (R89, R95). -/
def execVimulhImmediate (o : Ops) (s : State) : Host.Outcome State Fault Refusal :=
  .next (s.laneI (.vimulhImmediate o) o (widthOf o) (mulhI (widthOf o) (unsOf o)))

/-- VIMIN with an immediate (R89, R95). -/
def execViminImmediate (o : Ops) (s : State) : Host.Outcome State Fault Refusal :=
  .next (s.laneI (.viminImmediate o) o (widthOf o) (minI (widthOf o) (unsOf o)))

/-- VIMAX with an immediate (R89, R95). -/
def execVimaxImmediate (o : Ops) (s : State) : Host.Outcome State Fault Refusal :=
  .next (s.laneI (.vimaxImmediate o) o (widthOf o) (maxI (widthOf o) (unsOf o)))

/-- VAND with an immediate (R89, R95). -/
def execVandImmediate (o : Ops) (s : State) : Host.Outcome State Fault Refusal :=
  .next (s.laneI (.vandImmediate o) o (widthOf o) (fun a b => a &&& b))

/-- VOR with an immediate (R89, R95). -/
def execVorImmediate (o : Ops) (s : State) : Host.Outcome State Fault Refusal :=
  .next (s.laneI (.vorImmediate o) o (widthOf o) (fun a b => a ||| b))

/-- VXOR with an immediate (R89, R95). -/
def execVxorImmediate (o : Ops) (s : State) : Host.Outcome State Fault Refusal :=
  .next (s.laneI (.vxorImmediate o) o (widthOf o) (fun a b => a ^^^ b))

/-- VSHL with an immediate (R89, R95). -/
def execVshlImmediate (o : Ops) (s : State) : Host.Outcome State Fault Refusal :=
  .next (s.laneI (.vshlImmediate o) o (widthOf o) (shlI (widthOf o)))

/-- VSHR with an immediate (R89, R95). -/
def execVshrImmediate (o : Ops) (s : State) : Host.Outcome State Fault Refusal :=
  .next (s.laneI (.vshrImmediate o) o (widthOf o) (shrI (widthOf o)))

/-- VSAR with an immediate (R89, R95). -/
def execVsarImmediate (o : Ops) (s : State) : Host.Outcome State Fault Refusal :=
  .next (s.laneI (.vsarImmediate o) o (widthOf o) (sarI (widthOf o)))

/-- VBFE with an immediate length (R97). -/
def execVbfeImmediate (o : Ops) (s : State) : Host.Outcome State Fault Refusal :=
  .next (s.issue (.vbfeImmediate o) fun s act => s.laneEff o.dst.toNat act fun l =>
    bfeI (widthOf o) (unsOf o) (s.rd (widthOf o) l o.s0.toNat) (s.rd (widthOf o) l o.s1.toNat) (wrap 64 (imm16Of o)))

/-- VMOV of an immediate (R98). -/
def execVmovImmediate (o : Ops) (s : State) : Host.Outcome State Fault Refusal :=
  .next (s.issue (.vmovImmediate o) fun s act => s.laneEff o.dst.toNat act fun _ =>
    wrap (widthOf o) (immOf o))

/-- VCMP with an immediate (R101). -/
def execVcmpImmediate (o : Ops) (s : State) : Host.Outcome State Fault Refusal :=
  .next (s.issue (.vcmpImmediate o) fun s act => s.pushEff act fun l =>
    condI o.dst.toNat (valOf (widthOf o) (unsOf o) (s.rd (widthOf o) l o.s0.toNat))
      (valOf (widthOf o) (unsOf o) (wrap (widthOf o) (immOf o))))

end Sys2Proof.Machine
end

