-- ==== Sys2Proof/Machine/Mem.lean ====
section
/-! DEFINITION. Loads, stores, atomics, cache lines, PHASE and FOPND (R36, R37, R108-R111, R201-R204,
R218-R231). -/

namespace Sys2Proof.Machine

/-! ## What lies at a physical address (R359, R363) -/

/-- SPEC's code (R273). -/
def Spec.code : Spec → Nat
  | .finite => 0
  | .pinf => 1
  | .ninf => 2
  | .nan => 3

/-- An element in the 64-bit form that a slot and an image hold (R273): MANT, LOSS and SPEC. -/
def AccElem.word (e : AccElem) : Nat :=
  e.spec.code * 2 ^ 49 + e.loss.toNat * 2 ^ 48 + wrap 48 e.mant

/-- The element that such a word holds. -/
def AccElem.ofWord (x : Nat) : AccElem :=
  { mant := sext 48 (bits x 47 0), loss := bit x 48
    spec := match bits x 50 49 with | 0 => .finite | 1 => .pinf | 2 => .ninf | _ => .nan }

/-- A number with byte `i` replaced. -/
def putByte (x i : Nat) (b : Byte) : Nat := x - bits x (8 * i + 7) (8 * i) * 2 ^ (8 * i) + b.toNat * 2 ^ (8 * i)

/-- Bytes of a name's slot, or of a buffer (R317). -/
def State.slotSize (s : State) (b cls name : Nat) : Nat :=
  let k := s.kernelOfBlock b
  match cls with
  | 0 => k.width * s.laneWidth (s.wave ((s.wavesOf b).headD 0)) name / 8
  | 1 => 8
  | 2 => s.scratchSize b name
  | _ => 32768

/-- A word of a tile's slot: element `64 × row + column`, an undefined value where the element is (R10). -/
def State.tileWord (s : State) (b name i : Nat) : Nat :=
  let t := (s.block b).tiles.get .zero name
  if t.undefs.contains i then (s.undef (tagByte (name * 4096 + i))).toNat
  else if s.badNames.contains (.tile b name i) then 0
  else (t.elems.get .zero i).word

/-- The byte at an offset of a name's slot of wave `k` (R317, R341): a lane name's lanes in turn, a uniform name's value,
a tile's elements. -/
def State.slotByte (s : State) (b k cls name off : Nat) : Byte :=
  let part (x i : Nat) : Byte := BitVec.ofNat 8 (bits x (8 * i + 7) (8 * i))
  match cls with
  | 0 => let n := s.laneWidth (s.wave k) name / 8
    if s.badNames.contains (.laneName k (off / n) name) then 0
    else part (s.ownLane k (off / n) name).toNat (off % n)
  | 1 => if s.badNames.contains (.uniformName k name) then 0 else part (s.unifValue (s.wave k) name).toNat off
  | 2 => if s.markedScratch b name off then 0 else s.scratchByte b name off
  | _ => part (s.tileWord b name (off / 8)) (off % 8)

/-- The place that covers a vault offset of a cluster, local or lateral (R317): the block, the class and number of the
name, and the offset in it. -/
def State.slotAt (s : State) (cluster off : Nat) : Option (Nat × Nat × Nat × Nat) :=
  s.blocks.findSome? fun p =>
    if p.2.used then
      p.2.places.findSome? fun q =>
        let n := q.1 % 65536
        let c := q.1 / 65536
        let x := q.2.toNat
        let at0 := bits x 23 0
        let here := match bits x 63 60 with
          | 4 => p.2.core / 4 == cluster
          | 5 => bits x 29 24 == cluster
          | _ => false
        if here && decide (at0 ≤ off) && decide (off < at0 + s.slotSize p.1 c n) then some (p.1, c, n, off - at0)
        else none
    else none

/-- The byte at an offset of a name's slot is in a marked word. -/
def State.slotMarked (s : State) (b k cls name off : Nat) : Bool :=
  match cls with
  | 0 => s.badNames.contains (.laneName k (off / (s.laneWidth (s.wave k) name / 8)) name)
  | 1 => s.badNames.contains (.uniformName k name)
  | 2 => s.markedScratch b name off
  | _ => s.badNames.contains (.tile b name (off / 8))

/-- A byte of the vault window; a slot of a block's lane or uniform names is that of its first wave (log 24). A marked word
reads as zero (R216). -/
def State.vaultByte (s : State) (pa : Nat) : Byte :=
  match s.slotAt (bits pa 29 24) (bits pa 23 0) with
  | some (b, c, n, o) => s.slotByte b ((s.wavesOf b).headD 0) c n o
  | none => if s.bad.contains (pa / 8 * 8) then 0 else s.vault.get 0 (bits pa 29 0)

/-- A byte of the vault window is in a marked word. -/
def State.vaultBad (s : State) (pa : Nat) : Bool :=
  match s.slotAt (bits pa 29 24) (bits pa 23 0) with
  | some (b, c, n, o) => s.slotMarked b ((s.wavesOf b).headD 0) c n o
  | none => s.bad.contains (pa / 8 * 8)

/-- A write of a byte of a slot. A name's undefined bits outside the byte stay undefined (R10). -/
def State.setSlotByte (s : State) (b k cls name off : Nat) (v : Byte) : State :=
  match cls with
  | 0 => let n := s.laneWidth (s.wave k) name / 8
    s.onWave k fun w =>
      let t := w.lane (off / n)
      (w.soil (8 * n) name [off / n]).setLane (off / n) { t with
        recent := name :: t.recent.filter (· != name)
        names := t.names.put name (BitVec.ofNat 64 (putByte (t.names.get 0 name).toNat (off % n) v)) }
  | 1 => s.onWave k fun w =>
    let open_ := (if w.udead.contains name then BitVec.allOnes 64 else w.uvague.get 0 name) &&& ~~~(0xFF#64 <<< (8 * off))
    { w with
      unif := w.unif.put name (BitVec.ofNat 64 (putByte (w.unif.get 0 name).toNat off v))
      udead := w.udead.filter (· != name), urecent := name :: w.urecent.filter (· != name)
      uvague := if open_ == 0 then w.uvague.del name else w.uvague.put name open_ }
  | 2 => s.writeScratch b name off [v] none
  | _ =>
    let t := (s.block b).tiles.get .zero name
    let e := AccElem.ofWord (putByte (t.elems.get .zero (off / 8)).word (off % 8) v)
    s.putTile b name { t with
      elems := t.elems.put (off / 8) e
      undefs := t.undefs.filter (· != off / 8)
      dirty := if t.dirty.contains (off / 128) then t.dirty else off / 128 :: t.dirty }

/-- Lanes whose word of a slot is written whole hold that word. -/
def State.reviveSlot (s : State) (k name off len : Nat) : State :=
  let n := s.laneWidth (s.wave k) name / 8
  s.onWave k fun w => w.onLanes ((List.range w.width).filter fun l => decide (off ≤ n * l) && decide (n * l + n ≤ off + len))
    fun t => { t with dead := t.dead.filter (· != name) }

/-- Words of a slot written whole lose their marks (R333). -/
def State.unmarkSlot (s : State) (b k cls name off len : Nat) : State :=
  let n := s.laneWidth (s.wave k) name / 8
  let whole (o z : Nat) : Bool := decide (off ≤ o) && decide (o + z ≤ off + len)
  let s := if cls == 2 then s.unmarkScratch b name off len else s
  s.unmarkNames fun e => match e with
    | .laneName j l m => cls == 0 && j == k && m == name && whole (n * l) n
    | .uniformName j m => cls == 1 && j == k && m == name && whole 0 8
    | .tile c m i => cls == 5 && c == b && m == name && whole (8 * i) 8
    | _ => false

/-- A write of the vault window. -/
def State.vaultWrite (s : State) (pa : Nat) (bs : List Byte) : State :=
  match s.slotAt (bits pa 29 24) (bits pa 23 0) with
  | some (b, c, n, o) =>
    let k := (s.wavesOf b).headD 0
    let t := (bs.zipIdx.foldl (fun s p => s.setSlotByte b k c n (o + p.2) p.1) s).unmarkSlot b k c n o bs.length
    if c == 0 then t.reviveSlot k n o bs.length else t
  | none => ({ s with vault := s.vault.puts (bs.zipIdx.map fun p => (bits pa 29 0 + p.2, p.1)) } : State).unmark pa bs.length

/-- A byte of local physical memory as wave `k` reads it: home memory, the vault window, the boot ROM, or
the sensor block, whose layout the manual does not give (log 24). -/
def State.physByte (s : State) (k pa : Nat) : Byte :=
  match bits pa 46 39 with
  | 0 => if s.bad.contains (pa / 8 * 8) then 0 else s.loadByte k pa
  | 1 => s.vaultByte pa
  | 2 => Config.romByte (bits pa 19 0)
  | _ => BitVec.ofNat 8 (s.undef (tagByte pa)).toNat

/-- Bytes of local physical memory. -/
def State.physRead (s : State) (k pa n : Nat) : Nat := ofLe ((List.range n).map fun i => s.physByte k (pa + i))

/-- The marked words that a read touches (R216): of home memory, or of the vault window. -/
def State.badWords (s : State) (pa n : Nat) : List Nat :=
  match bits pa 46 39 with
  | 0 => s.bad.filter fun a => decide (a < pa + n) && decide (pa < a + 8)
  | 1 => if s.bad.isEmpty && s.badNames.isEmpty then []
    else (((List.range n).filter fun i => s.vaultBad (pa + i)).map fun i => (pa + i) / 8 * 8).eraseDups
  | _ => []

/-- Every byte of the 8-byte word at `a` lies in one of the ranges. -/
def wholeWord (rs : List (Nat × Nat)) (a : Nat) : Bool :=
  (List.range 8).all fun i => rs.any fun r => decide (r.1 ≤ a + i) && decide (a + i < r.1 + r.2)

/-- Marked words that an instruction's stores write whole together lose their marks (R216, R333): ranges of physical
addresses. -/
def State.unmarkAll (s : State) (rs : List (Nat × Nat)) : State :=
  if s.bad.isEmpty && s.badNames.isEmpty then s
  else
    let t := { s with bad := s.bad.filter fun a => !wholeWord rs a }
    ((rs.filter fun r => bits r.1 46 39 == 1 && wholeWord rs (r.1 / 8 * 8)).map fun r => r.1 / 8 * 8).foldl (fun s a =>
      match s.slotAt (bits a 29 24) (bits a 23 0) with
      | some (b, c, n, o) => s.unmarkSlot b ((s.wavesOf b).headD 0) c n o 8
      | none => s) t

/-- A write through a page notes its propagation for its frame (R211, R237). -/
def State.noteProp (s : State) (leaf pa : Nat) : State :=
  let f := frameOf pa
  if leafProp leaf then (if s.loose.contains f then { s with loose := s.loose.filter (· != f) } else s)
  else if s.loose.contains f then s else { s with loose := f :: s.loose }

/-- A write of one lane to local physical memory (R211: both copies of a replicated page). DESIGN CHOICE (log 75): both
copies take in unordered writes in the same order (R239). -/
def State.physWrite (s : State) (k pa leaf : Nat) (bs : List Byte) : State :=
  match bits pa 46 39 with
  | 0 => (copiesFor leaf pa).foldl (fun s a => (s.noteProp leaf a).storeHome k a bs) s
  | 1 => s.vaultWrite pa bs
  | _ => s

/-! ## Scratch words (R204, R216) -/

/-- The marked words of a buffer that a read touches. -/
def State.badScratch (s : State) (b buf off n : Nat) : List ErrPlace :=
  if s.badNames.isEmpty then []
  else s.badNames.filter fun e => match e with
    | .scratch c m o => s.instance? c m == s.instance? b buf && decide (o < off + n) && decide (off < o + 8)
    | _ => false

/-- Marked words of a buffer that one operation's writes write whole together lose their marks (R333). -/
def State.unmarkScratchAll (s : State) (b buf : Nat) (rs : List (Nat × Nat)) : State :=
  s.unmarkNames fun e => match e with
    | .scratch c m o => s.instance? c m == s.instance? b buf && wholeWord rs o
    | _ => false

/-- The marked words of a buffer that a read touches, as an engine operation counts them. -/
def State.badScratchKeys (s : State) (b buf off n : Nat) : List Nat :=
  (s.badScratch b buf off n).filterMap fun e => match e with
    | .scratch c m o => some (2 ^ 64 + s.scratchKey c m o)
    | _ => none

/-- Scratch bytes as a lane reads them. -/
def State.scratchRead (s : State) (b buf off n : Nat) : Nat :=
  let bad := s.badScratch b buf off n
  ofLe ((List.range n).map fun i =>
    if bad.any fun e => match e with
      | .scratch _ _ o => decide (o ≤ off + i) && decide (off + i < o + 8)
      | _ => false
    then 0 else s.scratchByte b buf (off + i))

/-- A lane's write of scratch; a word written whole loses its mark. A store's bytes tell nothing of publications
(R238). -/
def State.scratchWrite (s : State) (k buf off : Nat) (bs : List Byte) : State :=
  let b := (s.wave k).block
  let s := if s.carry.isEmpty then s
    else { s with carry := (List.range bs.length).foldl (fun t i => t.del (2 ^ 64 + s.scratchKey b buf (off + i))) s.carry }
  (s.unmarkScratch b buf off bs.length).writeScratch b buf off bs (some k)

/-! ## What a read tells of publications (R238) -/

/-- The stamp of the write that a load of wave `k` reads at a byte. -/
def State.stampRead (s : State) (k pa : Nat) : Nat :=
  let v := (s.seenOf k).view.get 0 pa
  (((s.hist.get [] pa).find? fun p => p.1 ≤ v).map Prod.fst).getD 0

/-- A load of wave `k` of bytes of home memory. -/
def State.learn (s : State) (k : Nat) (pas : List Nat) : State :=
  if s.carry.isEmpty then s
  else s.hear k ((pas.flatMap fun a => s.carry.get [] (s.stampRead k a)).eraseDups)

/-- A read of scratch bytes. -/
def State.learnScratch (s : State) (k buf : Nat) (offs : List Nat) : State :=
  if s.carry.isEmpty then s
  else s.hear k ((offs.flatMap fun o => s.carry.get [] (2 ^ 64 + s.scratchKey (s.wave k).block buf o)).eraseDups)

/-- The scratch that an instruction reads, as it stood before the cycle (R150). -/
def State.scratchPast (s : State) : State := s.past [.m, .e]

/-! ## Checks -/

/-- Checks of R203 on generic addresses of the lanes: pairs of lane and address, accesses of `z` bytes. -/
def State.pointerCheck (s : State) (z : Nat) (as : List (Nat × Nat)) : Option Eff :=
  let ps := as.filter fun a => bits a.2 63 56 == 0xFE
  let size (a : Nat) := s.scratchSize s.cur.block (bits a 55 48)
  match ps.find? fun a => bits a.2 47 32 != 0 with
  | some a => some (.trap causeCanonical (BitVec.ofNat 64 a.2) a.1)
  | none =>
    match ps.find? fun a => decide ((s.declared s.cur).scr ≤ bits a.2 55 48) with
    | some a => some (.trap causeInvalid (BitVec.ofNat 64 a.2) a.1)
    | none =>
      match ps.find? fun a => decide (size a.2 < bits a.2 31 0 + z) with
      | some a => some (.trap causeBounds (BitVec.ofNat 64 a.2) a.1)
      | none => none

/-- A watchpoint of the launch that an access touches (R390). -/
def State.watched (s : State) (write read : Bool) (va z : Nat) : Bool :=
  (s.launch (s.launchOf s.cur)).watches.any fun w =>
    ((write && w.write) || (read && w.read)) && decide (w.base < va + z) && decide (va < w.base + w.len)

/-- Bytes that an engine operation accesses: from an address, how many, written or read. -/
structure Span where
  va    : Nat
  len   : Nat
  write : Bool
  deriving DecidableEq, Repr

/-- The first address at which an access hits a watchpoint of its kind (R390). -/
def Watch.hit (w : Watch) (r : Span) : Option Nat :=
  if (if r.write then w.write else w.read) && decide (w.base < r.va + r.len) && decide (r.va < w.base + w.len) then
    some (max r.va w.base)
  else none

/-- The hits of a unit's accesses, by the issuing wave's launch: the watchpoint's slot and the address. -/
def State.unitHits (s : State) (k : Nat) (rs : List Span) : List (Nat × Nat) :=
  (s.launch (s.launchOf (s.wave k))).watches.filterMap fun w => (rs.findSome? w.hit).map fun a => (w.slot, a)

/-- An operation of wave `k` accesses these spans, in order: hits of watchpoints that it has not hit before wait for their
reports (R390). The result lists the slots. -/
def State.hitUnit (s : State) (e : EngineRef) (k : Nat) (pc : BitVec 64) (lanes hits : List Nat) (rs : List Span) :
    State × List Nat :=
  let hs := (s.unitHits k rs).filter fun h => !hits.contains h.1
  if hs.isEmpty then (s, hits)
  else ({ s with hits := s.hits ++ hs.map fun h => ⟨e, h.1, BitVec.ofNat 64 h.2, k, pc, lanes, (s.wave k).retired⟩ },
    hits ++ hs.map Prod.fst)

/-- A launch has watchpoints. -/
def State.watching (s : State) (k : Nat) : Bool := !(s.launch (s.launchOf (s.wave k))).watches.isEmpty

/-- EPI and TMERGE hit watchpoints with what they read and write. -/
def State.watchUnit (s : State) (k : Nat) (act : List Nat) (rs : List Span) : State :=
  (s.hitUnit (.epilogue k s.iss.pc (act.headD 0)) k s.iss.pc act [] rs).1

/-- The watchpoint trap of a lane access (R390). -/
def State.watchTrap (s : State) (write read : Bool) (z : Nat) (as : List (Nat × Nat)) : Option Eff :=
  (as.find? fun a => s.watched write read a.2 z).map fun a => .trap causeWatch (BitVec.ofNat 64 a.2) a.1

/-- A remote atomic of the wave that acquires is not yet performed: nothing that the wave issues later is performed
before it (R225). -/
def State.acquiring (s : State) (k : Nat) : Bool := s.remotes.any fun r => r.2.wave == k && r.2.acq.isSome

/-- An access of the wave waits: for a remote atomic of the wave that acquires (R225), or for an EPI or TMERGE write to
its buffer (R280, R309). -/
def State.accessWaits (s : State) (bufs : List Nat) : Bool := s.acquiring s.iss.wave || s.unitBusy bufs

/-- The checks of R109 and R203 and the translation of the global lanes: what stops the access, or the
physical address and leaf of each global lane. -/
def State.genericCheck (s : State) (kind : AccKind) (z : Nat) (as : List (Nat × Nat)) :
    Except Eff (List (Nat × Nat × Nat)) :=
  if s.accessWaits (as.filterMap fun a => if bits a.2 63 56 == 0xFE then some (bits a.2 55 48) else none) then
    .error (.wait s .access)
  else match as.find? fun a => bits a.2 63 56 != 0 && bits a.2 63 56 != 0xFE with
  | some a => .error (.trap causeCanonical (BitVec.ofNat 64 a.2) a.1)
  | none =>
    match as.find? fun a => a.2 % z != 0 with
    | some a => .error (.trap causeAlign (BitVec.ofNat 64 a.2) a.1)
    | none =>
      match s.pointerCheck z as with
      | some e => .error e
      | none =>
        match s.reach kind (kind == .atomic) (as.filter fun a => bits a.2 63 56 == 0) with
        | .park ps => .error (.wait s (s.park ps))
        | .denied l va => .error (.trap causeProtection (BitVec.ofNat 64 va) l)
        | .ok pas =>
          match s.watchTrap (kind == .store || kind == .atomic) (kind != .store) z as with
          | some e => .error e
          | none => .ok pas

/-! ## Values and flights of a load -/

/-! ### Flits (R361) -/

/-- One bit through the CRC register: polynomial 0x8BB7. -/
def crcBit (r : Nat) (b : Bool) : Nat :=
  let top := bit r 15 != b
  (2 * r % 65536) ^^^ (if top then 0x8BB7 else 0)

/-- One byte, most significant bit first. -/
def crcByte (r b : Nat) : Nat :=
  [7, 6, 5, 4, 3, 2, 1, 0].foldl (fun r i => crcBit r (bit b i)) r

/-- CRC-16 over bytes, in the order given, from 0. -/
def crc16 (bs : List Nat) : Nat := bs.foldl crcByte 0

/-- The CRC that a flit should carry: over bits 239 down to 0. -/
def flitCrc (f : Nat) : Nat := crc16 ((List.range 30).map fun i => bits f (8 * (29 - i) + 7) (8 * (29 - i)))

/-- The SEQ of a flit. -/
def flitSeq (f : BitVec 256) : BitVec 8 := BitVec.ofNat 8 (bits f.toNat 239 232)

/-- A flit with its fields and its CRC. -/
def flitOf (seq : BitVec 8) (vc kind data : Nat) : BitVec 256 :=
  let body := seq.toNat * 2 ^ 232 + vc % 4 * 2 ^ 230 + kind % 64 * 2 ^ 224 + data % 2 ^ 224
  BitVec.ofNat 256 (flitCrc body * 2 ^ 240 + body)

/-- A link-control flit: it carries no SEQ of its own, and the SEQ concerned in its data. -/
def controlFlit (kind : Nat) (seq : BitVec 8) : BitVec 256 := flitOf 0 3 kind seq.toNat

/-- Flits that a message of `n` bytes takes: 28 bytes each. -/
def flitsOf (n : Nat) : Nat := max 1 ((n + 27) / 28)

/-- A link sends the next flit of a message: numbered, and kept until it is acknowledged. The codes of the message kinds,
which the manual does not give, are open (log 29). -/
def GLink.emit (g : GLink) (m : Outgoing) : GLink :=
  { g with
    next := g.next + 1
    replay := g.replay ++ [flitOf g.next m.vc (Config.messageKind m.kind).toNat (ofLe (m.bytes.take 28))] }

/-- Messages leave on a Ghedy link in turn, flit by flit, at most `n` flits (R361, R362): none while 128 are unacknowledged
or the link trains. -/
def GLink.pump (g : GLink) : Nat → GLink
  | 0 => g
  | n + 1 =>
    match g.backlog with
    | [] => g
    | m :: rest =>
      if g.training || 128 ≤ g.replay.length then g
      else if m.bytes.length ≤ 28 then GLink.pump { g.emit m with backlog := rest } n
      else GLink.pump { g.emit m with backlog := { m with bytes := m.bytes.drop 28, begun := true } :: rest } n

/-- A message is to leave on a link: 0 a request, 1 a response, 2 a collective; its kind, and its bytes. -/
def State.sendMsg (s : State) (link vc kind : Nat) (bytes : List Byte) : State :=
  let g := s.glink link
  s.setGlink link (GLink.pump { g with backlog := g.backlog ++ [⟨vc, kind, bytes, false⟩] } 128)

/-- The link that a message takes: one that does not train, where there is one (R362). Which of them lead where is left
open (log 29). -/
def State.route (s : State) (tag : Nat) : Nat :=
  let up := (List.range 18).filter fun i => !(s.glink i).training
  let ls := if up.isEmpty then List.range 18 else up
  ls.getD (s.choose tag ls.length) 0

/-- What a remote access is, as another than a load. -/
def RemoteOp.writes : RemoteOp → Bool
  | .load => false
  | _ => true

/-- The kind of a request, as `Config.messageKind` numbers them. -/
def RemoteOp.kind : RemoteOp → Nat
  | .load => 0
  | .store _ => 1
  | .atomic _ _ _ _ => 2

/-- A request's bytes. DESIGN CHOICE (log 29): its number, the place with the size and the operation, the data. -/
def RemoteOp.bytes (r : RemoteOp) (id lpa z : Nat) : List Byte :=
  leBytes 4 id ++ match r with
    | .load => leBytes 8 (lpa + z * 2 ^ 40)
    | .store data => leBytes 8 (lpa + z * 2 ^ 40) ++ data
    | .atomic op uns b c => leBytes 8 (lpa + z * 2 ^ 40 + op * 2 ^ 48 + uns.toNat * 2 ^ 56) ++ leBytes 8 b ++ leBytes 8 c

/-- A remote access leaves (R363): lane `l` of wave `k` waits for its response in a lane name. -/
def State.sendRemote (s : State) (k l name pa z : Nat) (ask : RemoteOp) (sign : Bool) (acq : Option Nat) : State × Nat :=
  let id := s.remotes.free
  let link := s.route (tagMisc id)
  ({ (s.sendMsg link 0 ask.kind (ask.bytes id (bits pa 38 0) z)) with
      remotes := s.remotes.put id ⟨k, l, name, link, bits pa 54 47, bits pa 38 0, z, sign, ask, false, acq, s.time⟩ }, id)

/-- A result that will come with a remote response leaves for one lane. -/
def State.flyRemote (s : State) (l name id : Nat) : State :=
  let s := s.flyLanes [l] name [(l, 0)] 0
  s.onWave s.iss.wave fun w => { w with
    flights := w.flights.map fun f =>
      if f.name == name && !f.uniform && f.lanes == [l] && f.remote.isNone then { f with remote := some id }
      else f }

/-- What a release at a scope waits for (R225, R228, R364): every earlier access of the wave; at .SYS scope every remote
write that its view may hold, those of its launch. -/
def State.releaseBusy (s : State) (k scope : Nat) : Bool :=
  s.busy k (fun _ => true) || (decide (3 ≤ scope) && s.remotes.any fun r =>
    (r.2.ask.writes || r.2.unit) && s.launchOf (s.wave r.2.wave) == s.launchOf (s.wave k))

/-- A loaded value of `z` bytes, sign-extended or not (R109, R219). -/
def loaded (z : Nat) (signed : Bool) (x : Nat) : BitVec 64 :=
  BitVec.ofNat 64 (if signed then wrap 64 (sext (8 * z) x) else x)

/-- LD's effect once its checks are passed: local lanes' values arrive later, remote lanes wait for their
responses; words read as zero are counted once each (R332). -/
def State.loadEff (s : State) (name z : Nat) (signed : Bool) (as : List (Nat × Nat))
    (pas : List (Nat × Nat × Nat)) : Eff :=
  let k := s.iss.wave
  let die := s.dieOf s.cur
  let remote := pas.filter fun p => bit p.2.1 55
  let loc := (pas.filter fun p => !bit p.2.1 55).map fun p => (p.1, copyFor die p.2.2 p.2.1)
  let ptr := (as.filter fun a => bits a.2 63 56 == 0xFE).map fun a => (a.1, bits a.2 55 48, bits a.2 31 0)
  let b := s.cur.block
  let vals := loc.map (fun p => (p.1, loaded z signed (s.physRead k p.2 z))) ++
    ptr.map fun p => (p.1, loaded z signed (s.scratchPast.scratchRead b p.2.1 p.2.2 z))
  let bad := ((loc.flatMap fun p => s.badWords p.2 z).eraseDups).length
  let badS := ((ptr.flatMap fun p => s.badScratch b p.2.1 p.2.2 z).eraseDups).length
  let s := (s.noteErrs k 4 0 name bad).noteErrs k 3 0 name badS
  let s := s.fills s.cur ((as.filter fun a => bits a.2 63 56 == 0).map Prod.snd)
  let s := s.learn k (loc.flatMap fun p => (List.range z).map (p.2 + ·))
  let s := ptr.foldl (fun s p => s.learnScratch k p.2.1 ((List.range z).map (p.2.2 + ·))) s
  let s := if vals.isEmpty then s else (s.flyLanes (vals.map Prod.fst) name vals 0).fromMem (if loc.isEmpty then 3 else 4)
  .done (remote.foldl (fun s p =>
    let r := s.sendRemote k p.1 name p.2.1 z .load signed none
    r.1.flyRemote p.1 name r.2) s)

/-- Size of LD, ST, LDS and STS (R108). -/
def accessSize (o : Ops) : Nat := 2 ^ bits o.mod.toNat 1 0

/-- Effective addresses of the active lanes: base name and signed offset (R109). -/
def State.eas (s : State) (o : Ops) (act : List Nat) : List (Nat × Nat) :=
  act.map fun l => (l, wrap 64 (((s.rd 64 l o.s0.toNat : Nat) : Int) + imm16Of o))

/-- LD (R108-R110, R203). -/
def State.ldEff (s : State) (o : Ops) (act : List Nat) : Eff :=
  let as := s.eas o act
  match s.genericCheck .load (accessSize o) as with
  | .error e => e
  | .ok pas => s.loadEff o.dst.toNat (accessSize o) (bit o.mod.toNat 2) as pas

/-- LD. -/
def execLd (o : Ops) (s : State) : Host.Outcome State Fault Refusal :=
  .next (s.issue (.ld o) fun s act => s.ldEff o act)

/-- One lane's store of bytes to a generic address: `pas` gives physical addresses of global lanes. -/
def State.storeLane (s : State) (pas : List (Nat × Nat × Nat)) (l va : Nat) (bs : List Byte) : State :=
  let k := s.iss.wave
  match pas.find? fun p => p.1 == l with
  | some p =>
    if bit p.2.1 55 then (s.sendRemote k l 0 p.2.1 bs.length (.store bs) false none).1
    else (s.physWrite k p.2.1 p.2.2 bs).access1 k 1 p.2.1
  | none => (s.scratchWrite k (bits va 55 48) (bits va 31 0) bs).access1 k 2 (bits va 55 48)

/-- ST (R108-R110, R203): lanes in ascending order. -/
def State.stEff (s : State) (o : Ops) (act : List Nat) : Eff :=
  let z := accessSize o
  let as := s.eas o act
  match s.genericCheck .store z as with
  | .error e => e
  | .ok pas =>
    let vs := as.map fun a => (a, leBytes z (s.rd 64 a.1 o.s1.toNat))
    let t := s.fills s.cur ((as.filter fun a => bits a.2 63 56 == 0).map Prod.snd)
    let ptr := as.filter fun a => bits a.2 63 56 == 0xFE
    let t := (vs.foldl (fun t v => t.storeLane pas v.1.1 v.1.2 v.2) t).unmarkAll
      ((pas.filter fun p => !bit p.2.1 55).flatMap fun p => (copiesFor p.2.2 p.2.1).map fun a => (a, z))
    .done (((ptr.map fun a => bits a.2 55 48).eraseDups).foldl (fun t buf => t.unmarkScratchAll s.cur.block buf
      ((ptr.filter fun a => bits a.2 55 48 == buf).map fun a => (bits a.2 31 0, z))) t)

/-- ST. -/
def execSt (o : Ops) (s : State) : Host.Outcome State Fault Refusal :=
  .next (s.issue (.st o) fun s act => s.stEff o act)

/-! ## LDS and STS (R218-R220) -/

/-- The offsets of the active lanes, exact (R219). -/
def State.offsets (s : State) (o : Ops) (act : List Nat) : List (Nat × Int) :=
  act.map fun l => (l, ((s.rd 32 l o.s0.toNat : Nat) : Int) + imm16Of o)

/-- The checks of LDS and STS on buffer `buf` (R219). -/
def State.scratchCheck (s : State) (buf z : Nat) (os : List (Nat × Int)) (write : Bool) : Option Eff :=
  let ptr (x : Int) := scratchPtr buf (wrap 32 x)
  if s.acquiring s.iss.wave then some (.wait s .access)
  else match os.find? fun p => p.2 % (z : Int) != 0 with
  | some p => some (.trap causeAlign (ptr p.2) p.1)
  | none =>
    match os.find? fun p => decide (p.2 < 0) || decide ((s.scratchSize s.cur.block buf : Int) < p.2 + z) with
    | some p => some (.trap causeBounds (ptr p.2) p.1)
    | none => s.watchTrap write (!write) z (os.map fun p => (p.1, (ptr p.2).toNat))

/-- LDS (R218, R219). -/
def State.ldsEff (s : State) (o : Ops) (act : List Nat) : Eff :=
  let z := accessSize o
  let buf := o.s1.toNat
  let os := s.offsets o act
  match s.scratchCheck buf z os false with
  | some e => e
  | none =>
    let b := s.cur.block
    let bad := ((os.flatMap fun p => s.badScratch b buf p.2.toNat z).eraseDups).length
    .done ((((s.noteErrs s.iss.wave 3 0 o.dst.toNat bad).learnScratch s.iss.wave buf
      (os.flatMap fun p => (List.range z).map (p.2.toNat + ·))).flyLanes act o.dst.toNat
      (os.map fun p => (p.1, loaded z (bit o.mod.toNat 2) (s.scratchPast.scratchRead b buf p.2.toNat z))) 0).fromMem 3)

/-- LDS. -/
def execLds (o : Ops) (s : State) : Host.Outcome State Fault Refusal :=
  .next (s.issue (.lds o) fun s act => s.ldsEff o act)

/-- STS (R218, R219): lanes in ascending order. -/
def State.stsEff (s : State) (o : Ops) (act : List Nat) : Eff :=
  let z := accessSize o
  let buf := o.dst.toNat
  let os := s.offsets o act
  match s.scratchCheck buf z os true with
  | some e => e
  | none =>
    let vs := os.map fun p => (p.2.toNat, leBytes z (s.rd 64 p.1 o.s1.toNat))
    .done (((vs.foldl (fun t v => t.scratchWrite s.iss.wave buf v.1 v.2) s).unmarkScratchAll s.cur.block buf
      (vs.map fun v => (v.1, z))).access1 s.iss.wave 2 buf)

/-- STS. -/
def execSts (o : Ops) (s : State) : Host.Outcome State Fault Refusal :=
  .next (s.issue (.sts o) fun s act => s.stsEff o act)

/-! ## Atomics (R221-R225) -/

/-- The new value of an atomic (R222): `old`, `b` and `c` are N-bit patterns; none for LOAD. -/
def atomicOp (op n : Nat) (u : Bool) (old b c : Nat) : Option Nat :=
  match op with
  | 0 => some ((old + b) % 2 ^ n)
  | 1 => some (minI n u old b)
  | 2 => some (maxI n u old b)
  | 3 => some (old &&& b)
  | 4 => some (old ||| b)
  | 5 => some (old ^^^ b)
  | 6 => some b
  | 7 => some (if old == c then b else old)
  | 8 => some (fadd 0 old b).1
  | _ => none

/-- The vault-cache line that holds `pa` in a cluster, filled from home where it is absent (R224). -/
def State.lineFor (s : State) (ctx cluster pa : Nat) : VLine :=
  match s.vlines.find? fun v => v.cluster == cluster && v.line == pa / 128 with
  | some v => v
  | none =>
    let a := pa / 128 * 128
    ⟨ctx, cluster, pa / 128, (List.range 128).map fun i => (i, s.mem.get (a + i)), [],
      (List.range 128).map fun i => (i, s.homeHead (a + i)), []⟩

/-- The vault cache with a line in place of the one it held. -/
def State.setLine (s : State) (v : VLine) : State :=
  { s with vlines := v :: s.vlines.filter fun x => !(x.cluster == v.cluster && x.line == v.line) }

/-- Whether an ATOM to a page is performed in the vault cache (R224): not on a SYNC page, not uncached, and
not through the vault window. -/
def inVaultCache (pa leaf : Nat) : Bool := !leafSync leaf && leafC leaf && bits pa 46 39 == 0

/-- A line as an atomic of a wave finds it: a byte of which the wave has seen a later write comes from home (R233). -/
def State.renewed (s : State) (w : Wave) (v : VLine) : VLine :=
  let old := (List.range 128).filter fun i => decide (v.stamps.get 0 i < w.view.get 0 (128 * v.line + i))
  if old.isEmpty then v
  else { v with
    bytes := v.bytes.puts (old.map fun i => (i, s.mem.get (128 * v.line + i)))
    stamps := v.stamps.puts (old.map fun i => (i, s.homeHead (128 * v.line + i)))
    dirty := v.dirty.filter fun i => !old.contains i }

/-- The line of a wave's cluster. -/
def State.lineOf (s : State) (k pa : Nat) : VLine :=
  s.renewed (s.wave k) (s.lineFor (s.ctxOf (s.wave k)) (s.clusterOf (s.wave k)) pa)

/-- The value at an atomic's place. -/
def State.atomOld (s : State) (k pa leaf z : Nat) : Nat :=
  if inVaultCache pa leaf then
    let v := s.lineOf k pa
    ofLe ((List.range z).map fun i =>
      if s.bad.contains ((pa + i) / 8 * 8) then 0 else v.bytes.get 0 ((pa + i) % 128))
  else if bits pa 46 39 == 0 then
    ofLe ((List.range z).map fun i => if s.bad.contains ((pa + i) / 8 * 8) then 0 else s.mem.get (pa + i))
  else s.physRead k pa z

/-- The stamps of the writes that an atomic reads, byte by byte. -/
def State.atomStamps (s : State) (k pa leaf z : Nat) : List Nat :=
  if inVaultCache pa leaf then (List.range z).map fun i => (s.lineOf k pa).stamps.get 0 ((pa + i) % 128)
  else (List.range z).map fun i => s.homeHead (pa + i)

/-- Write an atomic's new value at its place. -/
def State.atomNew (s : State) (k pa leaf : Nat) (bs : List Byte) : State :=
  if inVaultCache pa leaf then
    let v := s.lineOf k pa
    let n := s.stamp
    let offs := bs.zipIdx.map fun p => (pa % 128 + p.2, p.1)
    let s := s.noteProp leaf pa
    let s := s.setLine { v with
      bytes := v.bytes.puts offs
      stamps := v.stamps.puts (offs.map fun p => (p.1, n))
      own := n :: v.own
      dirty := v.dirty ++ (offs.map Prod.fst).filter fun i => !v.dirty.contains i }
    let s := bs.zipIdx.foldl (fun s p =>
      let a := pa + p.2
      let ws := match s.hist.get [] a with
        | [] => [(0, s.mem.get a)]
        | ws => ws
      { s with hist := s.hist.put a ((n, p.1) :: ws) }) s
    ({ s with stamp := n + 1 }.unmark pa bs.length).seeBlock k pa bs.length n
  else s.physWrite k pa leaf bs

/-- An atomic's write tells its readers what its wave's last release did, and what the write that it read tells
(R238). -/
def State.tell (s : State) (k n : Nat) (heard : List Nat) : State :=
  let ns := joinKnown (s.wave k).told heard
  if ns.isEmpty then s else { s with carry := s.carry.put n ns }

/-- What an atomic reads enters its wave's view (R234). -/
def State.seeRead (s : State) (k pa : Nat) (ns : List Nat) : State :=
  s.onWave k fun w => ns.zipIdx.foldl (fun w p => if w.view.get 0 (pa + p.2) < p.1 then w.see (pa + p.2) 1 p.1 else w) w

/-- One performance of a lane's global atomic: the state after it and the old value. -/
def State.atomLane (s : State) (op n : Nat) (u : Bool) (pa leaf b c : Nat) : State × Nat :=
  let k := s.iss.wave
  let old := s.atomOld k pa leaf (n / 8)
  let ns := if bits pa 46 39 == 0 then s.atomStamps k pa leaf (n / 8) else []
  let told := if s.carry.isEmpty then [] else (ns.flatMap fun n => s.carry.get [] n).eraseDups
  let t := (s.seeRead k pa ns).hear k told
  match atomicOp op n u old b c with
  | some v => ((t.atomNew k pa leaf (leBytes (n / 8) v)).tell k s.stamp told, old)
  | none => (t, old)

/-- One performance of a lane's scratch atomic. -/
def State.atomsLane (s : State) (op n : Nat) (u : Bool) (buf off b c : Nat) : State × Nat :=
  let k := s.iss.wave
  let old := s.scratchRead s.cur.block buf off (n / 8)
  let keys := (List.range (n / 8)).map fun i => 2 ^ 64 + s.scratchKey s.cur.block buf (off + i)
  let told := if s.carry.isEmpty then [] else (keys.flatMap fun x => s.carry.get [] x).eraseDups
  let t := s.hear k told
  match atomicOp op n u old b c with
  | some v => (keys.foldl (fun t x => t.tell k x told) (t.scratchWrite k buf off (leBytes (n / 8) v)), old)
  | none => (t, old)

/-- Fields of the selector (R221). -/
def atomOp (o : Ops) : Nat := bits o.s2.toNat 3 0
def atomN (o : Ops) : Nat := if bit o.s2.toNat 4 then 64 else 32
def atomRel (o : Ops) : Bool := bit o.s2.toNat 5
def atomAcq (o : Ops) : Bool := bit o.s2.toNat 6
def atomNR (o : Ops) : Bool := bit o.s2.toNat 7
def atomScope (o : Ops) : Nat := bits o.mod.toNat 1 0

/-- An atomic's lanes in ascending order: each performs once and returns the old value. -/
def State.atomFold (s : State) (act : List Nat) (f : State → Nat → State × Nat) : State × List (Nat × BitVec 64) :=
  act.foldl (fun r l =>
    let q := f r.1 l
    (q.1, r.2 ++ [(l, BitVec.ofNat 64 q.2)])) (s, [])

/-- How an atomic ends: the release stands before its performance, the acquire after it (R225); the old values
arrive later, unless it returns none. `kind` and `addrs` say what it leaves unperformed, `errs` what its reads count,
`far` that another device performs it for some lanes. -/
def State.atomEnd (s : State) (o : Ops) (act : List Nat) (kind : Nat) (addrs : List Nat) (src errs : Nat) (far : Bool)
    (f : State → Nat → State × Nat) : Eff :=
  let k := s.iss.wave
  if atomRel o && s.releaseBusy k (atomScope o) then .wait s .access
  else
    let s := s.noteErrs k src 0 o.dst.toNat errs
    let s := if atomRel o then s.release k (atomScope o) else s
    let r := s.atomFold act f
    let s := r.1
    let s := if atomAcq o && !far then s.acquire k (atomScope o) else s
    if atomNR o then .done (if act.isEmpty then s else addrs.foldl (fun s a => s.access1 k kind a) s)
    else .done (if act.isEmpty then s else (s.flyLanes act o.dst.toNat r.2 0).fromMem src)

/-- ATOM (R223, R231). -/
def State.atomEff (s : State) (o : Ops) (act : List Nat) : Eff :=
  let n := atomN o
  let as := act.map fun l => (l, s.rd 64 l o.s0.toNat)
  match as.find? fun a => bits a.2 63 56 != 0 with
  | some a => .trap causeCanonical (BitVec.ofNat 64 a.2) a.1
  | none =>
    match s.genericCheck .atomic (n / 8) as with
    | .error e => e
    | .ok pas =>
      match pas.find? fun p => decide (2 ≤ atomScope o) && !leafSync p.2.2 with
      | some p => .trap causeScope (BitVec.ofNat 64 (((as.find? fun a => a.1 == p.1).map Prod.snd).getD 0)) p.1
      | none =>
        let remote := pas.filter fun p => bit p.2.1 55
        let bad := ((pas.flatMap fun p => s.badWords p.2.1 (n / 8)).eraseDups).length
        let bc := as.map fun a => (a.1, s.rd n a.1 o.s1.toNat, s.rd n a.1 o.dst.toNat)
        let s := s.fills s.cur (as.map Prod.snd)
        let near := pas.filter fun p => !bit p.2.1 55
        let vals (l : Nat) := ((bc.find? fun p => p.1 == l).map Prod.snd).getD (0, 0)
        let e := s.atomEnd o (act.filter fun l => near.any fun p => p.1 == l) 1 (near.map fun p => p.2.1).eraseDups 4 bad
          (!remote.isEmpty) fun s l =>
            let p := (pas.find? fun p => p.1 == l).getD (0, 0, 0)
            s.atomLane (atomOp o) n (bit o.mod.toNat 2) p.2.1 p.2.2 (vals l).1 (vals l).2
        match e with
        | .done t => .done (remote.foldl (fun s p =>
            let ask := RemoteOp.atomic (atomOp o) (bit o.mod.toNat 2) (vals p.1).1 (vals p.1).2
            let acq := if atomAcq o then some (atomScope o) else none
            let r := s.sendRemote s.iss.wave p.1 o.dst.toNat p.2.1 (n / 8) ask false acq
            if atomNR o then r.1 else r.1.flyRemote p.1 o.dst.toNat r.2) t)
        | e => e

/-- ATOM. -/
def execAtom (o : Ops) (s : State) : Host.Outcome State Fault Refusal :=
  .next (s.issue (.atom o) fun s act => s.atomEff o act)

/-- ATOMS (R223, R231): the tag and bits 47:32, then alignment, then the remaining checks of R203. DEDUCED (log 73): the
order is that of R231's table; R223's list puts alignment first. -/
def State.atomsEff (s : State) (o : Ops) (act : List Nat) : Eff :=
  let n := atomN o
  let as := act.map fun l => (l, s.rd 64 l o.s0.toNat)
  match (as.find? fun a => bits a.2 63 56 != 0xFE).or (as.find? fun a => bits a.2 47 32 != 0) with
  | some a => .trap causeCanonical (BitVec.ofNat 64 a.2) a.1
  | none =>
    match s.genericCheck .atomic (n / 8) as with
    | .error e => e
    | .ok _ =>
      let b := s.cur.block
      let bad := ((as.flatMap fun a =>
        s.badScratch b (bits a.2 55 48) (bits a.2 31 0) (n / 8)).eraseDups).length
      let bc := as.map fun a => (a.1, a.2, s.rd n a.1 o.s1.toNat, s.rd n a.1 o.dst.toNat)
      s.atomEnd o act 2 (as.map fun a => bits a.2 55 48).eraseDups 3 bad false fun s l =>
        let v := (bc.find? fun p => p.1 == l).getD (0, 0, 0, 0)
        s.atomsLane (atomOp o) n (bit o.mod.toNat 2) (bits v.2.1 55 48) (bits v.2.1 31 0) v.2.2.1 v.2.2.2

/-- ATOMS. -/
def execAtoms (o : Ops) (s : State) : Host.Outcome State Fault Refusal :=
  .next (s.issue (.atoms o) fun s act => s.atomsEff o act)

/-! ## Cache lines (R226, R227) -/

/-- The cacheable readable global lines that the active lanes name: physical addresses (R226). -/
def State.lines (s : State) (o : Ops) (act : List Nat) : List Nat :=
  ((s.eas o act).filterMap fun a =>
    if bits a.2 63 56 != 0 then none
    else match s.translate s.cur .load (a.2 / 128 * 128) with
      | .ok pa leaf =>
        if leafC leaf && !bit pa 55 then some (copyFor (s.dieOf s.cur) leaf (pa / 128 * 128)) else none
      | _ => none).eraseDups

/-- PREF (R226): a line enters a cache; no value depends on it, and the model's L1 holds none. Into the vault
cache, the line is filled (R224). -/
def execPref (o : Ops) (s : State) : Host.Outcome State Fault Refusal :=
  .next (s.issue (.pref o) fun s act => .done
    (if bits o.mod.toNat 1 0 == 1 then
      (s.lines o act).foldl (fun s pa => s.setLine (s.lineFor (s.ctxOf s.cur) (s.clusterOf s.cur) pa)) s
    else s))

/-- CFLUSH (R227): the line leaves the L1, and with `.VC` the cluster's vault cache; its write-back is performed later
and ends the waits for it. -/
def execCflush (o : Ops) (s : State) : Host.Outcome State Fault Refusal :=
  .next (s.issue (.cflush o) fun s act => .done
    ((s.lines o act).foldl (fun s pa =>
      s.access1 s.iss.wave (if bits o.mod.toNat 1 0 == 1 then 0 else 4) pa) s))

/-- Write a vault-cache line home and drop it (R224, R227). -/
def State.dropLine (s : State) (cluster line : Nat) : State :=
  match s.vlines.find? fun v => v.cluster == cluster && v.line == line with
  | some v => s.writeLine v
  | none => s

/-- VAULT_CACHE_WRITEBACK (R224). -/
def execVaultCacheWriteback (cluster line : Nat) (s : State) : Host.Outcome State Fault Refusal :=
  .next (s.dropLine cluster line)

/-- The latest published write of a byte, to whatever parties it was published. -/
def State.publishedAny (s : State) (pa : Nat) : Nat :=
  let most (n : Nat) (t : Tab (Tab Nat)) : Nat := t.foldl (fun n p => max n (p.2.get 0 pa)) n
  most (most (s.published 0 pa) s.pubGang) s.pubBlk

/-- A line's published data is home for readers outside the device (R227). -/
def State.flushLine (s : State) (pa : Nat) : State :=
  let t := (List.range 128).foldl (fun t i =>
    let n := s.publishedAny (pa + i)
    if t.get 0 (pa + i) < n then t.put (pa + i) n else t) s.flushed
  { s with flushed := t }

/-- An access is performed: the write-back of a CFLUSH happens (R227, R228). -/
def State.perform (s : State) (a : Access) : State :=
  let s := if a.kind == 0 then s.dropLine (s.clusterOf (s.wave a.wave)) (a.addr / 128) else s
  if a.kind == 0 || a.kind == 4 then s.flushLine a.addr else s

/-- ACCESS_PERFORMED (R228): access number `k` of those outstanding. -/
def execAccessPerformed (k : Nat) (s : State) : Host.Outcome State Fault Refusal :=
  .next (match s.access[k]? with
    | some a => { s with access := s.access.eraseIdx k }.perform a
    | none => s)

/-! ## PHASE and FOPND (R228, R229) -/

/-- PHASE (R228): it waits for the wave's earlier accesses; then a release, then an acquire. -/
def State.phaseEff (s : State) (o : Ops) (_ : List Nat) : Eff :=
  let k := s.iss.wave
  let scope := bits o.mod.toNat 1 0
  if s.releaseBusy k scope then .wait s .access
  else .done ((s.release k scope).acquire k scope)

/-- PHASE. -/
def execPhase (o : Ops) (s : State) : Host.Outcome State Fault Refusal :=
  .next (s.issue (.phase o) fun s act => s.phaseEff o act)

/-- The wave's lane stores to a buffer's instance are fenced for engine reads (R229). -/
def State.fence (s : State) (k buf : Nat) : State :=
  let b := (s.wave k).block
  let i := s.scratch b buf
  if i.unfenced.isEmpty then s
  else s.setScratch b buf { i with unfenced := i.unfenced.filter fun u => u.2 != k }

/-- FOPND (R229): `&b`, or every buffer of the kernel. -/
def State.fopndEff (s : State) (o : Ops) (_ : List Nat) : Eff :=
  let k := s.iss.wave
  let all := bit o.s2.toNat 0
  if s.access.any fun a => a.wave == k && a.kind == 2 && (all || a.addr == o.s0.toNat) then .wait s .access
  else if all then .done ((List.range (s.declared s.cur).scr).foldl (fun s b => s.fence k b) s)
  else .done (s.fence k o.s0.toNat)

/-- FOPND. -/
def execFopnd (o : Ops) (s : State) : Host.Outcome State Fault Refusal :=
  .next (s.issue (.fopnd o) fun s act => s.fopndEff o act)

end Sys2Proof.Machine
end

