-- ==== Sys2Proof/Machine/Sched.lean ====
section
/-! DEFINITION. The schedule block, the coverage map, grants and the schedule instructions (R180-R198). -/

namespace Sys2Proof.Machine

/-! ## The schedule block (R180-R182) -/

def schTile (ws : List (BitVec 64)) (d : Nat) : Nat :=
  bits (schWord ws (3 + d / 2)) (32 * (d % 2) + 31) (32 * (d % 2))
/-- Dimension Lj of the loop order. -/
def schL (ws : List (BitVec 64)) (j : Nat) : Nat := bits (schWord ws 5) (2 * j + 1) (2 * j)
def schDown (ws : List (BitVec 64)) (d : Nat) : Bool := bit (schWord ws 5) (8 + d)
def schGang (ws : List (BitVec 64)) : Nat := bits (schWord ws 7) 2 0
def schAff (ws : List (BitVec 64)) : Nat := bits (schWord ws 7) 5 4
def schLimit (ws : List (BitVec 64)) : Nat := bits (schWord ws 8) 4 0
def schRank (ws : List (BitVec 64)) : Nat := bits (schWord ws 9) 10 8
def schMode (ws : List (BitVec 64)) : Nat := bits (schWord ws 9) 1 0
def schInstar (ws : List (BitVec 64)) : Nat := schWord ws 10

/-- A schedule block is valid (R182), but for where its map lies, which the launch checks. -/
def schOk (ws : List (BitVec 64)) : Bool :=
  let r := schRank ws
  decide (1 ≤ r) && decide (r ≤ 4) &&
    (List.range 4).all (fun d =>
      if d < r then decide (1 ≤ schExt ws d) && decide (1 ≤ schQ ws d) && decide (1 ≤ schTile ws d) &&
        schTile ws d % schQ ws d == 0
      else schExt ws d == 1 && schQ ws d == 1 && schTile ws d == 1 && !schDown ws d) &&
    (List.range 4).all (fun d => (List.range 4).any fun j => schL ws j == d) &&
    decide (schCells ws ≤ 2 ^ 32 - 1) && decide (1 ≤ schLimit ws) && decide (schLimit ws ≤ 16) &&
    schWord ws 6 != 0 && decide (1 ≤ schGang ws) && decide (schGang ws ≤ 4) && decide (schMode ws ≤ 1) &&
    schMap ws % 64 == 0 && bits (schWord ws 5) 63 12 == 0 && bits (schWord ws 7) 63 6 == 0 &&
    !bit (schWord ws 7) 3 && bits (schWord ws 8) 63 5 == 0 && bits (schWord ws 9) 63 11 == 0 &&
    bits (schWord ws 9) 7 2 == 0

/-! ## Cells (R183) -/

/-- The map of a schedule block of a context lies on pages with the sync attribute (R182). -/
def State.mapSynced (s : State) (ctx : Nat) (ws : List (BitVec 64)) : Bool :=
  (List.range ((schMap ws + max (schMapBytes ws) 1 - 1) / 2 ^ 16 - schMap ws / 2 ^ 16 + 1)).all fun i =>
    (s.walk (s.context ctx).root ((schMap ws / 2 ^ 16 + i) * 2 ^ 16)).any leafSync

/-- A cell's index from its coordinates. -/
def cellIndex (ws : List (BitVec 64)) (i : List Nat) : Nat :=
  ((i.getD 0 0 * schC ws 1 + i.getD 1 0) * schC ws 2 + i.getD 2 0) * schC ws 3 + i.getD 3 0

/-- The physical address of a byte of a launch's map. -/
def State.mapPa (s : State) (l : Launch) (va : Nat) : Option Nat :=
  (s.walk (s.context l.ctx).root va).map fun leaf => leafAddr leaf va

/-- A cell's two bits: 0 unclaimed, 1 claimed, 3 done, 2 invalid. -/
def State.cell (s : State) (l : Launch) (c : Nat) : Nat :=
  match s.mapPa l (schMap l.sched + 8 * (c / 32)) with
  | some pa => bits (s.homeWord pa) (2 * (c % 32) + 1) (2 * (c % 32))
  | none => 0

/-- Write a cell's state, at home. -/
def State.setCell (s : State) (l : Launch) (c v : Nat) : State :=
  match s.mapPa l (schMap l.sched + 8 * (c / 32)) with
  | some pa =>
    let w := s.homeWord pa
    let p := 2 * (c % 32)
    s.sysWrite pa (leBytes 8 (w - bits w (p + 1) p * 2 ^ p + v * 2 ^ p))
  | none => s

/-- The n-th cell of the traversal (R185): its coordinates by dimension. -/
def visit (ws : List (BitVec 64)) (n : Nat) : List Nat :=
  let digit (j : Nat) : Nat :=
    let below := (List.range j).foldl (fun p i => p * schC ws (schL ws i)) 1
    n / max below 1 % max (schC ws (schL ws j)) 1
  (List.range 4).map fun d =>
    let j := ((List.range 4).find? fun j => schL ws j == d).getD 0
    if schDown ws d then schC ws d - 1 - digit j else digit j

/-- The first number from `n` on, within `fuel`, that satisfies `p`. -/
def findFrom (p : Nat → Bool) : Nat → Nat → Option Nat
  | 0, _ => none
  | fuel + 1, n => if p n then some n else findFrom p fuel (n + 1)

/-- The cells of a rectangle, by lowest cell and extent. -/
def rectCells (ws : List (BitVec 64)) (lo ext : List Nat) : List Nat :=
  (List.range (ext.getD 0 1)).flatMap fun a => (List.range (ext.getD 1 1)).flatMap fun b =>
    (List.range (ext.getD 2 1)).flatMap fun c => (List.range (ext.getD 3 1)).map fun d =>
      cellIndex ws [lo.getD 0 0 + a, lo.getD 1 0 + b, lo.getD 2 0 + c, lo.getD 3 0 + d]

/-! ## Forming a tile (R185) -/

/-- The lowest cell, by dimension, of a rectangle anchored at `a` with extents `e`. -/
def rectLo (ws : List (BitVec 64)) (a e : List Nat) : List Nat :=
  (List.range 4).map fun d => if schDown ws d then a.getD d 0 + 1 - e.getD d 1 else a.getD d 0

/-- The layer of cells next to the extents in dimension `d`; none outside the grid. -/
def layer (ws : List (BitVec 64)) (a e : List Nat) (d : Nat) : Option (List Nat) :=
  let n := e.getD d 1
  let x := a.getD d 0
  if schDown ws d then
    if x < n then none
    else some (rectCells ws ((rectLo ws a e).set d (x - n)) (e.set d 1))
  else if schC ws d ≤ x + n then none
  else some (rectCells ws ((rectLo ws a e).set d (x + n)) (e.set d 1))

/-- Grow the extents in dimension `d`, at most `fuel` times. -/
def State.grow (s : State) (l : Launch) (a : List Nat) (d : Nat) : Nat → List Nat → Except Nat (List Nat)
  | 0, e => .ok e
  | fuel + 1, e =>
    match layer l.sched a e d with
    | none => .ok e
    | some cs =>
      match cs.find? fun c => s.cell l c == 2 with
      | some c => .error c
      | none =>
        if cs.all fun c => s.cell l c == 0 then s.grow l a d fuel (e.set d (e.getD d 1 + 1)) else .ok e

/-- The tile at an anchor, grown from the innermost dimension out. -/
def State.form (s : State) (l : Launch) (a : List Nat) : Except Nat (List Nat) :=
  (List.range 4).foldl (fun r j =>
    match r with
    | .error c => .error c
    | .ok e =>
      let d := schL l.sched j
      s.grow l a d (schTile l.sched d / max (schQ l.sched d) 1 - 1) e) (.ok [1, 1, 1, 1])

/-! ## Claims of a gang (R186) -/

/-- The cells of a grant that are still claimed by it. -/
def State.heldCells (s : State) (l : Launch) (g : Grant) : List Nat :=
  (rectCells l.sched g.lo g.ext).filter fun c => s.cell l c == 1 && !g.handed.contains c

/-- Cells that a gang's open grants hold claimed (CC of R335). -/
def State.gangClaims (s : State) (g : Nat) : Nat :=
  let l := s.launch (s.gang g).launch
  ((s.gang g).grants.map fun p => (s.heldCells l p.2).length).sum

/-- Add to a statistics word of a launch: 12 STAT0, 13 STAT1, 14 STAT2, 15 STAT3. -/
def addStat (ws : List (BitVec 64)) (i : Nat) (n : Int) : List (BitVec 64) :=
  ws.set i (BitVec.ofNat 64 (wrap 64 ((schWord ws i : Int) + n)))

/-- A gang's claimed cells become unclaimed in one step of the claim order (R197, R198). -/
def State.unclaim (s : State) (g : Nat) : State :=
  let n := (s.gang g).launch
  let l := s.launch n
  let cs := (s.gang g).grants.flatMap fun p => s.heldCells l p.2
  let s := cs.foldl (fun s c => s.setCell l c 0) s
  let s := s.setGang g { s.gang g with grants := [] }
  s.setLaunch n { l with sched := addStat (addStat l.sched 14 cs.length) 15 (-(cs.length : Int)) }

/-! ## Order (R184) -/

/-- A MOLT's wait. -/
def Wait.isMolt : Wait → Bool
  | .molt _ _ => true
  | _ => false

/-- A lane set of a wave is held at a MOLT. -/
def Wave.molting (w : Wave) : Bool := w.live.any fun l => (w.lane l).wait.isMolt

/-- A schedule operation enters the claim order after every earlier one of its wave (R184). -/
def State.inOrder (s : State) (f : Unit → Eff) : Eff := if s.cur.molting then .wait s .order else f ()

/-- An operation from cluster `c` enters the claim order of launch `n` at its home leaf controller; one from elsewhere reaches
it through the scheduler (R184, R375). DEDUCED (log 83): each brings one message of claim-order traffic. -/
def State.claimTraffic (s : State) (c n : Nat) : State :=
  let h := (s.launch n).home
  if c == h then s else s.sendUp h (.claims n)

/-- An operation that has been performed. -/
def Eff.ordered (e : Eff) (n : Nat) : Eff :=
  match e with
  | .done s => .done (s.claimTraffic (s.clusterOf s.cur) n)
  | e => e

/-! ## SNEXT (R189, R190) -/

/-- The names SNEXT writes: status, origins, extents. -/
def State.snextWrite (s : State) (act : List Nat) (base : Nat) (vs : List Nat) : State :=
  (vs.zipIdx).foldl (fun s p => s.flyUnif act (base + p.2) (BitVec.ofNat 64 p.1)) s

/-- Status word of SNEXT. -/
def snextStatus (st gid instar : Nat) : Nat := st * 2 ^ 62 + gid * 2 ^ 32 + instar % 2 ^ 32

/-- SNEXT (R189): while its gang drains it waits (R336). -/
def State.snextEff (s : State) (o : Ops) (act : List Nat) : Eff :=
  s.inOrder fun _ => s.onCore act fun _ =>
  let r := o.s2.toNat
  let base := o.dst.toNat
  let n := s.launchOf s.cur
  let g := s.gangOf s.cur
  let l := s.launch n
  let ws := l.sched
  let lane := act.headD 0
  let zeros := List.replicate (2 * r) 0
  let inv (c : Nat) : Eff := .trap causeCoverage (BitVec.ofNat 64 c) lane
  if (s.gang g).preempt == .draining then .wait s .snext
  else if r != schRank ws then .trap causeOperand (BitVec.ofNat 64 r) lane
  else
    let total := schCells ws
    match findFrom (fun i => let v := s.cell l (cellIndex ws (visit ws i)); v == 0 || v == 2) total 0 with
    | some i =>
      let a := visit ws i
      if s.cell l (cellIndex ws a) == 2 then inv (cellIndex ws a)
      else if schLimit ws ≤ (s.gang g).grants.length then
        if schWord ws 15 == s.gangClaims g then .done (s.snextWrite act base (snextStatus 3 0 0 :: zeros))
        else .wait s .snext
      else match s.form l a with
        | .error c => inv c
        | .ok e =>
          let lo := rectLo ws a e
          let gid := (s.gang g).grants.free
          let cs := rectCells ws lo e
          let s := cs.foldl (fun s c => s.setCell l c 1) s
          let s := s.setGang g { s.gang g with grants := (s.gang g).grants.put gid ⟨lo, e, [], schInstar ws⟩ }
          let s := s.setLaunch n { l with sched := addStat (addStat ws 12 1) 15 cs.length }
          let s := s.onWave s.iss.wave fun w => { w with instar := BitVec.ofNat 32 (schInstar ws) }
          let orgs := (List.range r).map fun d => lo.getD d 0 * schQ ws d
          let exts := (List.range r).map fun d =>
            min ((lo.getD d 0 + e.getD d 1) * schQ ws d) (schExt ws d) - lo.getD d 0 * schQ ws d
          .done (s.snextWrite act base (snextStatus 0 gid (schInstar ws) :: orgs ++ exts))
    | none =>
      if schWord ws 13 == total then .done (s.snextWrite act base (snextStatus 1 0 0 :: zeros))
      else if schWord ws 15 == s.gangClaims g then .done (s.snextWrite act base (snextStatus 2 0 0 :: zeros))
      else .wait s .snext

/-- SNEXT. -/
def execSnext (o : Ops) (s : State) : Host.Outcome State Fault Refusal :=
  .next (s.issue (.snext o) fun s act => (s.snextEff o act).ordered (s.launchOf s.cur))

/-! ## SDONE and SGIVE (R191) -/

/-- The rectangle that SDONE and SGIVE read, in cells, after the checks of R191. -/
def State.rectOf (s : State) (o : Ops) (act : List Nat) : Except Eff (Nat × List Nat) :=
  let r := o.s2.toNat
  let b := o.s0.toNat
  let l := s.launch (s.launchOf s.cur)
  let ws := l.sched
  let lane := act.headD 0
  let st := s.ru act b
  let gid := bits st 35 32
  let bad (c : Nat) : Except Eff (Nat × List Nat) := .error (.trap c (BitVec.ofNat 64 st) lane)
  let org (d : Nat) := if d < r then s.ru act (b + 1 + d) else 0
  let ext (d : Nat) := if d < r then s.ru act (b + 1 + r + d) else 1
  let q (d : Nat) := max (schQ ws d) 1
  let gr := (s.gang (s.gangOf s.cur)).grants
  if r != schRank ws then bad causeOperand
  else if bits st 63 62 != 0 || !gr.has gid then bad causeGrant
  else if (List.range r).any fun d =>
      org d % q d != 0 || ((org d + ext d) != schExt ws d && ext d % q d != 0) || ext d == 0 then
    bad causeOperand
  else
    let gt := gr.get .none gid
    let lo := (List.range 4).map fun d => org d / q d
    let n := (List.range 4).map fun d => (ext d + q d - 1) / q d
    if (List.range 4).any fun d =>
        decide (lo.getD d 0 < gt.lo.getD d 0) ||
          decide (gt.lo.getD d 0 + gt.ext.getD d 1 < lo.getD d 0 + n.getD d 1) then bad causeGrant
    else
      let cs := rectCells ws lo n
      if cs.any gt.handed.contains then bad causeGrant
      else match cs.find? fun c => s.cell l c == 2 with
        | some c => .error (.trap causeCoverage (BitVec.ofNat 64 c) lane)
        | none => .ok (gid, cs)

/-- The claimed cells of the rectangle change to done, or go back to unclaimed; the statistics follow; a
grant without claimed cells closes. -/
def State.settle (s : State) (gid : Nat) (cs : List Nat) (give : Bool) : State :=
  let n := s.launchOf s.cur
  let g := s.gangOf s.cur
  let l := s.launch n
  let cl := cs.filter fun c => s.cell l c == 1
  let gt := (s.gang g).grants.get .none gid
  let gt := if give then { gt with handed := gt.handed ++ cl } else gt
  let s := cl.foldl (fun s c => s.setCell l c (if give then 0 else 3)) s
  let k : Int := cl.length
  let s := s.setLaunch n { l with sched := addStat (addStat l.sched (if give then 14 else 13) k) 15 (-k) }
  let gg := s.gang g
  s.setGang g { gg with
    grants := if (s.heldCells l gt).isEmpty then gg.grants.del gid else gg.grants.put gid gt
    cd := if give then gg.cd else gg.cd + cl.length }

/-- SDONE (R191). -/
def State.sdoneEff (s : State) (o : Ops) (act : List Nat) : Eff :=
  s.inOrder fun _ => s.onCore act fun _ =>
  match s.rectOf o act with
  | .error e => e
  | .ok (gid, cs) => .done (s.settle gid cs false)

/-- SDONE. -/
def execSdone (o : Ops) (s : State) : Host.Outcome State Fault Refusal :=
  .next (s.issue (.sdone o) fun s act => (s.sdoneEff o act).ordered (s.launchOf s.cur))

/-- SGIVE (R191). -/
def State.sgiveEff (s : State) (o : Ops) (act : List Nat) : Eff :=
  s.inOrder fun _ => s.onCore act fun _ =>
  match s.rectOf o act with
  | .error e => e
  | .ok (gid, cs) => .done (s.settle gid cs true)

/-- SGIVE. -/
def execSgive (o : Ops) (s : State) : Host.Outcome State Fault Refusal :=
  .next (s.issue (.sgive o) fun s act => (s.sgiveEff o act).ordered (s.launchOf s.cur))

/-! ## SWR, MOLT, SRD (R188, R192-R194) -/

/-- The running launch that a handle names (R188). -/
def State.target (s : State) (h : Nat) : Option Nat :=
  if h == 0 then (if s.cur.priv then none else some (s.launchOf s.cur))
  else (s.launches.find? fun p => p.2.used && !p.2.ended && p.2.id == h).map Prod.fst

/-- The launch a handle names, when the issuing launch may read its schedule, or with `write` change it. -/
def State.schTarget (s : State) (h : Nat) (write : Bool) : Option Nat :=
  let me := s.launchOf s.cur
  match s.target h with
  | some t =>
    let a := s.launch t
    if a.pid == (s.launch me).pid && (!write || (a.swp && (t == me || (s.launch me).tun))) then some t else none
  | none => none

/-- SWR (R192): the word is stored whole. DEDUCED (log 64): a 1 in a reserved field, which R5 would have ignored, stays in
the shadow block, where SRD reads it and MOLT refuses it (R182). -/
def State.swrEff (s : State) (o : Ops) (act : List Nat) : Eff :=
  s.inOrder fun _ =>
  let h := s.ru act o.s0.toNat
  let w := o.s2.toNat
  let lane := act.headD 0
  match s.schTarget h true with
  | none => .trap causeRight (BitVec.ofNat 64 h) lane
  | some t =>
    if w < 3 || 8 < w then .trap causeSchedWrite (BitVec.ofNat 64 w) lane
    else .done (s.setLaunch t { s.launch t with
      shadow := (s.launch t).shadow.set w (s.readUnif lane o.s1.toNat) })

/-- SWR. -/
def execSwr (o : Ops) (s : State) : Host.Outcome State Fault Refusal :=
  .next (s.issue (.swr o) fun s act => (s.swrEff o act).ordered ((s.target (s.ru act o.s0.toNat)).getD 0))

/-- MOLT (R193): the lane set is held until the MOLT is performed. -/
def State.moltEff (s : State) (o : Ops) (act : List Nat) : Eff :=
  s.inOrder fun _ =>
  let h := s.readUnif (act.headD 0) o.s0.toNat
  match s.schTarget h.toNat true with
  | none => .trap causeRight h (act.headD 0)
  | some _ => .wait s (.molt h s.time)

/-- MOLT. -/
def execMolt (o : Ops) (s : State) : Host.Outcome State Fault Refusal :=
  .next (s.issue (.molt o) fun s act => s.moltEff o act)

/-- The launch's committed block after a MOLT (R193): words 3 to 8 from the shadow, the instar raised. -/
def moltSched (ws sh : List (BitVec 64)) : List (BitVec 64) :=
  ((List.range 6).foldl (fun ws i => ws.set (3 + i) (sh.getD (3 + i) 0)) ws).set 10
    (BitVec.ofNat 64 (schInstar ws + 1))

/-- The launch named by a handle that wave `k` gave. DEDUCED (log 72): the handle and the right of R188 are checked when the
MOLT issues, and not again when it is performed. -/
def State.targetFor (s : State) (k h : Nat) : Nat :=
  if h == 0 then s.launchOf (s.wave k)
  else ((s.launches.find? fun p => p.2.used && p.2.id == h).map Prod.fst).getD 0

/-- A MOLT of the launch is refused (R182, R193). -/
def State.moltRefused (s : State) (l : Launch) : Bool :=
  !schOk l.shadow || schGang l.shadow != schGang l.sched || schInstar l.sched == 2 ^ 32 - 1 || !s.mapSynced l.ctx l.sched

/-- Lanes of a wave are no longer held. -/
def State.unhold (s : State) (k : Nat) (ls : List Nat) (w : Wait) : State :=
  s.onWave k fun v => v.onLanes ls fun t => { t with wait := w }

/-- The held lane set of a MOLT traps; a trap of another lane set of the wave that stands before is delivered first, and in
trap mode the gang halts (R325). -/
def State.moltTrap (s : State) (k : Nat) (h : BitVec 64) (ls : List Nat) : State :=
  (s.unhold k ls .none).raiseHeld k ⟨causeSchedule, h, ls.headD 0, ls, ((s.wave k).lane (ls.headD 0)).pc, false⟩

/-- A held lane set moves on; one that a trap handler holds, once it is released (R324). -/
def State.goOn (s : State) (k : Nat) (ls : List Nat) (f : State → State) : State :=
  if ls.all (s.wave k).present.contains then s.resumeAt k ls f else (f s).unhold k ls .ended

/-- Every lane set of a wave with this wait goes on. -/
def State.goOnAll (s : State) (k : Nat) (w : Wait) (f : List Nat → State → State) : State :=
  let held := (s.wave k).live.filter fun l => ((s.wave k).lane l).wait == w
  ((held.map fun l => ((s.wave k).lane l).pc).eraseDups).foldl (fun t pc =>
    let ls := held.filter fun l => ((s.wave k).lane l).pc == pc
    t.goOn k ls (f ls)) s

/-- MOLT_PERFORMED (R193): the shadow block is committed, or the held lane set traps. -/
def execMoltPerformed (wave : Nat) (s : State) : Host.Outcome State Fault Refusal :=
  .next (
    let ls := (s.wave wave).waiting Wait.isMolt
    match ((s.wave wave).lane (ls.headD 0)).wait with
    | .molt h _ =>
      if ls.isEmpty || s.iss.granted then s
      else
        let t := s.targetFor wave h.toNat
        let l := s.launch t
        if s.moltRefused l then s.moltTrap wave h ls
        else
          let ws := moltSched l.sched l.shadow
          (s.claimTraffic (s.clusterOf (s.wave wave)) t).goOn wave ls fun s => s.setLaunch t { l with sched := ws, shadow := ws }
    | _ => s)

/-- SRD (R194): bit 4 of the selector reads the shadow block. -/
def State.srdEff (s : State) (o : Ops) (act : List Nat) : Eff :=
  s.inOrder fun _ =>
  let h := s.ru act o.s0.toNat
  match s.schTarget h false with
  | none => .trap causeRight (BitVec.ofNat 64 h) (act.headD 0)
  | some t =>
    let ws := if bit o.s2.toNat 4 then (s.launch t).shadow else (s.launch t).sched
    .done (s.flyUnif act o.dst.toNat (ws.getD (bits o.s2.toNat 3 0) 0))

/-- SRD. -/
def execSrd (o : Ops) (s : State) : Host.Outcome State Fault Refusal :=
  .next (s.issue (.srd o) fun s act => s.srdEff o act)

end Sys2Proof.Machine
end

