-- ==== Sys2Proof/Machine/Engine.lean ====
section
/-! DEFINITION. What the engines share: access to memory, tokens, barrier arrivals and places in flight
(R241, R244-R251, R259, R320). -/

namespace Sys2Proof.Machine

/-! ## Memory as an engine reaches it for a wave -/

/-- What an engine's access to a virtual address gives. -/
inductive Touch where
  | ok (pa leaf : Nat)
  | fault (va : Nat)
  | invalid
  | denied
  deriving DecidableEq, Repr

/-- Translate an engine's access for wave `k`: an address outside the canonical range counts as invalid
(R258); a page of the call stack is refused as a protection failure (R21). -/
def State.engineTouch (s : State) (k : Nat) (write : Bool) (va : Nat) : Touch :=
  if 2 ^ 56 ≤ va then .invalid
  else match s.translate (s.wave k) (if write then .store else .load) va with
    | .ok pa leaf => .ok pa leaf
    | .fault => .fault va
    | .denied => .denied

/-- The page that an operation waits for is mapped, or its access no longer faults. -/
def State.pageReady (s : State) (k : Nat) (write : Bool) (va : Nat) : Bool :=
  match s.engineTouch k write va with
  | .fault _ => false
  | _ => true

/-- An engine operation of a core that holds a fault-buffer entry goes on before one of order `n`: its page was serviced
earlier (R215). -/
def State.engineFirst (s : State) (core n : Nat) : Bool :=
  let before (k va : Nat) (write : Bool) : Bool := match s.servedAt (s.ctxOf (s.wave k)) va with
    | some m => decide (m < n) && s.pageReady k write va
    | none => false
  s.copies.any (fun p => p.2.held && s.coreOf (s.wave p.2.wave) == core &&
    p.2.parked.any fun va => before p.2.wave va (p.2.kind == 2)) ||
    s.mats.any (fun p => p.2.parts.any fun q => q.held && (s.block q.block).core == core &&
      q.parked.any fun va => before p.2.wave va false) ||
    s.palps.any fun p => p.2.held != 0 && s.coreOf (s.wave p.2.wave) == core && p.2.parked.any fun va => before p.2.wave va false

/-- A held operation of wave `k` goes on, its page serviced: no other in the core's fault buffer was before it. -/
def State.resumesNow (s : State) (core k : Nat) (held : Bool) (va : Nat) : Bool :=
  !held || (s.servedAt (s.ctxOf (s.wave k)) va).all fun n => !s.engineFirst core n

/-- An operation of wave `k` waits for a page anew: the page is yet to be serviced, and its walk has read the tables
(R213, R216). -/
def State.awaitPage (s : State) (k va : Nat) : State :=
  (s.countWalks (s.wave k) [va]).unserve (s.ctxOf (s.wave k)) va

/-- The TLBs keep the translation that an engine's access used (R212). -/
def State.touched (s : State) (k va : Nat) : State := if 2 ^ 56 ≤ va then s else s.fills (s.wave k) [va]

/-- The bytes an engine reads for wave `k`, as a load of the wave reads them (R241), and the marked words among them
(R216). What another device's memory holds is a free value. Whether a route to it remains is open; an error names a device to
which none does. A read that is given up, its device in `gone`, reads as zero and counts as one marked word (R365, log 27). -/
def State.engineRead (s : State) (gone : List Nat) (k pa leaf n : Nat) : Except Nat (Nat × List Nat) :=
  if bit pa 55 then
    if gone.contains (bits pa 54 47) then .ok (0, [pa / 8 * 8])
    else if s.choose (tagByte pa) 2 == 1 then .error (bits pa 54 47)
    else .ok (ofLe ((List.range n).map fun i => BitVec.ofNat 8 (s.undef (tagByte (pa + i))).toNat), [])
  else
    let a := copyFor (s.dieOf (s.wave k)) leaf pa
    .ok (s.physRead k a n, s.badWords a n)

/-- 2 ms, in cycles of the arithmetic clock (R1, R365). -/
def remoteLimit : Nat := 4500000

/-- A wait for a route that began at a cycle is over. -/
def State.gaveUp (s : State) (away : Option (Nat × Nat)) : Bool := away.all fun d => decide (d.2 + remoteLimit ≤ s.time)

/-- An access of wave `k` to a device could not be delivered: the executive is notified, and it is counted (R365, R409). -/
def State.loseDevice (s : State) (k dev : Nat) : State :=
  { s with lost := s.lost ++ [(s.ctxOf (s.wave k), dev)] }.countErrors 2 1

/-- An engine's write for wave `k` to global memory: performed at home, in no wave's view yet; the result lists the bytes
with their stamps. A write to another device's page leaves as a request (R363). -/
def State.engineWrite (s : State) (k pa leaf : Nat) (bs : List Byte) : State × Tab Nat :=
  if bit pa 55 then
    let r := s.sendRemote k 0 0 pa bs.length (.store bs) false none
    ({ r.1 with remotes := r.1.remotes.map fun p => if p.1 == r.2 then (p.1, { p.2 with unit := true }) else p }, [])
  else match bits pa 46 39 with
    | 0 => (copiesFor leaf pa).foldl (fun r a =>
        let n := r.1.stamp
        ((r.1.noteProp leaf a).putHome (s.clusterOf (s.wave k)) a bs,
          (List.range bs.length).foldl (fun t i => t.put (a + i) n) r.2)) (s, [])
    | 1 => (s.vaultWrite pa bs, [])
    | _ => (s, [])

/-- Written bytes enter the views of the waves of a block (R234). -/
def State.seeWrites (s : State) (b : Nat) (ws : Tab Nat) : State :=
  (s.wavesOf b).foldl (fun s j => s.onWave j fun w => { w with view := mergeView w.view ws }) s

/-- Written bytes are published to a block or its gang (R237), and an arrival at a barrier tells of it (R238). -/
def State.publish (s : State) (b scope name : Nat) (ws : Tab Nat) : State :=
  let g := (s.block b).gang
  let loose := ws.filter fun p => s.loose.contains (frameOf p.1)
  let strong := ws.filter fun p => !s.loose.contains (frameOf p.1)
  let s := { s with pubBlk := s.pubBlk.put b (mergeView (s.pubBlk.get [] b) strong) }
  let s := if 1 ≤ scope then { s with pubGang := s.pubGang.put g (mergeView (s.pubGang.get [] g) strong) } else s
  if loose.isEmpty then s
  else ({ s with pubs := s.pubs ++ [⟨s.pubs.length, scope, b, g, loose⟩] } : State).tellBar b name [s.pubs.length]

/-- An operation arrives at the barrier its control word names, publishing its writes (R174, R175, R237), and tells of the
publications that happen before its issue (R238). -/
def State.engineArrive (s : State) (b : Nat) (ctl : BitVec 64) (ws : Tab Nat) (told : List Nat) : State :=
  match ctlBar ctl with
  | some name => ((s.publish b (s.barScope b name) name ws).tellBar b name told).arrive b name
  | none => s

/-! ## Tokens (R250, R251) -/

/-- An engine operation ends: its token is written, which clears the name's mark (R333), unless a later write of the name
supersedes it or the wave has retired; windows that wait for it have its value. -/
def State.writeToken (s : State) (k : Nat) (kind : EngineKind) (op name : Nat) (v : BitVec 64) : State :=
  let w := s.wave k
  let live := w.tokens.any (fun t => t.kind == kind && t.op == op) && !w.retired
  let s := if live then s.unmarkNames fun e => e == .uniformName k name else s
  s.onWave k fun w =>
    let w := { w.fillWindows (2 * op + 1) v with tokens := w.tokens.filter fun t => !(t.kind == kind && t.op == op) }
    if live then { w with unif := w.unif.put name v, urecent := name :: w.urecent.filter (· != name) } else w

/-- Copies in flight on a core (R259). -/
def State.copiesOn (s : State) (core : Nat) : Nat :=
  (s.copies.filter fun p => s.coreOf (s.wave p.2.wave) == core).length

end Sys2Proof.Machine
end

