-- ==== Sys2Proof/Machine/Matrix.lean ====
section
/-! DEFINITION. The matrix engine, accumulator tiles and the epilogue (R261-R285). -/

namespace Sys2Proof.Machine

/-! ## Shapes and slots (R261, R262, R264) -/

/-- M and N of an MC or NC code. -/
def dimOf (c : BitVec 2) : Nat := 16 * 2 ^ c.toNat

def mmaStr (e : MmaOps) : Bool := bit e.h.mod.toNat 0
def mmaSc (e : MmaOps) : Bool := bit e.h.mod.toNat 1

/-- Element bytes of A and of B. -/
def mmaWa (e : MmaOps) : Nat := fmtWidth e.fa.toNat / 8
def mmaWb (e : MmaOps) : Nat := fmtWidth e.fb.toNat / 8

/-- K of the input class: a row of A is 64 bytes. -/
def mmaK (e : MmaOps) : Nat := 64 / (mmaWa e)

/-- Slot bytes of A and of B in scratch. -/
def mmaSlotA (e : MmaOps) : Nat := 64 * dimOf e.mc + if mmaSc e then 128 else 0
def mmaSlotB (e : MmaOps) : Nat := 64 * dimOf e.nc + if mmaSc e then 128 else 0

/-! ## Recording (R264-R267) -/

/-- The cores on which a matrix operation holds a FIFO place. -/
def State.matCores (s : State) (m : MatOp) : List Nat := m.parts.map fun p => (s.block p.block).core

/-- FIFO places taken on a core (R267). -/
def State.fifoUsed (s : State) (core : Nat) : Nat :=
  (s.mats.filter fun p => !p.2.complete && (s.matCores p.2).contains core).length

/-- The blocks in which an operation of the issuing wave runs: its own, or every block of its gang (R281). -/
def State.matBlocks (s : State) (ganged : Bool) : List Nat :=
  if ganged then (s.gang (s.gangOf s.cur)).blocks else [s.cur.block]

/-- MMA and MMAG at issue: readiness, the checks of R265, signing and recording. -/
def State.record1 (s : State) (e : MmaOps) (ganged : Bool) (act : List Nat) : Eff :=
  let k := s.iss.wave
  let b := s.cur.block
  let lane := act.headD 0
  let c := e.cv.toNat
  let blocks := s.matBlocks ganged
  let g := if mmaStr e then s.ru act e.bn.toNat else 0
  let stride := if mmaStr e then s.ru act (e.bn.toNat + 1) else 0
  if blocks.any fun x => decide (16 ≤ s.fifoUsed (s.block x).core) then .wait s .fifo
  else if (s.conv b c).signed.contains k then .wait s (.epoch c)
  else if s.scratchSize b e.ab.toNat < (e.ia.toNat + 1) * (mmaSlotA e) then
    .trap causeBounds (scratchPtr e.ab.toNat (e.ia.toNat * (mmaSlotA e))) lane
  else if !mmaStr e && decide (s.scratchSize b e.bn.toNat < (e.ib.toNat + 1) * (mmaSlotB e)) then
    .trap causeBounds (scratchPtr e.bn.toNat (e.ib.toNat * (mmaSlotB e))) lane
  else if bits g 63 56 != 0 then .trap causeCanonical (BitVec.ofNat 64 g) lane
  else if g % (mmaWb e) != 0 || stride % (mmaWb e) != 0 then .trap causeAlign (BitVec.ofNat 64 g) lane
  else if (s.conv b c).op.isSome then .trap causeConflict (BitVec.ofNat 64 c) lane
  else
    let op := s.nextOp
    let m : MatOp := { MatOp.absent with
      wave := k, gang := s.gangOf s.cur, pc := s.iss.pc, lanes := act, ganged := ganged, ops := e
      window := (s.regs [.y]).mmw, told := s.cur.known, g := BitVec.ofNat 64 g, stride := BitVec.ofNat 64 stride
      parts := blocks.map fun x => ⟨x, 0, none, false, false, false⟩ }
    .done (({ s with nextOp := op + 1 }.setMat op m).sign k c (some op))

/-- MMA and MMAG (R264-R267, R281): only on a core, and by the whole wave. -/
def State.mmaEff (s : State) (e : MmaOps) (ganged : Bool) (act : List Nat) : Eff :=
  s.onCore act fun _ => s.whole fun _ => s.record1 e ganged act

/-- MMA (R264-R267). -/
def execMma (e : MmaOps) (s : State) : Host.Outcome State Fault Refusal :=
  .next (s.issue (.mma e) fun s act => s.mmaEff e false act)

/-- MMAG (R264-R267, R281). -/
def execMmag (e : MmaOps) (s : State) : Host.Outcome State Fault Refusal :=
  .next (s.issue (.mmag e) fun s act => s.mmaEff e true act)

/-! ## ACCZ and ACCTEST (R274, R275) -/

/-- An operation on a tile is posted, and its completion barrier's wait not passed (R242). -/
def State.tileOpen (s : State) (b t : Nat) : Bool :=
  s.mats.any fun p => p.2.posted.isSome && p.2.ops.tl.toNat == t && p.2.parts.any fun q => q.block == b

/-- A tile's marks of soft errors go: its elements are written. -/
def State.unmarkTile (s : State) (b t : Nat) : State :=
  { s with badNames := s.badNames.filter fun e => match e with
      | .tile x y _ => !(x == b && y == t)
      | _ => true }

/-- Zero a tile (R274): operations posted on it leave it undefined when they complete. -/
def State.zeroTile (s : State) (b t : Nat) : State :=
  let s := (s.putTile b t { AccTile.zero with dirty := List.range 256 }).unmarkTile b t
  { s with mats := s.mats.map fun p =>
      if p.2.posted.isSome && !p.2.complete && p.2.ops.tl.toNat == t then
        (p.1, { p.2 with parts := p.2.parts.map fun q => if q.block == b then { q with zeroed := true } else q })
      else p }

/-- ACCZ (R274). -/
def execAccz (o : Ops) (s : State) : Host.Outcome State Fault Refusal :=
  .next (s.issue (.accz o) fun s _ => .done (s.zeroTile s.cur.block o.dst.toNat))

/-- ACCTEST (R275): while an operation on the tile is posted and not completed, d receives an undefined value. -/
def execAcctest (o : Ops) (s : State) : Host.Outcome State Fault Refusal :=
  .next (s.issue (.acctest o) fun s act =>
    let b := s.cur.block
    let d := o.dst.toNat
    .done ((s.flyUnif act d (s.tileShown b o.s0.toNat).summary).blurUnif d (s.tileVague b o.s0.toNat)))

/-! ## Reading operands (R262, R263, R282-R284) -/

/-- An operand element as an operation reads it: its pattern (zero where it cannot be read), whether it was
uncorrectable, and whether its page is refused. -/
structure MatElem where
  val : Nat
  bad : Bool
  pf  : Bool
  deriving DecidableEq, Repr

/-- An element in scratch. -/
def State.matScratch (s : State) (m : MatOp) (b buf off wd : Nat) : MatElem :=
  if !(s.badScratch b buf off wd).isEmpty then ⟨0, true, false⟩
  else ⟨ofLe ((List.range wd).map fun i => s.scratchEngine m.stale b buf (off + i)), false, false⟩

/-- Why the read of a streamed element does not end: its page faults, or no route to its device remains (R365). -/
inductive MatStop where
  | fault (va : Nat)
  | lost (dev : Nat)
  deriving DecidableEq, Repr

/-- A streamed element at offset `off` from g. -/
def State.matStream (s : State) (m : MatOp) (off wd : Nat) : Except MatStop MatElem :=
  let va := m.g.toNat + off
  if 2 ^ 56 ≤ va then .ok ⟨0, false, true⟩
  else if m.refused.contains (va / 2 ^ 16) then .ok ⟨0, false, true⟩
  else match s.engineTouch m.wave false va with
    | .fault a => .error (.fault a)
    | .ok pa leaf => match s.engineRead m.gone m.wave pa leaf wd with
      | .error d => .error (.lost d)
      | .ok r => .ok (if r.2.isEmpty then ⟨r.1, false, false⟩ else ⟨0, true, false⟩)
    | _ => .ok ⟨0, false, true⟩

/-- Element (i, k) of A in block `b`. -/
def State.matA (s : State) (m : MatOp) (b i k : Nat) : MatElem :=
  let e := m.ops
  s.matScratch m b e.ab.toNat (e.ia.toNat * (mmaSlotA e) + imageOff false 64 (mmaWa e) i k) (mmaWa e)

/-- Element (k, j) of B. -/
def State.matB (s : State) (m : MatOp) (b k j : Nat) : Except MatStop MatElem :=
  let e := m.ops
  if mmaStr e then s.matStream m (k * m.stride.toNat + j * (mmaWb e)) (mmaWb e)
  else .ok (s.matScratch m b e.bn.toNat (e.ib.toNat * (mmaSlotB e) + imageOff false (dimOf e.nc * (mmaWb e)) (mmaWb e) k j) (mmaWb e))

/-- Scale byte i of A. -/
def State.matSA (s : State) (m : MatOp) (b i : Nat) : MatElem :=
  let e := m.ops
  if mmaSc e then s.matScratch m b e.ab.toNat (e.ia.toNat * (mmaSlotA e) + 64 * dimOf e.mc + i) 1 else ⟨0, false, false⟩

/-- Scale byte j of B. -/
def State.matSB (s : State) (m : MatOp) (b j : Nat) : Except MatStop MatElem :=
  let e := m.ops
  if !mmaSc e then .ok ⟨0, false, false⟩
  else if mmaStr e then s.matStream m ((mmaK e) * m.stride.toNat + j) 1
  else .ok (s.matScratch m b e.bn.toNat (e.ib.toNat * (mmaSlotB e) + 64 * dimOf e.nc + j) 1)

/-- The operands of the groups listed: rows of A by i, rows of B by k, the scales. -/
structure MatData where
  a  : List (List MatElem)
  b  : List (List MatElem)
  sa : List MatElem
  sb : List MatElem
  deriving DecidableEq, Repr

/-- Read what the groups `gs` need; an error is the first that comes up. -/
def State.matRead (s : State) (m : MatOp) (blk : Nat) (gs : List Nat) : Except MatStop MatData := do
  let ks := gs.flatMap fun g => (List.range 16).map fun i => 16 * g + i
  let b ← ks.mapM fun k => (List.range (dimOf m.ops.nc)).mapM fun j => s.matB m blk k j
  let sb ← (List.range (dimOf m.ops.nc)).mapM fun j => s.matSB m blk j
  return { a := (List.range (dimOf m.ops.mc)).map fun i => ks.map fun k => s.matA m blk i k
           b := b
           sa := (List.range (dimOf m.ops.mc)).map fun i => s.matSA m blk i
           sb := sb }

/-! ## The dot-product rule (R269-R271) -/

/-- An operand element's value in its format. -/
def matValue (fmt x : Nat) : FVal :=
  if isInt fmt then (let v := intVal fmt x; .fin (decide (v < 0)) ⟨v.natAbs, 0⟩) else (fmtOf fmt).decode x

/-- The product p[k] (R269) at a scale exponent. -/
def matProduct (x y : FVal) (sc : Int) : FVal :=
  if x.isNan || y.isNan || mulInvalid x y then .nan false false 0
  else match mulVal x y with
    | .fin n d => .fin n { d with e := d.e + sc }
    | v => v

/-- Two special states of one element together (R269). -/
def Spec.meet (a b : Spec) : Spec :=
  match a, b with
  | .nan, _ => .nan
  | _, .nan => .nan
  | .finite, x => x
  | x, .finite => x
  | .pinf, .pinf => .pinf
  | .ninf, .ninf => .ninf
  | _, _ => .nan

/-- The special state of a product. -/
def FVal.spec : FVal → Spec
  | .nan _ _ _ => .nan
  | .inf n => if n then .ninf else .pinf
  | .fin _ _ => .finite

/-- trunc(x, 2^u): rounded toward zero to a multiple. -/
def Dy.trunc (d : Dy) (u : Int) : Dy := if u ≤ d.e then d else ⟨d.m.tdiv (2 ^ (u - d.e).toNat : Nat), u⟩

/-- The two values are equal. -/
def Dy.same (a b : Dy) : Bool := (a.sub b).m == 0

/-- A group of 16 products (R270): its weight u, its sum, whether bits were lost, its special state. -/
structure GroupSum where
  u    : Option Int
  sum  : Dy
  loss : Bool
  spec : Spec
  deriving DecidableEq, Repr

/-- A group's sum from its products, in a window (R270). DEDUCED (log 65): R270's truncation of each product stands, also
where a flagged sum of mixed signs then leaves the range that R287 gives. -/
def groupSum (int : Bool) (w : Nat) (sc : Int) (ps : List FVal) : GroupSum :=
  let sp := ps.foldl (fun a p => a.meet p.spec) .finite
  let fs := (ps.filter fun p => p.spec == .finite).map FVal.val
  if int then ⟨some sc, fs.foldl Dy.add ⟨0, sc⟩, false, sp⟩
  else
    let ns := fs.filter fun d => d.m != 0
    match ns with
    | [] => ⟨none, ⟨0, 0⟩, false, sp⟩
    | d :: rest =>
      let t := rest.foldl (fun t x => max t x.log2) d.log2
      let u := t - (w : Int) + 1
      ⟨some u, ns.foldl (fun a x => a.add (x.trunc u)) ⟨0, u⟩, ns.any fun x => !x.same (x.trunc u), sp⟩

/-- Group `g` of the data, the `n`-th that was read, at element (i, j). -/
def MatOp.groupAt (m : MatOp) (d : MatData) (n i j : Nat) : GroupSum :=
  let sc := sext 8 ((d.sa.getD i ⟨0, false, false⟩).val) + sext 8 ((d.sb.getD j ⟨0, false, false⟩).val)
  let row := ((d.a.getD i []).drop (16 * n)).take 16
  let col := ((d.b.drop (16 * n)).take 16).map fun r => r.getD j ⟨0, false, false⟩
  groupSum (isInt m.ops.fa.toNat) m.window sc
    ((row.zip col).map fun p => matProduct (matValue m.ops.fa.toNat p.1.val) (matValue m.ops.fb.toNat p.2.val) sc)

/-- The elements of an operation, by row and column. -/
def MatOp.cells (m : MatOp) : List (Nat × Nat) :=
  (List.range (dimOf m.ops.mc)).flatMap fun i => (List.range (dimOf m.ops.nc)).map fun j => (i, j)

/-- The elements of a tile from index `i`, `n` of them. -/
def denseFrom (t : Tab AccElem) (i : Nat) : Nat → List AccElem
  | 0 => []
  | n + 1 =>
    match t with
    | (k, v) :: r => if k == i then v :: denseFrom r (i + 1) n else .zero :: denseFrom t (i + 1) n
    | [] => .zero :: denseFrom [] (i + 1) n

/-- The tile's elements, all 4,096. -/
def AccTile.dense (t : AccTile) : List AccElem := denseFrom t.elems 0 4096

/-- A tile's elements as a table. -/
def sparse (es : List AccElem) : Tab AccElem :=
  es.zipIdx.filterMap fun p => if p.1 == .zero then none else some (p.2, p.1)

/-- One integration step (R271) at exponent `e`: each element with its group, none outside the operation. -/
def integrate (t : AccTile) (e : Int) (es : List (AccElem × Option GroupSum)) : AccTile :=
  let ys := es.map fun p =>
    match p.2 with
    | none => p.1
    | some g =>
      let v := g.sum.trunc e
      { p.1 with
        mant := p.1.mant + v.at e
        loss := p.1.loss || g.loss || !v.same g.sum
        spec := p.1.spec.meet g.spec }
  let s := (ys.map fun y => if y.mant.natAbs < 2 ^ 47 then 0 else Nat.log2 y.mant.natAbs - 46).foldl max 0
  if s == 0 then { t with elems := sparse ys, exp := some e }
  else { t with
    elems := sparse (ys.map fun y =>
      let a := y.mant.tdiv (2 ^ s : Nat)
      { y with mant := a, loss := y.loss || a * (2 ^ s : Nat) != y.mant })
    exp := some (e + s)
    rc := min 65535 (t.rc + 1) }

/-- The elements of a tile beside the group sums of an operation. -/
def MatOp.beside (m : MatOp) (t : AccTile) (gs : List ((Nat × Nat) × GroupSum)) : List (AccElem × Option GroupSum) :=
  let n := dimOf m.ops.nc
  t.dense.zipIdx.map fun p =>
    let i := p.2 / 64
    let j := p.2 % 64
    (p.1, if i < dimOf m.ops.mc && j < n then (gs[i * n + j]?).map Prod.snd else none)

/-! ## CR.MMERR (R284) -/

/-- CR.MMERR after an uncorrectable element: (OPB, row, column), counted and, if it is the first, logged. -/
def mmerrElem (e : BitVec 64) (tile : Nat) (b : Bool) (row col : Nat) : BitVec 64 :=
  let x := e.toNat
  let c := min 255 (bits x 55 48 + 1)
  let keep := if bit x 0 then bits x 43 0
    else tile % 16 * 2 ^ 40 + b.toNat * 2 ^ 39 + row % 64 * 2 ^ 33 + col % 64 * 2 ^ 27 + (bit x 1).toNat * 2 + 1
  BitVec.ofNat 64 (c * 2 ^ 48 + keep)

/-- CR.MMERR after an uncorrectable accumulator element: counted. -/
def mmerrAcc (e : BitVec 64) : BitVec 64 :=
  let x := e.toNat
  BitVec.ofNat 64 (min 255 (bits x 55 48 + 1) * 2 ^ 48 + bits x 47 0)

/-- CR.MMERR after a refused page. -/
def mmerrPage (e : BitVec 64) : BitVec 64 := e ||| 2#64

/-- Update the recording wave's CR.MMERR, unless it has retired. -/
def State.onMmerr (s : State) (k : Nat) (f : BitVec 64 → BitVec 64) : State :=
  if (s.wave k).retired then s else s.onWave k fun w => { w with mmerr := f w.mmerr }

/-- What an operation's reads report: elements of A, then of B, then, with its first group, scale bytes. -/
def State.matReport (s : State) (m : MatOp) (d : MatData) (g : Nat) : State :=
  let t := m.ops.tl.toNat
  let log (b : Bool) (s : State) (x : MatElem) (r c : Nat) : State :=
    let s := if x.bad then s.onMmerr m.wave fun e => mmerrElem e t b r c else s
    if x.pf then s.onMmerr m.wave mmerrPage else s
  let s := d.a.zipIdx.foldl (fun s r => r.1.zipIdx.foldl (fun s x => log false s x.1 r.2 (16 * g + x.2)) s) s
  let s := d.b.zipIdx.foldl (fun s r => r.1.zipIdx.foldl (fun s x => log true s x.1 (16 * g + r.2) x.2) s) s
  if g != 0 then s
  else
    let s := d.sa.zipIdx.foldl (fun s x => log false s x.1 x.2 x.2) s
    d.sb.zipIdx.foldl (fun s x => log true s x.1 x.2 x.2) s

/-! ## Integration steps (R268, R271, R282) -/

/-- An earlier posted operation on the tile has not completed (R268). -/
def State.matBlocked (s : State) (m : MatOp) (b : Nat) : Bool :=
  s.mats.any fun p => !p.2.complete && p.2.ops.tl.toNat == m.ops.tl.toNat && (p.2.parts.any fun q => q.block == b) &&
    decide (p.2.posted.getD (m.posted.getD 0) < m.posted.getD 0)

/-- Change one part of an operation. -/
def State.setPart (s : State) (k n : Nat) (f : MatPart → MatPart) : State :=
  let m := s.mat k
  s.setMat k { m with parts := m.parts.zipIdx.map fun p => if p.2 == n then f p.1 else p.1 }

/-- A part may work: posted, not complete, not saved, not held, nor waiting for a route (R365). -/
def State.partReady (s : State) (k n : Nat) : Bool :=
  let m := s.mat k
  s.mats.has k && m.posted.isSome && !m.complete && s.gaveUp m.away &&
    match m.parts[n]? with
    | some p => p.parked.isNone && decide (p.steps < (mmaK m.ops) / 16) && !s.matBlocked m p.block
    | none => false

/-- Store a tile after an operation's work on it: elements that a soft error marked were read as zero with LOSS
(R284) and are written now. Its granules are dirty (R341): the operation's, or every one after a
renormalisation. -/
def State.storeTile (s : State) (b : Nat) (m : MatOp) (old v : AccTile) : State :=
  let t := m.ops.tl.toNat
  let gs := if old.exp.isSome && old.exp != v.exp then List.range 256
    else (m.cells.map fun c => (64 * c.1 + c.2) / 16).eraseDups
  (s.putTile b t { v with dirty := v.dirty ++ gs.filter fun g => !v.dirty.contains g }).unmarkTile b t

/-- The tile as integration reads it: an uncorrectable element counts as zero with LOSS set. -/
def State.tileFor (s : State) (b t : Nat) : AccTile × Nat :=
  let v := (s.block b).tiles.get .zero t
  let bad := s.badTile b t
  ({ v with elems := bad.foldl (fun es i => es.put i { AccElem.zero with loss := true }) v.elems }, bad.length)

/-- The step itself, with the operands of group `g` read as the `n`-th of the data. -/
def State.matStep (s : State) (k part : Nat) (p : MatPart) (d : MatData) (n : Nat) (e : Int) : State :=
  let m := s.mat k
  let t := s.tileFor p.block m.ops.tl.toNat
  let gs := m.cells.map fun c => (c, m.groupAt d n c.1 c.2)
  let v := integrate t.1 e (m.beside t.1 gs)
  let s := (List.range t.2).foldl (fun s _ => s.onMmerr m.wave mmerrAcc) s
  let d1 : MatData := { d with
    a := d.a.map fun r => (r.drop (16 * n)).take 16
    b := (d.b.drop (16 * n)).take 16 }
  ((s.matReport m d1 p.steps).storeTile p.block m t.1 v).setPart k part fun q => { q with steps := q.steps + 1 }

/-- Every product is zero and E is unset: no integration step; special states combine (R271, R269). -/
def State.matNone (s : State) (k part : Nat) (p : MatPart) (d : MatData) : State :=
  let m := s.mat k
  let t := s.tileFor p.block m.ops.tl.toNat
  let n := (mmaK m.ops) / 16
  let es := (m.beside t.1 (m.cells.map fun c => (c,
    { u := none, sum := ⟨0, 0⟩, loss := false
      spec := (List.range n).foldl (fun a g => a.meet (m.groupAt d g c.1 c.2).spec) Spec.finite : GroupSum }))).map
    fun x => match x.2 with
      | some g => { x.1 with spec := x.1.spec.meet g.spec }
      | none => x.1
  let s := (List.range t.2).foldl (fun s _ => s.onMmerr m.wave mmerrAcc) s
  let s := (List.range n).foldl (fun s g => s.matReport m { d with
    a := d.a.map fun r => (r.drop (16 * g)).take 16
    b := (d.b.drop (16 * g)).take 16 } g) s
  (s.storeTile p.block m t.1 { t.1 with elems := sparse es }).setPart k part fun q => { q with steps := n }

/-- What the groups `gs` read of streamed B, by address and bytes: their rows, and the row of scales. -/
def MatOp.streams (m : MatOp) (gs : List Nat) : List (Nat × Nat) :=
  if mmaStr m.ops then
    ((gs.flatMap fun g => (List.range 16).map fun i => m.g.toNat + (16 * g + i) * m.stride.toNat).map fun va =>
      (va, dimOf m.ops.nc * mmaWb m.ops)) ++
      if mmaSc m.ops then [(m.g.toNat + mmaK m.ops * m.stride.toNat, dimOf m.ops.nc)] else []
  else []

/-- The TLBs keep the translations of what the groups `gs` read of streamed B (R212). -/
def State.matFill (s : State) (m : MatOp) (gs : List Nat) : State :=
  (m.streams gs).foldl (fun s r => (s.touched m.wave r.1).touched m.wave (r.1 + r.2 - 1)) s

/-- An element of streamed B is read: its page is neither refused nor denied. -/
def State.streamed (s : State) (m : MatOp) (va : Nat) : Bool :=
  !m.refused.contains (va / 2 ^ 16) && match s.engineTouch m.wave false va with
    | .ok _ _ => true
    | _ => false

/-- Operation `k` has read what the groups `gs` need: it may hit watchpoints (R390). -/
def State.matHits (s : State) (k : Nat) (gs : List Nat) : State :=
  let m := s.mat k
  if s.watching m.wave then
    let rs := (m.streams gs).flatMap fun r => ((List.range r.2).filter fun i => s.streamed m (r.1 + i)).map fun i =>
      (⟨r.1 + i, 1, false⟩ : Span)
    let h := s.hitUnit (.matrix k) m.wave m.pc m.lanes m.hits rs
    h.1.setMat k { m with hits := h.2 }
  else s

/-- A part waits for a page, with an entry of its core's fault buffer where there is one (R282). -/
def State.holdPart (s : State) (k part va : Nat) : State :=
  (s.awaitPage (s.mat k).wave va).setPart k part fun q => { q with parked := some va, held := s.entryFree (s.block q.block).core }

/-- What stops a part: it waits for a page, or for a route. -/
def State.stopPart (s : State) (k part : Nat) (x : MatStop) : State :=
  match x with
  | .fault va => s.holdPart k part va
  | .lost d => s.setMat k { s.mat k with away := some (d, s.time) }

/-- A wait for a route is over: the device is given up (R365). -/
def State.giveUpMat (s : State) (k : Nat) : State :=
  let m := s.mat k
  match m.away with
  | some d => (s.loseDevice m.wave d.1).setMat k { m with away := none, gone := d.1 :: m.gone }
  | none => s

/-- A part waits no longer. -/
def State.freePart (s : State) (k part : Nat) : State :=
  s.setPart k part fun q => { q with parked := none, held := false }

/-- MATRIX_INTEGRATION_STEP (R271): step G of a part. Before the first step of an operation that finds E unset
every byte of B is read (R282). -/
def execMatrixIntegrationStep (k part : Nat) (s : State) : Host.Outcome State Fault Refusal :=
  .next (
    if !s.partReady k part then s
    else
      let s := s.giveUpMat k
      let m := s.mat k
      match m.parts[part]? with
      | none => s
      | some p =>
        let t := (s.block p.block).tiles.get .zero m.ops.tl.toNat
        match t.exp with
        | some e =>
          match s.matRead m p.block [p.steps] with
          | .error x => s.stopPart k part x
          | .ok d => ((s.matFill m [p.steps]).matHits k [p.steps]).matStep k part p d 0 e
        | none =>
          match s.matRead m p.block (List.range ((mmaK m.ops) / 16)) with
          | .error x => s.stopPart k part x
          | .ok d =>
            let gs := List.range ((mmaK m.ops) / 16)
            let s := (s.matFill m gs).matHits k gs
            let us := m.cells.flatMap fun c =>
              (List.range ((mmaK m.ops) / 16)).filterMap fun g => (m.groupAt d g c.1 c.2).u
            match us with
            | [] => s.matNone k part p d
            | u :: rest => s.matStep k part p d p.steps (rest.foldl min u))

/-- MATRIX_OPERATION_COMPLETION (R268, R281): every part has performed its last step; the operation arrives at
its completion barrier, once for each instance that its blocks reach. -/
def execMatrixOperationCompletion (k : Nat) (s : State) : Host.Outcome State Fault Refusal :=
  .next (
    let m := s.mat k
    let br := m.ops.br.toNat
    if !s.mats.has k || m.posted.isNone || m.complete ||
        m.parts.any (fun p => decide (p.steps < (mmaK m.ops) / 16)) then s
    else
      let wide := (s.launch (s.gang m.gang).launch).kernel.gangScope 3 br
      let s := m.parts.foldl (fun s p =>
        if p.zeroed then
          let t := (s.block p.block).tiles.get .zero m.ops.tl.toNat
          s.putTile p.block m.ops.tl.toNat { t with undefs := List.range 4096 }
        else s) s
      let s := s.setMat k { m with
        complete := true, parts := m.parts.map fun p => { p with phase := (s.bar p.block br).phase } }
      ((if wide then m.parts.take 1 else m.parts).foldl (fun s p => (s.tellBar p.block br m.told).arrive p.block br) s))

/-- MATRIX_FAULT_REPLAY (R282): the page is mapped; the part goes on at step G. -/
def execMatrixFaultReplay (k part : Nat) (s : State) : Host.Outcome State Fault Refusal :=
  .next (
    let m := s.mat k
    match m.parts[part]? with
    | some p => match p.parked with
      | some va =>
        if s.pageReady m.wave false va && s.resumesNow (s.block p.block).core m.wave p.held va then s.freePart k part else s
      | none => s
    | none => s)

/-- STREAMED_PAGE_REFUSAL (R283): every element of B on the page counts as zero; PF is set. -/
def execStreamedPageRefusal (k part : Nat) (va : BitVec 64) (s : State) : Host.Outcome State Fault Refusal :=
  .next (
    let m := s.mat k
    match (m.parts[part]?).bind (·.parked) with
    | some a =>
      if a / 2 ^ 16 == va.toNat / 2 ^ 16 then
        ((s.setMat k { m with refused := m.refused ++ [a / 2 ^ 16] }).freePart k part).onMmerr m.wave mmerrPage
      else s
    | none => s)

/-! ## The epilogue (R276-R280) -/

/-- Fields of an EPI control word (R277). -/
def epiScl (c : Nat) : Nat := bits c 27 26
def epiBias (c : Nat) : Bool := bit c 25
def epiAct (c : Nat) : Nat := bits c 24 23
def epiLk (c : Nat) : Nat := bits c 22 18
def epiClamp (c : Nat) : Bool := bit c 17
def epiPlain (c : Nat) : Bool := bit c 28

/-- Check 2 of R280 on a control word. -/
def epiOk (e : EpiOps) (c : Nat) : Bool :=
  if e.h.mod == 1#3 then bits c 47 29 == 0 && bits c 27 0 == 0 && e.vb == 0#8
  else epiScl c != 3 && epiAct c != 3 && !bit c 16 &&
    (if epiAct c == 2 then epiLk c != 0 else epiLk c == 0) && (epiScl c == 1 || bits c 15 8 == 0) &&
    (epiClamp c || bits c 7 0 == 0) && (epiScl c == 2 || epiBias c || e.vb == 0#8)

/-- A product in the epilogue: 0 × inf is NaN. -/
def epiMul (x y : FVal) : FVal := matProduct x y 0

/-- A sum in the epilogue: inf − inf is NaN. -/
def epiAdd (x y : FVal) : FVal :=
  match x, y with
  | .nan _ _ _, _ => x
  | _, .nan _ _ _ => y
  | .inf a, .inf b => if a == b then x else .nan false false 0
  | .inf _, _ => x
  | _, .inf _ => y
  | _, _ => let d := x.val.add y.val; .fin (decide (d.m < 0)) d.abs

/-- x < 0. -/
def FVal.lt0 : FVal → Bool
  | .nan _ _ _ => false
  | .inf n => n
  | .fin n d => n && d.m != 0

/-- The clamp to [−2^cx, 2^cx]. -/
def epiLimit (cx : Int) (x : FVal) : FVal :=
  let top : Dy := ⟨1, cx⟩
  match x with
  | .nan _ _ _ => x
  | .inf n => .fin n top
  | .fin n d => if top.lt d then .fin n top else x

/-- The stages before convert (R278), all exact. -/
def epiStages (c : Nat) (scale bias : Nat) (x : FVal) : FVal :=
  let x := if epiScl c == 1 then epiMul x (.fin false ⟨1, sext 8 (bits c 15 8)⟩)
    else if epiScl c == 2 then epiMul x (fp32.decode scale) else x
  let x := if epiBias c then epiAdd x (fp32.decode bias) else x
  let x := if epiAct c == 1 && x.lt0 then .fin false ⟨0, 0⟩
    else if epiAct c == 2 && x.lt0 then epiMul x (.fin false ⟨1, -(epiLk c : Int)⟩) else x
  if epiClamp c then epiLimit (sext 8 (bits c 7 0)) x else x

/-- The convert stage (R278): a zero has no sign. -/
def epiConvert (fmt : Nat) (rm : RMode) (sat : Bool) (x : FVal) : Nat :=
  if isInt fmt then
    let w := fmtWidth fmt
    let uns := decide (20 ≤ fmt)
    let lo : Int := if uns then 0 else -(2 ^ (w - 1) : Nat)
    let hi : Int := if uns then (2 ^ w : Nat) - 1 else (2 ^ (w - 1) : Nat) - 1
    let indef : Int := if uns then hi else lo
    wrap w (match x with
      | .nan _ _ _ => if sat then 0 else indef
      | .inf n => if sat then (if n then lo else hi) else indef
      | .fin n d =>
        let q : Int := roundMag rm n d
        let v := if n then -q else q
        if v < lo then (if sat then lo else indef) else if hi < v then (if sat then hi else indef) else v)
  else
    let f := fmtOf fmt
    match x with
    | .nan _ _ _ => f.nan
    | .inf n =>
      if sat then (if f.uns && n then 0 else f.pack n f.maxMag)
      else if f.inf && !(f.uns && n) then f.pack n f.infMag else f.nan
    | .fin n d => (f.round rm sat false (if n then d.neg else d)).1

/-- The value that an accumulator element holds (R278). -/
def AccTile.value (t : AccTile) (a : AccElem) : FVal :=
  match a.spec with
  | .nan => .nan false false 0
  | .pinf => .inf false
  | .ninf => .inf true
  | .finite =>
    match t.exp with
    | some e => .fin (decide (a.mant < 0)) ⟨a.mant.natAbs, e⟩
    | none => .fin false ⟨0, 0⟩

/-- EPI at issue (R278-R280): its writes are in the wave's view at once, and are performed later. -/
def State.epilogue (s : State) (e : EpiOps) (act : List Nat) : Eff :=
  let k := s.iss.wave
  let b := s.cur.block
  let lane := act.headD 0
  let cw := s.readUnif lane e.cn.toNat
  let c := cw.toNat
  let flags := e.h.mod == 1#3
  let rows := dimOf e.mc
  let cols := dimOf e.nc
  let wd := if flags then 1 else fmtWidth e.fmt.toNat / 8
  let p := cols * wd
  let start := 128 * bits c 63 48
  let vst := if flags then 0 else 128 * bits c 47 32
  let scl := !flags && epiScl c == 2
  let bias := !flags && epiBias c
  let vlen := (if scl then 4 * cols else 0) + if bias then 4 * cols else 0
  if !epiOk e c then .trap causeEpilogue cw lane
  else if !epiPlain c && p % 16 != 0 then .trap causeEpilogue cw lane
  else if s.scratchSize b e.db.toNat < start + rows * p then
    .trap causeBounds (scratchPtr e.db.toNat start) lane
  else if 0 < vlen && decide (s.scratchSize b e.vb.toNat < vst + vlen) then
    .trap causeBounds (scratchPtr e.vb.toNat vst) lane
  else
    let tl := e.tl.toNat
    let t := (s.block b).tiles.get .zero tl
    let open_ := s.tileOpen b tl
    let es := t.dense
    let vec (off j : Nat) : Nat := s.scratchPast.scratchRead b e.vb.toNat (vst + off + 4 * j) 4
    let scs := (List.range cols).map fun j => if scl then vec 0 j else 0
    let bis := (List.range cols).map fun j => if bias then vec (if scl then 4 * cols else 0) j else 0
    let y (i j : Nat) : Nat :=
      let x := 64 * i + j
      let a := if s.badNames.contains (.tile b tl x) then AccElem.zero else es.getD x .zero
      if flags then a.loss.toNat + 2 * a.spec.code
      else epiConvert e.fmt.toNat (bits c 31 30) (bit c 29)
        (epiStages c (scs.getD j 0) (bis.getD j 0) (t.value a))
    let put (s : State) (i j : Nat) : State :=
      let off := start + imageOff (epiPlain c) p wd i j
      if open_ || t.undefs.contains (64 * i + j) then s.blurScratch b e.db.toNat off wd
      else s.writeScratch b e.db.toNat off (leBytes wd (y i j)) none
    let s' := (List.range rows).foldl (fun s i => ((List.range cols).foldl (fun s j => put s i j) s).unmarkScratch
      b e.db.toNat (start + i * p) p) s
    let ptr (buf off : Nat) : Nat := (scratchPtr buf off).toNat
    .done ((s'.access1 k 3 e.db.toNat).watchUnit k act
      [⟨ptr e.vb.toNat vst, vlen, false⟩, ⟨ptr e.db.toNat start, rows * p, true⟩])

/-- EPI (R276-R280). -/
def execEpi (e : EpiOps) (s : State) : Host.Outcome State Fault Refusal :=
  .next (s.issue (.epi e) fun s act => s.epilogue e act)

end Sys2Proof.Machine
end

