-- ==== Sys2Proof/Machine/Special.lean ====
section
/-! DEFINITION. The special functions and VFROPE (R127-R133). Each result is computed as an interval of
high precision around the exact value; inside the bound of R128 or R132 the result is picked by a function
without a body (log 10). -/

namespace Sys2Proof.Machine

/-- Fraction bits of the fixed-point evaluation. -/
def fixK : Nat := 160

/-- 2^160 × π/2, rounded down. -/
def fixHalfPi : Nat := 0x1921fb54442d18469898cc51701b839a252049c11

/-- 2^400 / (2π), rounded down (R133). -/
def inv2Pi : Nat :=
  0x28be60db9391054a7f09d5f47d4d377036d8a5664f10e4107f9458eaf7aef1586dc91b8e909374b801924bba827464873f87

/-- 2^160 × ln 2, rounded down. -/
def fixLn2 : Nat := 0xb17217f7d1cf79abc9e3b39803f2f6af40f34326

/-- 2^160 / ln 2, rounded down. -/
def fixInvLn2 : Nat := 0x171547652b82fe1777d0ffda0d23a7d11d6aef551

/-- An exact value known to lie within `err` of `c`. -/
structure Approx where
  c   : Dy
  err : Dy

/-- A fixed-point result, known within 2^−130. -/
def Approx.ofFix (x : Int) : Approx := ⟨⟨x, -160⟩, ⟨1, -130⟩⟩

/-- ulp of R127, from below where the interval crosses a power of two. -/
def ulpOf (f : Approx) : Dy :=
  let lo := f.c.abs.sub f.err
  if lo.m ≤ 0 then ⟨1, -149⟩ else ⟨1, max lo.log2 (-126) - 23⟩

/-- FP32 patterns in numeric order. -/
def ord32 (p : Nat) : Int := if 2 ^ 31 ≤ p then -((p - 2 ^ 31 : Nat) : Int) else (p : Int)

/-- The pattern at a place of that order; zero takes the sign given. -/
def unord32 (zneg : Bool) (i : Int) : Nat :=
  if i == 0 then (if zneg then 2 ^ 31 else 0)
  else if 0 ≤ i then i.toNat else 2 ^ 31 + (-i).toNat

/-- An FP32 value within `bound` of `f`, the `k`-th of them modulo their number (R128, R131). DESIGN CHOICE (log 78): one that
is zero takes the exact value's sign. -/
def within (f : Approx) (bound : Dy) (k : Nat) : Nat :=
  let lo := ord32 (fp32.round 2 false false ((f.c.add f.err).sub bound)).1
  let hi := ord32 (fp32.round 3 false false ((f.c.sub f.err).add bound)).1
  unord32 (decide (f.c.m < 0)) (if hi < lo then lo else lo + Int.ofNat (k % (hi - lo + 1).toNat))

/-- R130 for an irrational exact value: overflow as R74, else a value within the bound; NX always, UF when
the exact value is tiny. -/
def specialResult (mode : RMode) (f : Approx) (bound : Dy) (k : Nat) : Nat × Flags :=
  let o := fp32.round mode false false f.c
  if o.2 &&& flagOF != 0 then o
  else (within f bound k, flagNX ||| (if f.c.abs.lt ⟨1, -126⟩ then flagUF else 0))

/-- Taylor terms: Σ t^j / j! scaled, `n` more terms from term `j` on. -/
def expSeries (t : Nat) : Nat → Nat → Nat → Nat → Nat
  | 0, _, _, acc => acc
  | n + 1, j, term, acc =>
    let term' := term * t / 2 ^ 160 / (j + 1)
    expSeries t n (j + 1) term' (acc + term')

/-- 2^v for an FP32 value v between −1000 and 1000 (its exponent is −149 or more). -/
def exp2Approx (v : Dy) : Approx :=
  let one : Int := 2 ^ 160
  let x : Int := v.at (-160)
  let n : Int := x / one
  let r : Nat := (x % one).toNat
  let s := expSeries (r * fixLn2 / 2 ^ 160) 40 0 (2 ^ 160) (2 ^ 160)
  ⟨⟨(s : Int), n - 160⟩, ⟨1, n - 130⟩⟩

/-- Σ z^(2j+1)/(2j+1), `n` more terms. -/
def atanhSeries (z2 : Nat) : Nat → Nat → Nat → Nat → Nat
  | 0, _, _, acc => acc
  | n + 1, j, pw, acc =>
    let pw' := pw * z2 / 2 ^ 160
    atanhSeries z2 n (j + 2) pw' (acc + pw' / (j + 2))

/-- log2 of m × 2^e, m > 0. -/
def log2Approx (m : Nat) (e : Int) : Approx :=
  let l := Nat.log2 m
  let z := (m - 2 ^ l) * 2 ^ 160 / (m + 2 ^ l)
  let s := atanhSeries (z * z / 2 ^ 160) 60 1 z z
  .ofFix ((e + (l : Int)) * (2 ^ 160 : Int) + Int.ofNat (2 * s * fixInvLn2 / 2 ^ 160))

/-- Integer square root, bit by bit from bit `n - 1`. -/
def isqrtFrom (x : Nat) : Nat → Nat → Nat
  | 0, r => r
  | n + 1, r => let c := r + 2 ^ n; isqrtFrom x n (if c * c ≤ x then c else r)

/-- ⌊√x⌋ for x < 2^256. -/
def isqrt (x : Nat) : Nat := isqrtFrom x 128 0

/-- Σ (−1)^j x^(2j+b)/(2j+b)!, with x² given. -/
def trigSeries (x2 : Nat) : Nat → Nat → Int → Int → Int
  | 0, _, _, acc => acc
  | n + 1, j, term, acc =>
    let term' := -(term * (x2 : Int) / (2 ^ 160 : Int) / (((j + 1) * (j + 2) : Nat) : Int))
    trigSeries x2 n (j + 2) term' (acc + term')

/-- sin and cos of an angle, reduced modulo 2π (R133), in fixed point. -/
def sinCosFix (t : Dy) : Int × Int :=
  let e : Int := t.e - 400 + 162
  let x := t.m.natAbs * inv2Pi
  let q : Nat := if 0 ≤ e then x * 2 ^ e.toNat else x / 2 ^ (-e).toNat      -- 2^162 × |θ| / 2π
  let quad : Nat := q / 2 ^ 160 % 4
  let a : Nat := q % 2 ^ 160 * fixHalfPi / 2 ^ 160
  let a2 : Nat := a * a / 2 ^ 160
  let s := trigSeries a2 32 1 (a : Int) (a : Int)
  let c := trigSeries a2 32 0 (2 ^ 160 : Nat) (2 ^ 160 : Nat)
  let sn : Int := match quad with | 0 => s | 1 => c | 2 => -s | _ => -c
  let cs : Int := match quad with | 0 => c | 1 => -s | 2 => -c | _ => s
  (if t.m < 0 then -sn else sn, cs)

/-- Tags of the special functions for the pick of R131. -/
def tagExp2 : Nat := 0
def tagLog2 : Nat := 1
def tagRsq : Nat := 2
def tagSin : Nat := 3
def tagCos : Nat := 4

/-- The pick of R131 for a function, mode and input. -/
def pickOf (tag mode a : Nat) : Nat := Config.specialPick tag mode (BitVec.ofNat 32 a)

/-- VFEXP2F (R128-R130). -/
def fexp2f (mode : RMode) (a : Nat) : Nat × Flags :=
  match fp32.decode a with
  | .nan n s f => (quiet32 n f, if s then flagNV else 0)
  | .inf n => (if n then 0 else inf32 false, 0)
  | .fin n d =>
    let v := if n then d.neg else d
    let i : Int := v.at (min v.e 0) / (2 ^ (-(min v.e 0)).toNat : Int)       -- ⌊v⌋
    if (Dy.ofInt 200).lt v then fp32.round mode false false ⟨1, 200⟩
    else if v.lt (Dy.ofInt (-400)) then
      specialResult mode ⟨⟨1, -400⟩, ⟨1, -400⟩⟩ ⟨64, -149⟩ (pickOf tagExp2 mode a)
    else if (v.sub (Dy.ofInt i)).m == 0 && (-149) ≤ i then fp32.round mode false false ⟨1, i⟩
    else
      let f := exp2Approx v
      let u := ulpOf f
      let near := d.le ⟨1, -1⟩
      specialResult mode f (if near then u else ⟨64 * u.m, u.e⟩) (pickOf tagExp2 mode a)

/-- VFLOG2. -/
def flog2 (mode : RMode) (a : Nat) : Nat × Flags :=
  match fp32.decode a with
  | .nan n s f => (quiet32 n f, if s then flagNV else 0)
  | .inf n => if n then invalid32 else (inf32 false, 0)
  | .fin n d =>
    if d.m == 0 then (inf32 true, flagDZ)
    else if n then invalid32
    else
      let m := d.m.natAbs
      if m == 2 ^ Nat.log2 m then fp32.round 0 false false (Dy.ofInt d.log2)
      else
        let f := log2Approx m d.e
        let mid := (Dy.le ⟨1, -1⟩ d) && d.le ⟨2, 0⟩
        specialResult mode f (if mid then ⟨1, -22⟩ else ulpOf f) (pickOf tagLog2 mode a)

/-- VFRCP, correctly rounded. -/
def frcp (mode : RMode) (a : Nat) : Nat × Flags :=
  match fp32.decode a with
  | .nan n s f => (quiet32 n f, if s then flagNV else 0)
  | .inf n => (fp32.pack n 0, 0)
  | .fin n d =>
    if d.m == 0 then (inf32 n, flagDZ)
    else if 0 ≤ d.e then fp32.roundRat mode false n 1 (d.m.natAbs * 2 ^ d.e.toNat)
    else fp32.roundRat mode false n (2 ^ (-d.e).toNat) d.m.natAbs

/-- m × 2^e with an even exponent. -/
def evenExp (d : Dy) : Nat × Int :=
  if d.e % 2 == 0 then (d.m.natAbs, d.e) else (2 * d.m.natAbs, d.e - 1)

/-- VFRSQ. -/
def frsq (mode : RMode) (a : Nat) : Nat × Flags :=
  match fp32.decode a with
  | .nan n s f => (quiet32 n f, if s then flagNV else 0)
  | .inf n => if n then invalid32 else (0, 0)
  | .fin n d =>
    if d.m == 0 then (inf32 n, flagDZ)
    else if n then invalid32
    else
      let m := d.m.natAbs
      if m == 2 ^ Nat.log2 m && d.log2 % 2 == 0 then fp32.round 0 false false ⟨1, -(d.log2 / 2)⟩
      else
        let p := evenExp d
        let s := isqrt (2 ^ 200 / p.1)
        let f : Approx := ⟨⟨(s : Int), -100 - p.2 / 2⟩, ⟨2, -100 - p.2 / 2⟩⟩
        specialResult mode f (ulpOf f) (pickOf tagRsq mode a)

/-- VFSQRT, correctly rounded: an inexact root lies strictly between two neighbours of a finer grid. -/
def fsqrt (mode : RMode) (a : Nat) : Nat × Flags :=
  match fp32.decode a with
  | .nan n s f => (quiet32 n f, if s then flagNV else 0)
  | .inf n => if n then invalid32 else (inf32 false, 0)
  | .fin n d =>
    if d.m == 0 then (fp32.pack n 0, 0)
    else if n then invalid32
    else
      let p := evenExp d
      let x := p.1 * 2 ^ 80
      let s := isqrt x
      let st : Int := if s * s == x then 0 else 1
      fp32.round mode false false ⟨2 * (s : Int) + st, p.2 / 2 - 41⟩

/-- VFSIN. Below 2^−12 the result is the argument itself. -/
def fsin (mode : RMode) (a : Nat) : Nat × Flags :=
  match fp32.decode a with
  | .nan n s f => (quiet32 n f, if s then flagNV else 0)
  | .inf _ => invalid32
  | .fin n d =>
    if d.m == 0 then (fp32.pack n 0, 0)
    else if d.lt ⟨1, -12⟩ then (a % 2 ^ 32, flagNX ||| (if d.le ⟨1, -126⟩ then flagUF else 0))
    else specialResult mode (.ofFix (sinCosFix (if n then d.neg else d)).1) ⟨1, -22⟩ (pickOf tagSin mode a)

/-- VFCOS. -/
def fcos (mode : RMode) (a : Nat) : Nat × Flags :=
  match fp32.decode a with
  | .nan n s f => (quiet32 n f, if s then flagNV else 0)
  | .inf _ => invalid32
  | .fin _ d =>
    if d.m == 0 then (0x3F800000, 0)
    else specialResult mode (.ofFix (sinCosFix d).2) ⟨1, -22⟩ (pickOf tagCos mode a)

/-- An exact zero half of VFROPE takes the sign of a sum of two signed zeros (R132, R75). -/
def ropeZero (mode : RMode) (s1 s2 : Bool) : Nat :=
  fp32.pack (if s1 == s2 then s1 else mode == 3) 0

/-- sin and cos of an angle below 2^−16, times 9!: their series up to the ninth power, exactly, so that however much of
x·cos θ and y·sin θ cancels, the sign and the size of what is left are those of the exact value. -/
def sinCosSmall (t : Dy) : Dy × Dy :=
  let t2 := t.mul t
  let series (ks : List Int) : Dy := ks.foldl (fun a k => (a.mul t2).add (Dy.ofInt k)) (Dy.ofInt 0)
  ((series [1, -72, 3024, -60480, 362880]).mul t, series [9, -504, 15120, -181440, 362880])

/-- sin and cos of an angle for VFROPE, with what divides them. -/
def sinCosRope (t : Dy) : Dy × Dy × Nat :=
  if t.abs.lt ⟨1, -16⟩ then
    let r := sinCosSmall t
    (r.1, r.2, 362880)
  else
    let r := sinCosFix t
    (⟨r.1, -160⟩, ⟨r.2, -160⟩, 1)

/-- One nonzero half of VFROPE: (u × p + v × q) / k. -/
def ropeHalf (mode : RMode) (u v p q : Dy) (k : Nat) (pick : Nat) : Nat × Flags :=
  let n := (u.mul p).add (v.mul q)
  let c : Dy := ⟨n.m * (2 ^ 64 : Int) / (k : Int), n.e - 64⟩
  let mag := u.abs.add v.abs
  let f : Approx := ⟨c, mag.mul ⟨1, -130⟩⟩
  specialResult mode f ((mag.mul ⟨1, -22⟩).add (ulpOf f)) pick

/-- VFROPE on a pair, a position and a frequency (R132). R133 says that a position of 0 leaves a as it is whatever w is;
where w is infinite, the pseudocode of R132 stands: NaN with NV (log 59). -/
def frope (mode : RMode) (a p w : Nat) : Nat × Flags :=
  let xb := bits a 31 0
  let yb := bits a 63 32
  let x := fp32.decode xb
  let y := fp32.decode yb
  let f := fp32.decode w
  let pos : Nat := p % 2 ^ 32
  let both (r : Nat × Flags) : Nat × Flags := (r.1 + 2 ^ 32 * r.1, r.2)
  match nanResult [x, y, f] with
  | some r => both r
  | none =>
    if f.isInf || ((x.isInf || y.isInf) && !(pos == 0 || f.isZero)) then both invalid32
    else if pos == 0 || f.isZero then (a % 2 ^ 64, 0)
    else
      let sc := sinCosRope (f.val.mul (Dy.ofInt pos))
      let sneg := decide (sc.1.m < 0)
      let cneg := decide (sc.2.1.m < 0)
      if x.isZero && y.isZero then
        (ropeZero mode (x.neg? != cneg) (!(y.neg? != sneg)) +
          2 ^ 32 * ropeZero mode (x.neg? != sneg) (y.neg? != cneg), 0)
      else
        let key (h : Bool) :=
          Config.ropePick h mode (BitVec.ofNat 64 a) (BitVec.ofNat 32 p) (BitVec.ofNat 32 w)
        let lo := ropeHalf mode x.val y.val.neg sc.2.1 sc.1 sc.2.2 (key false)
        let hi := ropeHalf mode x.val y.val sc.1 sc.2.1 sc.2.2 (key true)
        (lo.1 + 2 ^ 32 * hi.1, lo.2 ||| hi.2)

end Sys2Proof.Machine
end

