-- ==== Sys2Proof/Machine/Palp.lean ====
section
/-! DEFINITION. The palp units (R288-R311): selection, scores, clustering and attention near memory, and
TMERGE on the core. -/

namespace Sys2Proof.Machine

/-! ## Parameters as read at issue (R290, R291) -/

/-- Word `i` of a byte string: 64 bits, or 32 bits from byte `off`. -/
def word64 (bs : List Byte) (i : Nat) : Nat := ofLe ((bs.drop (8 * i)).take 8)
def word32 (bs : List Byte) (off : Nat) : Nat := ofLe ((bs.drop off).take 4)

def hiHalf (x : Nat) : Nat := bits x 63 32
def loHalf (x : Nat) : Nat := bits x 31 0

/-- What a command's parameter block says, by kind, as far as issue needs it: whether check 4 of R292 holds
(`rg`: results go to global memory); the tables in PB as offset and length; further addresses; the element
size of U's format; the bytes of the largest result area. -/
structure PalpPlan where
  ok     : Bool
  tables : List (Nat × Nat)
  addrs  : List Nat
  ws     : Nat
  size   : Nat
  deriving DecidableEq, Repr

/-- Bytes of the layout of R296. -/
def listBytes (cap ws : Nat) : Nat := 16 * ((4 * cap + 15) / 16) + cap * ws

/-- A head dimension, vector or key length (R300, R302, R304). -/
def dimOk (d : Nat) : Bool := decide (16 ≤ d) && decide (d ≤ 256) && d % 16 == 0

/-- NMSEL and NMTOPK (R296). -/
def planSel (topk : Bool) (p : List Byte) : PalpPlan :=
  let w := word64 p
  let cap := hiHalf (w 0)
  let fmt := bits (w 1) 5 0
  let ws := fmtWidth fmt / 8
  let op := bits (w 1) 15 8
  let fits (x : Nat) : Bool := decide (x < 2 ^ (8 * ws))
  { ok := (isFloat fmt || fmt == 18) && w 5 == 0 && w 6 == 0 && w 7 == 0 && bits (w 1) 63 16 == 0 &&
      bits (w 1) 7 6 == 0 && decide (1 ≤ cap) && decide (1 ≤ loHalf (w 0)) &&
      (if topk then decide (cap ≤ 1024) && op == 0 && w 2 == 0 && w 3 == 0
       else decide (op ≤ 6) && fits (w 2) && (if op == 6 then fits (w 3) else w 3 == 0))
    tables := [], addrs := [], ws := ws, size := listBytes cap ws }

/-- NMSCORE (R300). -/
def planScore (p : List Byte) : PalpPlan :=
  let w := word64 p
  let d := hiHalf (w 0)
  let nv := loHalf (w 0)
  let k := bits (w 1) 31 16
  let fmt := bits (w 1) 5 0
  let ws := fmtWidth fmt / 8
  { ok := isFloat fmt && w 5 == 0 && w 6 == 0 && w 7 == 0 && dimOk d && decide (1 ≤ nv) && decide (nv ≤ 1024) &&
      hiHalf (w 1) == 0 && bits (w 1) 15 6 == 0 && decide (k ≤ 1024) && w 2 % ws == 0
    tables := [(loHalf (w 3), 4 * d), (hiHalf (w 3), 4 * nv)], addrs := [], ws := ws
    size := if k == 0 then 4 * nv else listBytes k 4 }

/-- NMASSIGN (R302). -/
def planAssign (p : List Byte) : PalpPlan :=
  let w := word64 p
  let fmt := bits (w 1) 5 0
  { ok := isFloat fmt && w 5 == 0 && w 6 == 0 && w 7 == 0 && dimOk (hiHalf (w 0)) && bits (w 1) 63 6 == 0
    tables := [], addrs := [w 3], ws := fmtWidth fmt / 8, size := 16 }

/-- NMATTN (R304). -/
def planAttn (p : List Byte) : PalpPlan :=
  let w := word64 p
  let d := hiHalf (w 0)
  let nb := loHalf (w 0)
  let kf := bits (w 1) 5 0
  let h := bits (w 1) 19 16 + 1
  let rope := bit (w 1) 20
  { ok := isFloat kf && isFloat (bits (w 1) 13 8) && w 7 == 0 && dimOk d && decide (1 ≤ nb) &&
      decide (nb ≤ 4096) && bits (w 1) 31 21 == 0 && bits (w 1) 15 14 == 0 && bits (w 1) 7 6 == 0 &&
      hiHalf (w 6) == 0 && (rope || loHalf (w 6) == 0)
    tables := [(loHalf (w 5), 4 * h * d), (hiHalf (w 5), 4 * nb)] ++ if rope then [(loHalf (w 6), 2 * d)] else []
    addrs := [w 3], ws := fmtWidth kf / 8, size := h * min nb 192 * (16 + 4 * d) }

/-- The plan of a command by its kind. -/
def planOf (kind : Nat) (p : List Byte) : PalpPlan :=
  match kind with
  | 0 => planSel false p
  | 1 => planSel true p
  | 2 => planScore p
  | 3 => planAssign p
  | _ => planAttn p

/-- Palp commands in flight on a core (R310). -/
def State.palpsOn (s : State) (core : Nat) : Nat :=
  (s.palps.filter fun p => s.coreOf (s.wave p.2.wave) == core).length

/-- A palp command at issue: readiness (R294, R310), the checks of R292, the operands fixed (R291). -/
def State.startPalp (s : State) (kind : Nat) (e : PalpOps) (act : List Nat) : Eff :=
  let r := s.scratchPast
  let k := s.iss.wave
  let b := s.cur.block
  let lane := act.headD 0
  let tok := e.t.toNat
  let pb := e.pb.toNat
  let rb := e.rb.toNat
  if s.copies.any (fun p => p.2.wave == k && p.2.token == tok) ||
      s.palps.any (fun p => p.2.wave == k && p.2.token == tok) then .wait s .score
  else if 256 ≤ s.palpsOn (s.coreOf s.cur) then .wait s .limit
  else
    let u := s.ru act e.u.toNat
    let cw := s.readUnif lane (e.u.toNat + 1)
    let c := cw.toNat
    let rg := bit c 62
    let base := 128 * bits c 47 32
    let rofs := 128 * bits c 31 16
    let size := s.scratchSize b pb
    if bits c 55 48 != 0 || bits c 15 0 != 0 ||
        (if bit c 63 then decide ((s.declared s.cur).bar ≤ bits c 61 56) else bits c 61 56 != 0) ||
        (rg && (rofs != 0 || rb != 0)) then .trap causeNear cw lane
    else if size < base + 64 then .trap causeBounds (scratchPtr pb base) lane
    else
      let read (off n : Nat) : List Byte := leBytes n (r.scratchRead b pb off n)
      let par := read base 64
      let q := planOf kind par
      let raddr := word64 par 4
      if !q.ok || (!rg && raddr != 0) then .trap causeNear (scratchPtr pb base) lane
      else match q.tables.find? fun x => x.1 % 4 != 0 || decide (size < x.1 + x.2) with
        | some x => .trap causeBounds (scratchPtr pb x.1) lane
        | none =>
          match ([u] ++ q.addrs ++ if rg then [raddr] else []).find? fun a => bits a 63 56 != 0 with
          | some a => .trap causeCanonical (BitVec.ofNat 64 a) lane
          | none =>
            if u % q.ws != 0 then .trap causeAlign (BitVec.ofNat 64 u) lane
            else if rg && raddr % 16 != 0 then .trap causeAlign (BitVec.ofNat 64 raddr) lane
            else if !rg && decide (s.scratchSize b rb < rofs + q.size) then
              .trap causeBounds (scratchPtr rb rofs) lane
            else
              let bad := (((base, 64) :: q.tables).flatMap fun x => r.badScratchKeys b pb x.1 x.2).eraseDups
              let op := s.nextOp
              let p : PalpOp := { PalpOp.absent with
                wave := k, block := b, pc := s.iss.pc, lanes := act, kind := kind, name := e.u.toNat, addr := u, ctl := cw
                par := par ++ q.tables.flatMap fun x => read x.1 x.2
                buf := rb, token := tok, order := op, bad := bad, told := s.cur.known }
              .done (({ s with nextOp := op + 1 }.setPalp op p).flyToken act tok .palp op)

/-- A palp command (R291, R292): only on a core. -/
def State.palpEff (s : State) (kind : Nat) (e : PalpOps) (act : List Nat) : Eff :=
  s.onCore act fun _ => s.startPalp kind e act

/-- NMSEL (R297). -/
def execNmsel (e : PalpOps) (s : State) : Host.Outcome State Fault Refusal :=
  .next (s.issue (.nmsel e) fun s act => s.palpEff 0 e act)

/-- NMTOPK (R298). -/
def execNmtopk (e : PalpOps) (s : State) : Host.Outcome State Fault Refusal :=
  .next (s.issue (.nmtopk e) fun s act => s.palpEff 1 e act)

/-- NMSCORE (R300). -/
def execNmscore (e : PalpOps) (s : State) : Host.Outcome State Fault Refusal :=
  .next (s.issue (.nmscore e) fun s act => s.palpEff 2 e act)

/-- NMASSIGN (R302). -/
def execNmassign (e : PalpOps) (s : State) : Host.Outcome State Fault Refusal :=
  .next (s.issue (.nmassign e) fun s act => s.palpEff 3 e act)

/-- NMATTN (R306). -/
def execNmattn (e : PalpOps) (s : State) : Host.Outcome State Fault Refusal :=
  .next (s.issue (.nmattn e) fun s act => s.palpEff 4 e act)

/-! ## Memory as a palp unit reads it (R243, R288, R295) -/

/-- Why a part cannot go on: a translation fault, or an error that stops the command. -/
inductive PalpStop where
  | fault (va : Nat)
  | err (e : Nat)
  deriving DecidableEq, Repr

/-- A byte of home memory: the latest write published at .DEV or .SYS scope; `own`: the unit's own table
writes too (R303). DESIGN CHOICE (log 76): a publication that does not happen before the issue is taken in too, once it is
made (R243). -/
def State.palpByte (s : State) (own : Bool) (pa : Nat) : Byte :=
  if s.bad.contains (pa / 8 * 8) then 0
  else
    let n := s.published 2 pa
    s.byteAt pa (if own then max n (s.pubNear.get 0 pa) else n)

/-- The translation of a palp unit's access for wave `k`, by the second-level TLB of the wave's cluster (R295). -/
def State.nearTouch (s : State) (k : Nat) (write : Bool) (va : Nat) : Touch :=
  let w := s.wave k
  match s.leafFor2 (s.ctxOf w) (s.clusterOf w) (s.rootOf w) va with
  | none => .fault va
  | some leaf => match s.allowed w (if write then .store else .load) va leaf with
    | .ok pa leaf => .ok pa leaf
    | _ => .denied

/-- That TLB keeps the translation (R212). -/
def State.nearTouched (s : State) (k va : Nat) : State :=
  let w := s.wave k
  if 2 ^ 56 ≤ va then s
  else match s.leafFor2 (s.ctxOf w) (s.clusterOf w) (s.rootOf w) va with
    | some leaf => s.fill2 (s.ctxOf w) (s.clusterOf w) va leaf
    | none => s

/-- Where `n` bytes at `va` lie: within one near page, which the access may use, and which the executive has not
refused. The domain comes with the physical address and the leaf. -/
def State.palpTouch (s : State) (p : PalpOp) (write : Bool) (va n : Nat) : Except PalpStop (Nat × Nat × Nat) :=
  if 2 ^ 56 ≤ va then .error (.err 1)
  else match p.refused.find? fun r => r.1 == va / 2 ^ 16 with
  | some r => .error (.err r.2)
  | none => match s.nearTouch p.wave write va with
    | .fault a => .error (.fault a)
    | .invalid => .error (.err 1)
    | .denied => .error (.err 2)
    | .ok pa leaf =>
      let sz := pageLog (bits leaf 15 14)
      if !leafNear leaf || va / 2 ^ sz != (va + n - 1) / 2 ^ sz then .error (.err 3)
      else .ok (pa, leaf, (domainOf pa).getD 0)

/-! ## Progress (R295) -/

/-- The reads of a command, but for a cluster table, in data order: the address and the length of each element, vector,
key block or value block. -/
def PalpOp.items (p : PalpOp) : List (Nat × Nat) :=
  let w := word64 p.par
  let hi := hiHalf (w 0)
  let lo := loHalf (w 0)
  let ws := fmtWidth (bits (w 1) 5 0) / 8
  match p.kind with
  | 2 => (List.range lo).map fun j => (p.addr + word32 p.par (64 + 4 * hi + 4 * j) * w 2, hi * ws)
  | 3 => [(p.addr + lo * w 2, 16 * hi * ws)]
  | 4 =>
    let h := bits (w 1) 19 16 + 1
    let bs := (List.range lo).map fun j => word32 p.par (64 + 4 * hi * h + 4 * j)
    (bs.filter fun b => decide (16 * b < hiHalf (w 1))).flatMap fun b =>
      [(p.addr + b * w 2, 16 * hi * ws), (w 3 + b * w 2, 16 * hi * (fmtWidth (bits (w 1) 13 8) / 8))]
  | _ => (List.range lo).map fun x => (p.addr + x * ws, ws)

/-- A listed block of NMATTN holds a position beyond 2^32 − 1 (R306). -/
def PalpOp.tooFar (p : PalpOp) : Bool :=
  let w := word64 p.par
  p.kind == 4 && (List.range (loHalf (w 0))).any fun j =>
    decide (2 ^ 32 ≤ 16 * word32 p.par (64 + 4 * hiHalf (w 0) * (bits (w 1) 19 16 + 1) + 4 * j) + 15)

/-- Read number `i` is made where it can be: its domain and bytes, and the marked words among them. -/
def State.palpItem (s : State) (p : PalpOp) (i va n : Nat) : State × PalpOp :=
  if p.got.has i then (s, p)
  else match s.palpTouch p false va n with
    | .error _ => (s, p)
    | .ok (pa, _, d) => (s.nearTouched p.wave va, { p with
        got := p.got.put i (d, (List.range n).map fun j => s.palpByte false (pa + j))
        bad := joinKnown p.bad (s.badWords pa n) })

/-- What stands against read number `i`: its translation, or a value block in another domain than its keys. -/
def State.palpBar (s : State) (p : PalpOp) (i va n : Nat) : Option PalpStop :=
  if p.got.has i then
    if p.kind == 4 && i % 2 == 1 && (p.got.get (0, []) (i - 1)).1 != (p.got.get (0, []) i).1 && p.got.has (i - 1) then
      some (.err 3)
    else none
  else match s.palpTouch p false va n with
    | .error e => some e
    | .ok _ => none

/-- Accesses of command `k`: they may hit watchpoints (R390). -/
def State.palpHits (s : State) (k : Nat) (p : PalpOp) (rs : List Span) : State × PalpOp :=
  if s.watching p.wave then
    let h := s.hitUnit (.palp k) p.wave p.pc p.lanes p.hits rs
    (h.1, { p with hits := h.2 })
  else (s, p)

/-- A command's parts read what they can, and nothing twice. -/
def State.palpReads (s : State) (k : Nat) (p : PalpOp) : State × PalpOp :=
  let r := p.items.zipIdx.foldl (fun r x => r.1.palpItem r.2 x.2 x.1.1 x.1.2) (s, p)
  r.1.palpHits k r.2 ((p.items.zipIdx.filter fun x => r.2.got.has x.2 && !p.got.has x.2).map fun x => ⟨x.1.1, x.1.2, false⟩)

/-- What stops a command's reads, in data order. -/
def State.palpBars (s : State) (p : PalpOp) : List PalpStop :=
  if p.tooFar then [.err 4] else p.items.zipIdx.filterMap fun x => s.palpBar p x.2 x.1.1 x.1.2

/-- The bytes that read number `i` gave. -/
def PalpOp.data (p : PalpOp) (i : Nat) : List Byte := (p.got.get (0, []) i).2

/-! ## Values -/

/-- Element `i` of a byte string in a format. -/
def elemAt (bs : List Byte) (ws i : Nat) : Nat := ofLe ((bs.drop (i * ws)).take ws)

/-- The FP32 pattern of an element: every accepted format converts exactly. -/
def toFp32 (fmt x : Nat) : Nat := if fmt == 0 then x else (cvtFloat (fmtOf fmt) fp32 0 false x).1

/-- a < b, with −0 = +0; false for a NaN. -/
def palpLt (a b : FVal) : Bool := !a.isNan && !b.isNan && a.below b && !(a.isZero && b.isZero)

/-- The score of a query against a vector, FP32 patterns (R299). -/
def score (qs ks : List Nat) : Nat :=
  let ps := (qs.zip ks).map fun p => (fp32.decode p.1, fp32.decode p.2)
  if ps.any fun p => p.1.isNan || p.2.isNan || mulInvalid p.1 p.2 then 0x7FC00000
  else
    let vs := ps.map fun p => mulVal p.1 p.2
    let infs := vs.filter FVal.isInf
    match infs with
    | i :: rest => if rest.all fun j => j.neg? == i.neg? then inf32 i.neg? else 0x7FC00000
    | [] =>
      (fp32.round 0 false (vs.all fun v => v.isZero && v.neg?) (vs.foldl (fun a v => a.add v.val) ⟨0, 0⟩)).1

/-- X2 of R305: what the program exp2w stores for an input. -/
def x2 (x : Nat) : Nat :=
  let c := (fmin (fmax x 0xC3200000).1 0x43200000).1
  let n := (frint 0 c).1
  let f := (fsub 0 c n).1
  let e := (fexp2f 0 f).1
  (fldexp 0 e (wrap 32 (cvtToInt fp32 32 false 0 false n).1)).1

/-- Items by descending value; equal values keep their order, which is by ascending index (R298). -/
def ranked (vs : List (FVal × Nat × Nat)) : List (FVal × Nat × Nat) :=
  (vs.filter fun v => !v.1.isNan).foldl (fun acc v =>
    insertBy (fun a b => palpLt b.1 a.1 || (!palpLt a.1 b.1 && decide (a.2.1 < b.2.1))) v acc) []

/-- The result lists of R296: indices, then values. -/
def listWrites (cap ws : Nat) (hits : List (Nat × Nat)) : List (Nat × List Byte) :=
  hits.zipIdx.map (fun h => (4 * h.2, leBytes 4 h.1.1)) ++
    hits.zipIdx.map fun h => (16 * ((4 * cap + 15) / 16) + h.2 * ws, leBytes ws h.1.2)

/-- What a finished command gives: COUNT, the result bytes by offset in the result area, and writes to a cluster
table. -/
structure PalpDone where
  count  : Nat
  writes : List (Nat × List Byte)
  table  : List (Nat × Nat × List Byte)
  deriving DecidableEq, Repr

/-! ## Selection and scores (R297-R300) -/

/-- Qualification under OP of R297. -/
def qualifies (op : Nat) (lo hi v : FVal) : Bool :=
  !v.isNan && !lo.isNan && !hi.isNan &&
    match op with
    | 0 => palpLt v lo
    | 1 => !palpLt lo v
    | 2 => palpLt lo v
    | 3 => !palpLt v lo
    | 4 => !palpLt v lo && !palpLt lo v
    | 5 => palpLt v lo || palpLt lo v
    | _ => !palpLt v lo && !palpLt hi v

/-- NMSEL and NMTOPK (R297, R298). -/
def PalpOp.runSel (p : PalpOp) : PalpDone :=
  let w := word64 p.par
  let cap := hiHalf (w 0)
  let fmt := bits (w 1) 5 0
  let ws := fmtWidth fmt / 8
  let vs := (List.range (loHalf (w 0))).map fun x => let e := ofLe (p.data x); (matValue fmt e, x, e)
  if p.kind == 1 then
    let hits := ((ranked vs).take cap).map Prod.snd
    { count := hits.length, writes := listWrites cap ws hits, table := [] }
  else
    let qs := vs.filter fun v => qualifies (bits (w 1) 15 8) (matValue fmt (w 2)) (matValue fmt (w 3)) v.1
    { count := qs.length, writes := listWrites cap ws ((qs.take cap).map Prod.snd), table := [] }

/-- NMSCORE (R300). -/
def PalpOp.runScore (p : PalpOp) : PalpDone :=
  let w := word64 p.par
  let d := hiHalf (w 0)
  let nv := loHalf (w 0)
  let k := bits (w 1) 31 16
  let fmt := bits (w 1) 5 0
  let ws := fmtWidth fmt / 8
  let q := (List.range d).map fun i => word32 p.par (64 + 4 * i)
  let sc := (List.range nv).map fun j =>
    (score q ((List.range d).map fun i => toFp32 fmt (elemAt (p.data j) ws i)), word32 p.par (64 + 4 * d + 4 * j))
  if k == 0 then
    { count := nv, writes := sc.zipIdx.map fun x => (4 * x.2, leBytes 4 x.1.1), table := [] }
  else
    let hits := ((ranked (sc.map fun x => (fp32.decode x.1, x.2, x.1))).take k).map Prod.snd
    { count := hits.length, writes := listWrites k 4 hits, table := [] }

/-! ## Clustering (R301-R303) -/

/-- An exact value rounded to FP32 after division by `n`; a NaN is the default NaN. -/
def roundQuot (v : FVal) (n : Nat) (zneg : Bool) : Nat :=
  match v with
  | .nan _ _ _ => 0x7FC00000
  | .inf s => inf32 s
  | .fin s d =>
    if d.m == 0 then fp32.pack zneg 0
    else if 0 ≤ d.e then (fp32.roundRat 0 false s (d.m.natAbs * 2 ^ d.e.toNat) n).1
    else (fp32.roundRat 0 false s d.m.natAbs (n * 2 ^ (-d.e).toNat)).1

/-- a − b, exact. -/
def epiSub (a b : FVal) : FVal := epiAdd a b.negate

/-- Distance of two vectors (R302). -/
def distance (mu cen : List Nat) : FVal :=
  (mu.zip cen).foldl (fun a p =>
    let e := epiSub (fp32.decode p.1) (fp32.decode p.2)
    epiAdd a (epiMul e e)) (.fin false ⟨0, 0⟩)

/-- The nearest centroid: least distance, ties to the lower; a NaN ranks after every number. -/
def nearest (ds : List FVal) : Nat × FVal :=
  ds.zipIdx.foldl (fun (best : Nat × FVal) d =>
    if !d.1.isNan && (best.2.isNan || palpLt d.1 best.2) then (d.2, d.1) else best)
    (0, ds.headD (.fin false ⟨0, 0⟩))

/-- A table word as its unit holds it. -/
def State.tableWord (s : State) (pa : Nat) : Nat :=
  ofLe ((List.range 4).map fun i => s.palpByte true (pa + i))

/-- A cluster table's header (R301): NC, LCAP, and where the counts and the lists begin. -/
structure TableHead where
  nc   : Nat
  lcap : Nat
  cnt  : Nat
  lst  : Nat
  deriving DecidableEq, Repr

/-- The header at an address, for vectors of `d` elements; none where it breaks the rules. -/
def State.tableHead (s : State) (pa d : Nat) : Option TableHead :=
  let nc := s.tableWord pa
  let cnt := 64 + 4 * d * nc
  if nc == 0 || 1024 < nc || s.tableWord (pa + 4) != d ||
      (List.range 13).any (fun i => s.tableWord (pa + 12 + 4 * i) != 0) then none
  else some ⟨nc, s.tableWord (pa + 8), cnt, cnt + 64 * ((4 * nc + 63) / 64)⟩

/-- The mean of a key block's rows. -/
def PalpOp.mean (p : PalpOp) : List Nat :=
  let w := word64 p.par
  let d := hiHalf (w 0)
  let fmt := bits (w 1) 5 0
  (List.range d).map fun i =>
    let es := (List.range 16).map fun t => fp32.decode (toFp32 fmt (elemAt (p.data 0) (fmtWidth fmt / 8) (t * d + i)))
    roundQuot (es.foldl epiAdd (.fin false ⟨0, 0⟩)) 16 (es.all fun e => e.isZero && e.neg?)

/-- The centroid that a mean is nearest to, and its distance. -/
def State.nearestIn (s : State) (pa d nc : Nat) (mu : List Nat) : Nat × FVal :=
  nearest ((List.range nc).map fun c => distance mu ((List.range d).map fun i => s.tableWord (pa + 64 + 4 * d * c + 4 * i)))

/-- What NMASSIGN reads of its table (R390): the header, the centroids, and the count of the one that it picks. -/
def State.assignSpans (s : State) (p : PalpOp) : List Span :=
  let d := hiHalf (word64 p.par 0)
  let ta := word64 p.par 3
  if ta % 64 != 0 then []
  else match s.palpTouch p false ta 64 with
    | .error _ => []
    | .ok (pa, _, _) => ⟨ta, 64, false⟩ :: match s.tableHead pa d with
      | none => []
      | some h => match s.palpTouch p false ta (h.lst + 4 * h.lcap * h.nc), s.palpTouch p true ta 64 with
        | .ok _, .ok _ =>
          [⟨ta + 64, 4 * d * h.nc, false⟩, ⟨ta + h.cnt + 4 * (s.nearestIn pa d h.nc p.mean).1, 4, false⟩]
        | _, _ => []

/-- NMASSIGN (R302) on its table, as one step: the marked words read, and what it gives. -/
def State.runAssign (s : State) (p : PalpOp) : List Nat × Except PalpStop PalpDone :=
  let w := word64 p.par
  let d := hiHalf (w 0)
  let ta := w 3
  if ta % 64 != 0 then ([], .error (.err 3))
  else match s.palpTouch p false ta 64 with
  | .error e => ([], .error e)
  | .ok (pa, leaf, _) =>
    match s.tableHead pa d with
    | none => (s.badWords pa 64, .error (.err 3))
    | some h =>
      match s.palpTouch p false ta (h.lst + 4 * h.lcap * h.nc), s.palpTouch p true ta 64 with
      | .error e, _ | _, .error e => (s.badWords pa 64, .error e)
      | .ok _, .ok _ =>
        let mu := p.mean
        let cen (c : Nat) : List Nat := (List.range d).map fun i => s.tableWord (pa + 64 + 4 * d * c + 4 * i)
        let best := s.nearestIn pa d h.nc mu
        let c := best.1
        let n := s.tableWord (pa + h.cnt + 4 * c)
        let bad := joinKnown (s.badWords pa h.cnt) (s.badWords (pa + h.cnt + 4 * c) 4)
        if h.lcap ≤ n then (bad, .error (.err 5))
        else
          let upd := ((mu.zip (cen c)).zipIdx).map fun x =>
            let m := fp32.decode x.1.1
            let v := fp32.decode x.1.2
            let e := epiSub m v
            let r := match e with
              | .fin _ _ => roundQuot (epiAdd (epiMul v (.fin false ⟨n, 0⟩)) m) (n + 1) false
              | e => roundQuot (epiAdd v e) 1 false
            (pa + 64 + 4 * d * c + 4 * x.2, leaf, leBytes 4 r)
          (bad, .ok
            { count := 1
              writes := [(0, leBytes 4 c ++ leBytes 4 (n + 1) ++ leBytes 4 (roundQuot best.2 1 false) ++ leBytes 4 0)]
              table := [(pa + h.lst + 4 * h.lcap * c + 4 * n, leaf, leBytes 4 (loHalf (w 0))),
                (pa + h.cnt + 4 * c, leaf, leBytes 4 (n + 1))] ++ upd })

/-! ## Attention (R304-R307) -/

/-- A token of S: the key and value rows as FP32. -/
abbrev AttnTok := List Nat × List Nat

/-- One head over the tokens of one domain: m, l, o (R306). -/
def attend (q : List Nat) (d : Nat) (ts : List AttnTok) : Nat × Nat × List Nat :=
  let ss := ts.map fun t => score q t.1
  if ss.any fun x => (fp32.decode x).isNan || x == 0x7F800000 then
    (0x7FC00000, 0x7FC00000, List.replicate d 0x7FC00000)
  else
    let m := ss.foldl (fun a x => (fmax a x).1) 0xFF800000
    if m == 0xFF800000 then (m, 0, List.replicate d 0)
    else
      (ss.zip ts).foldl (fun (r : Nat × Nat × List Nat) t =>
        let w := x2 (fsub 0 t.1 m).1
        (m, (fadd 0 r.2.1 w).1, (t.2.2.zip r.2.2).map fun p => (ffma 0 w p.1 p.2).1)) (m, 0, List.replicate d 0)

/-- A key row rotated by its position (R306, R132). -/
def rotate (ws : List Nat) (pos : Nat) (k : List Nat) : List Nat :=
  (List.range ws.length).flatMap fun i =>
    let r := (frope 0 (k.getD (2 * i) 0 + 2 ^ 32 * k.getD (2 * i + 1) 0) pos (ws.getD i 0)).1
    [r % 2 ^ 32, r / 2 ^ 32]

/-- NMATTN (R306, R307). -/
def PalpOp.runAttn (p : PalpOp) : PalpDone :=
  let w := word64 p.par
  let d := hiHalf (w 0)
  let nb := loHalf (w 0)
  let len := hiHalf (w 1)
  let rope := bit (w 1) 20
  let h := bits (w 1) 19 16 + 1
  let vf := bits (w 1) 13 8
  let kf := bits (w 1) 5 0
  let kw := fmtWidth kf / 8
  let vw := fmtWidth vf / 8
  let q (x : Nat) : List Nat := (List.range d).map fun i => word32 p.par (64 + 4 * d * x + 4 * i)
  let bs := (List.range nb).map fun j => word32 p.par (64 + 4 * d * h + 4 * j)
  let ws := (List.range (d / 2)).map fun i => word32 p.par (64 + 4 * d * h + 4 * nb + 4 * i)
  let blocks := ((bs.filter fun b => decide (16 * b < len)).zipIdx).map fun x =>
    let b := x.1
    let ts := ((List.range 16).filter fun t => decide (16 * b + t < len)).map fun t =>
      let k := (List.range d).map fun i => toFp32 kf (elemAt (p.data (2 * x.2)) kw (t * d + i))
      let v := (List.range d).map fun i => toFp32 vf (elemAt (p.data (2 * x.2 + 1)) vw (t * d + i))
      ((if rope then rotate ws (16 * b + t) k else k, v) : AttnTok)
    ((p.got.get (0, []) (2 * x.2)).1, ts)
  let doms := (List.range 192).filter fun n => blocks.any fun x => x.1 == n
  let j := doms.length
  let recb := 16 + 4 * d
  let recs := (List.range h).flatMap fun x => doms.zipIdx.map fun n =>
    let ts := (blocks.filter fun y => y.1 == n.1).flatMap fun y => y.2
    let r := attend (q x) d ts
    ((x * j + n.2) * recb, (r.1 :: r.2.1 :: n.1 :: ts.length :: r.2.2).flatMap (leBytes 4))
  { count := j, writes := recs, table := [] }

/-! ## The end of a command (R293-R295) -/

/-- What a command computes once its reads are made, by its kind, with the marked words of a table. -/
def State.runPalp (s : State) (p : PalpOp) : List Nat × Except PalpStop PalpDone :=
  match p.kind with
  | 2 => ([], .ok p.runScore)
  | 3 => s.runAssign p
  | 4 => ([], .ok p.runAttn)
  | _ => ([], .ok p.runSel)

/-- Where the result bytes go when they go to global memory: each with its physical address and leaf. -/
def State.palpPlaces (s : State) (p : PalpOp) (ws : List (Nat × List Byte)) :
    Except PalpStop (List (Nat × Nat × List Byte)) :=
  if !bit p.ctl.toNat 62 then .ok []
  else (ws.flatMap fun w => ((List.range w.2.length).filter fun i => i % 4 == 0).map fun i =>
    (w.1 + i, (w.2.drop i).take 4)).mapM fun w => do
      let (pa, leaf, _) ← s.palpTouch p true (word64 p.par 4 + w.1) 1
      return (pa, leaf, w.2)

/-- The command ends: token, arrival. -/
def State.endPalp (s : State) (k : Nat) (p : PalpOp) (st err count : Nat) (ws : Tab Nat) : State :=
  let s := { (s.seeWrites p.block ws) with palps := s.palps.del k }
  let v := BitVec.ofNat 64 (st * 2 ^ 62 + min 255 p.bad.length * 2 ^ 48 + err * 2 ^ 40 + count % 2 ^ 32)
  (s.writeToken p.wave .palp k p.token v).engineArrive p.block p.ctl ws p.told

/-- Writes at home for wave `k`, in order. -/
def State.palpWrites (s : State) (k : Nat) (ws : List (Nat × Nat × List Byte)) : State × Tab Nat :=
  ws.foldl (fun r w =>
    let x := r.1.engineWrite k w.1 w.2.1 w.2.2
    (x.1, mergeView r.2 x.2)) (s, [])

/-- A cluster table's writes: its unit sees them from now on (R303). -/
def State.tableWrites (s : State) (k : Nat) (ws : List (Nat × Nat × List Byte)) : State × Tab Nat :=
  let r := s.palpWrites k ws
  ({ r.1 with pubNear := mergeView r.1.pubNear r.2 }, r.2)

/-- Where an NMASSIGN's table lies; none where no translation says so. -/
def State.tableAt (s : State) (p : PalpOp) : Option Nat :=
  match s.palpTouch p false (word64 p.par 3) 64 with
  | .ok (pa, _, _) => some pa
  | .error _ => none

/-- An earlier NMASSIGN of the core on the same table is not performed (R303): they are performed in issue order. -/
def State.assignWaits (s : State) (p : PalpOp) : Bool :=
  p.kind == 3 && s.palps.any fun x => x.2.kind == 3 && decide (x.2.order < p.order) &&
    s.coreOf (s.wave x.2.wave) == s.coreOf (s.wave p.wave) &&
    (word64 x.2.par 3 == word64 p.par 3 || ((s.tableAt x.2).isSome && s.tableAt x.2 == s.tableAt p))

/-- What a command writes (R390): the words of a cluster table, and its results. -/
def State.palpSpans (s : State) (p : PalpOp) (r : PalpDone) : List Span :=
  let base := if bit p.ctl.toNat 62 then word64 p.par 4 else (scratchPtr p.buf (128 * bits p.ctl.toNat 31 16)).toNat
  let pa := (s.tableAt p).getD 0
  (r.table.map fun w => (⟨word64 p.par 3 + (w.1 - pa), w.2.2.length, true⟩ : Span)) ++
    r.writes.map fun w => (⟨base + w.1, w.2.length, true⟩ : Span)

/-- The results of a finished command are written, those to global memory at `places`, and it ends. Marked words that its
writes write whole together lose their marks (R333). -/
def State.commitPalp (s : State) (k : Nat) (p : PalpOp) (r : PalpDone) (places : List (Nat × Nat × List Byte)) : State :=
  let (s, p) := s.palpHits k p (s.palpSpans p r)
  let t := s.tableWrites p.wave r.table
  let here (w : Nat × Nat × List Byte) : Nat × Nat := (w.1, w.2.2.length)
  if bit p.ctl.toNat 62 then
    let g := t.1.palpWrites p.wave places
    (g.1.unmarkAll ((r.table ++ places).map here)).endPalp k p 0 0 r.count (mergeView t.2 g.2)
  else
    let base := 128 * bits p.ctl.toNat 31 16
    (((r.writes.foldl (fun s w => s.writeScratch p.block p.buf (base + w.1) w.2 none) t.1).unmarkScratchAll p.block p.buf
      (r.writes.map fun w => (base + w.1, w.2.length))).unmarkAll (r.table.map here)).endPalp k p 0 0 r.count t.2

/-- A command waits for pages: each takes a fault-buffer entry of the issuing core while there is one (R213, R295). -/
def State.holdPalp (s : State) (k : Nat) (p : PalpOp) (vas : List Nat) : State :=
  let pages := (vas.map fun va => va / 2 ^ 16 * 2 ^ 16).eraseDups
  let s := (pages.filter fun va => !p.parked.contains va).foldl (fun s va => s.awaitPage p.wave va) s
  s.setPalp k { p with
    parked := pages
    held := min pages.length (256 - { s with palps := s.palps.del k }.faultEntries (s.coreOf (s.wave p.wave))) }

/-- What stops a command: an error that comes first in data order ends it, else its faulting parts are held. -/
def State.stopPalp (s : State) (k : Nat) (p : PalpOp) (bars : List PalpStop) : State :=
  match bars.head? with
  | some (.err e) => s.endPalp k p 2 e 0 []
  | _ => s.holdPalp k p (bars.filterMap fun b => match b with
      | .fault va => some va
      | .err _ => none)

/-- A command whose reads are made computes, and its results, its token and its arrival follow (R294). -/
def State.closePalp (s : State) (k : Nat) (p : PalpOp) : State :=
  let s := if p.kind == 3 then s.nearTouched p.wave (word64 p.par 3) else s
  let (s, p) := if p.kind == 3 then s.palpHits k p (s.assignSpans p) else (s, p)
  let x := s.runPalp p
  let p := { p with bad := joinKnown p.bad x.1 }
  match x.2 with
  | .error e => s.stopPalp k p [e]
  | .ok r => match s.palpPlaces p r.writes with
    | .error e => s.stopPalp k p [e]
    | .ok places =>
      let near := if bit p.ctl.toNat 62 then r.writes.map fun w => word64 p.par 4 + w.1 else []
      (near.foldl (fun s va => s.nearTouched p.wave va) s).commitPalp k p r places

/-- The parts of a command run (R294, R295): they read their data and nothing twice; what stops them holds or ends the
command; otherwise it closes. -/
def State.finishPalp (s : State) (k : Nat) : State :=
  let p := s.palp k
  if !s.palps.has k || !p.parked.isEmpty || s.assignWaits p then s
  else
    let (s, p) := if p.tooFar then (s, p) else s.palpReads k p
    match s.palpBars p with
    | [] => s.closePalp k p
    | bars => s.stopPalp k p bars

/-- PALP_COMPLETION (R294). -/
def execPalpCompletion (k : Nat) (s : State) : Host.Outcome State Fault Refusal := .next (s.finishPalp k)

/-- A page that a command waits for is mapped, or refused (R295). -/
def State.palpFreed (s : State) (p : PalpOp) (va : Nat) : Bool :=
  match s.palpTouch p false va 1 with
  | .error (.fault _) => false
  | _ => true

/-- PALP_PART_RESUME (R295): the parts whose pages are mapped go on from where they stood. -/
def execPalpPartResume (k : Nat) (s : State) : Host.Outcome State Fault Refusal :=
  .next (
    let p := s.palp k
    if !p.parked.any fun va => s.palpFreed p va && s.resumesNow (s.coreOf (s.wave p.wave)) p.wave (p.held != 0) va then s
    else
      let (s, p) := s.palpReads k p
      match s.palpBars p with
      | [] => s.setPalp k { p with parked := [], held := 0 }
      | bars => s.stopPalp k p bars)

/-! ## TMERGE (R308, R309) -/

/-- O / L of R309. -/
def quotient (o l : Nat) : Nat :=
  let x := fp32.decode o
  let y := fp32.decode l
  let neg := x.neg? != y.neg?
  if x.isNan || y.isNan || y.isZero || (x.isInf && y.isInf) then 0x7FC00000
  else if x.isInf then inf32 neg
  else if y.isInf || x.isZero then fp32.pack neg 0
  else
    let a := match x with | .fin _ d => d | _ => ⟨0, 0⟩
    let b := match y with | .fin _ d => d | _ => ⟨1, 0⟩
    let e := a.e - b.e
    (if 0 ≤ e then fp32.roundRat 0 false neg (a.m.natAbs * 2 ^ e.toNat) b.m.natAbs
     else fp32.roundRat 0 false neg a.m.natAbs (b.m.natAbs * 2 ^ (-e).toNat)).1

/-- One head's records merged: M, L, O. A record is (m, l, tokens, o). -/
def mergeHead (d : Nat) (rs : List (Nat × Nat × Nat × List Nat)) : Nat × Nat × List Nat :=
  let nan (x : Nat) : Bool := (fp32.decode x).isNan
  let m := rs.foldl (fun a r => (fmax a r.1).1) 0xFF800000
  if rs.any (fun r => nan r.1 || nan r.2.1 || r.2.2.2.any nan) || m == 0x7F800000 then
    (0x7FC00000, 0x7FC00000, List.replicate d 0x7FC00000)
  else
    rs.foldl (fun (a : Nat × Nat × List Nat) r =>
      let f := if r.1 == 0xFF800000 then 0 else x2 (fsub 0 r.1 m).1
      (m, (ffma 0 f r.2.1 a.2.1).1, (r.2.2.2.zip a.2.2).map fun p => (ffma 0 f p.1 p.2).1))
      (m, 0, List.replicate d 0)

/-- TMERGE at issue (R309). -/
def State.merge (s : State) (o : Ops) (act : List Nat) : Eff :=
  let lane := act.headD 0
  let b := s.cur.block
  let dst := o.dst.toNat
  let src := o.s0.toNat
  let cw := s.readUnif lane o.s1.toNat
  let c := cw.toNat
  let j := bits c 31 24
  let h := bits c 23 20 + 1
  let d := 16 * (bits c 19 16 + 1)
  let norm := bit c 0
  let recb := 16 + 4 * d
  let sb := 128 * bits c 47 32
  let db := 128 * bits c 63 48
  if bits c 15 1 != 0 || 192 < j then .trap causeNear cw lane
  else if s.scratchSize b src < sb + h * j * recb then .trap causeBounds (scratchPtr src sb) lane
  else if s.scratchSize b dst < db + h * (if norm then 4 * d else recb) then
    .trap causeBounds (scratchPtr dst db) lane
  else
    let word (x n i : Nat) : Nat := s.scratchPast.scratchRead b src (sb + (x * j + n) * recb + 4 * i) 4
    let out := (List.range h).map fun x =>
      let rs := (List.range j).map fun n =>
        (word x n 0, word x n 1, word x n 3, (List.range d).map fun i => word x n (4 + i))
      let r := mergeHead d rs
      if norm then (db + 4 * d * x, (r.2.2.map fun y => quotient y r.2.1).flatMap (leBytes 4))
      else (db + recb * x, (r.1 :: r.2.1 :: 0xFFFFFFFF :: (rs.map fun r => r.2.2.1).sum :: r.2.2).flatMap (leBytes 4))
    .done (((out.foldl (fun s w => (s.writeScratch b dst w.1 w.2 none).unmarkScratch b dst w.1 w.2.length) s).access1
      s.iss.wave 3 dst).watchUnit s.iss.wave act
      [⟨(scratchPtr src sb).toNat, h * j * recb, false⟩,
       ⟨(scratchPtr dst db).toNat, h * (if norm then 4 * d else recb), true⟩])

/-- TMERGE (R308, R309). -/
def execTmerge (o : Ops) (s : State) : Host.Outcome State Fault Refusal :=
  .next (s.issue (.tmerge o) fun s act => s.merge o act)

end Sys2Proof.Machine
end

