-- ==== Sys2Proof/Machine/Coll.lean ====
section
/-! DEFINITION. COLL and the collective unit (R366-R371). -/

namespace Sys2Proof.Machine

/-! ## The command (R366-R368) -/

/-- Fields of the control word (R367). -/
def collRop (c : Nat) : Nat := bits c 55 52
def collFmt (c : Nat) : Nat := bits c 49 44
def collDofs (c : Nat) : Nat := 128 * bits c 31 16
def collSofs (c : Nat) : Nat := 128 * bits c 15 0

/-- The formats COLL accepts. -/
def collFmtOk (f : Nat) : Bool := [0, 1, 2, 18, 19, 22, 23].contains f

/-- A control word obeys R367. -/
def collOk (d : Declared) (op c : Nat) : Bool :=
  !bit c 62 && bits c 51 50 == 0 && bits c 43 32 == 0 && collFmtOk (collFmt c) && decide (collRop c ≤ 2) &&
    (op != 1 || collRop c == 0) && (if bit c 63 then decide (bits c 61 56 < d.bar) else bits c 61 56 == 0)

/-- The communicator of a handle of which the block of wave `w` is this device's member. -/
def State.commOf (s : State) (w : Wave) (h : BitVec 64) : Option Comm :=
  let b := s.block w.block
  let g := s.gang b.gang
  s.comms.find? fun c => c.handle == h && c.launch == (s.launch g.launch).id && c.gang == g.index &&
    c.block == b.index && !w.priv

/-- Elements of the source and destination areas (R368). -/
def collSrcLen (op p n : Nat) : Nat := if op == 2 then p * n else n
def collDstLen (op p n : Nat) : Nat := if op == 1 then p * n else n

/-- COLLs in flight on a core (R371). -/
def State.collsOn (s : State) (core : Nat) : Nat :=
  (s.colls.filter fun p => s.coreOf (s.wave p.2.wave) == core).length

/-- COLL at issue (R366-R370): readiness, the checks of R368, its operands fixed. -/
def State.collEff (s : State) (e : CollOps) (act : List Nat) : Eff :=
  let k := s.iss.wave
  let b := s.cur.block
  let lane := act.headD 0
  let op := e.h.mod.toNat
  let h := s.readUnif lane e.cn.toNat
  let cw := s.readUnif lane (e.cn.toNat + 1)
  let c := cw.toNat
  let n := s.ru act (e.cn.toNat + 2)
  if 16 ≤ s.collsOn (s.coreOf s.cur) then .wait s .limit
  else if !collOk (s.declared s.cur) op c || n == 0 || 2 ^ 24 < n then .trap causeCtlValue cw lane
  else match s.commOf s.cur h with
    | none => .trap causeProtection h lane
    | some m =>
      let p := m.members.length
      let ws := fmtWidth (collFmt c) / 8
      if s.scratchSize b e.sb.toNat < collSofs c + collSrcLen op p n * ws then
        .trap causeBounds (scratchPtr e.sb.toNat (collSofs c)) lane
      else if s.scratchSize b e.db.toNat < collDofs c + collDstLen op p n * ws then
        .trap causeBounds (scratchPtr e.db.toNat (collDofs c)) lane
      else
        let x := s.nextOp
        let o : CollOp := { CollOp.absent with
          wave := k, block := b, pc := s.iss.pc, lanes := act, op := op, handle := h, ctl := cw, n := n
          dbuf := e.db.toNat, sbuf := e.sb.toNat, token := e.t.toNat, order := x, seq := m.issued
          stale := s.unfenced b e.sb.toNat none, told := s.cur.known }
        let g := (s.block b).gang
        let s := { s with
          nextOp := x + 1
          comms := s.comms.map fun (q : Comm) => if q == m then { q with issued := q.issued + 1 } else q }
        .done (((s.setGang g { s.gang g with coll := true }).setColl x o).flyToken act e.t.toNat .coll x)

/-- COLL. -/
def execColl (e : CollOps) (s : State) : Host.Outcome State Fault Refusal :=
  .next (s.issue (.coll e) fun s act => s.collEff e act)

/-! ## Capture and messages (R370) -/

/-- The member that issued a COLL: this device's, of its wave's block. -/
def State.memberOf (s : State) (o : CollOp) : Option Comm := s.commOf (s.wave o.wave) o.handle

/-- Another member of a COLL's communicator is on this device. -/
def State.shared (s : State) (o : CollOp) : Bool :=
  s.comms.any fun c => c.handle == o.handle && some c != s.memberOf o

/-- A collective message's bytes. DESIGN CHOICE (log 29): the handle, the member's rank and number, the command, the data. -/
def collBytes (handle rank seq : Nat) (cmd : CollCmd) : List Byte :=
  leBytes 8 handle ++ leBytes 4 rank ++ leBytes 4 seq ++
    leBytes 8 (cmd.n + cmd.op.toNat * 2 ^ 32 + cmd.rop * 2 ^ 40 + cmd.fmt.toNat * 2 ^ 48) ++ cmd.data

/-- The captured source reaches the other members: those of other devices in collective messages, one for each, those of
this device at once. -/
def State.announce (s : State) (k p rank : Nat) (bs : List Byte) : State :=
  let o := s.collOp k
  let c := o.ctl.toNat
  let cmd : CollCmd := ⟨BitVec.ofNat 2 o.op, collRop c, BitVec.ofNat 6 (collFmt c), o.n, bs⟩
  let s := if s.shared o then { s with collBox := s.collBox ++ [⟨o.handle.toNat, rank, o.seq, cmd, o.told⟩] } else s
  (List.range (p - (s.comms.filter fun q => q.handle == o.handle).length)).foldl (fun s i =>
    s.sendMsg (s.route (tagMisc (k * 256 + i))) 2 4 (collBytes o.handle.toNat rank o.seq cmd)) s

/-- Accesses of COLL `k` may hit watchpoints (R390). -/
def State.collHits (s : State) (o : CollOp) (k : Nat) (rs : List Span) : State × List Nat :=
  s.hitUnit (.coll k) o.wave o.pc o.lanes o.hits rs

/-- COLL_CAPTURE (R370): the source is read under R229, and goes to the other members. -/
def execCollCapture (k : Nat) (s : State) : Host.Outcome State Fault Refusal :=
  .next (
    let o := s.collOp k
    let m := s.memberOf o
    if !s.colls.has k || o.src.isSome then s
    else
      let p := (m.map fun c => c.members.length).getD 1
      let len := collSrcLen o.op p o.n * (fmtWidth (collFmt o.ctl.toNat) / 8)
      let off := collSofs o.ctl.toNat
      let bad := s.badScratch o.block o.sbuf off len
      let bs := (List.range len).map fun i => s.scratchEngine o.stale o.block o.sbuf (off + i)
      let h := s.collHits o k [⟨(scratchPtr o.sbuf off).toNat, len, false⟩]
      (h.1.setColl k { o with src := some bs, se := min 255 (o.se + bad.length), hits := h.2 }).announce k p
        ((m.map (·.rank)).getD 0) bs)

/-- A Ghedy link carries traffic: it is one of the 18 (R1), and does not train (R362). -/
def State.linkUp (s : State) (link : Nat) : Bool := decide (link < 18) && !(s.glink link).training

/-- The `n` flits of a message are accepted on a link: each is expected in turn, and the last is acknowledged, which
acknowledges all (R362). -/
def State.acceptMsg (s : State) (link n : Nat) : State :=
  let g := s.glink link
  s.setGlink link { g with
    expect := g.expect + BitVec.ofNat 8 n, dropping := false, control := some (controlFlit 1 (g.expect + BitVec.ofNat 8 n - 1)) }

/-- The publications of other devices by their releases, by the link that they came on: no block or gang has such a
number. -/
def farBlock (link : Nat) : Nat := 2 ^ 32 + link

/-- What a message of another device tells its readers: the releases that came before it, on the links `p` (R238). -/
def State.farTold (s : State) (p : Nat → Bool) : List Nat :=
  (s.pubs.filter fun x => decide (2 ^ 32 ≤ x.block) && p (x.block - 2 ^ 32)).map Pub.id

/-- COLLECTIVE_MESSAGE (R361, R370): another member's command arrives. -/
def execCollectiveMessage (link handle rank seq : Nat) (cmd : CollCmd) (s : State) :
    Host.Outcome State Fault Refusal :=
  .next (
    if !s.linkUp link then s
    else
      let s := s.acceptMsg link (flitsOf (24 + cmd.data.length))
      if s.collBox.any fun m => m.handle == handle && m.rank == rank && m.seq == seq then s
      else { s with collBox := s.collBox ++ [⟨handle, rank, seq, cmd, s.farTold fun _ => true⟩] })

/-! ## The combination (R369) -/

/-- R of R369 over the members' elements, ascending rank. -/
def combine (rop fmt : Nat) (xs : List Nat) : Nat :=
  if isInt fmt then
    let w := fmtWidth fmt
    let vs := xs.map fun x => intVal fmt x
    wrap w (match rop with
      | 0 => vs.foldl (· + ·) 0
      | 1 => vs.foldl min (vs.headD 0)
      | _ => vs.foldl max (vs.headD 0))
  else
    let f := fmtOf fmt
    let vs := xs.map fun x => (f.decode x, x)
    if vs.any fun v => v.1.isNan then f.nan
    else match rop with
      | 0 =>
        let infs := vs.filter fun v => v.1.isInf
        match infs with
        | i :: rest => if rest.all fun j => j.1.neg? == i.1.neg? then f.pack i.1.neg? f.infMag else f.nan
        | [] => (f.round 0 false (vs.all fun v => v.1.isZero && v.1.neg?)
            (vs.foldl (fun a v => a.add v.1.val) ⟨0, 0⟩)).1
      | 1 => (vs.foldl (fun a v => if v.1.below a.1 then v else a) (vs.headD (.fin false ⟨0, 0⟩, 0))).2
      | _ => (vs.foldl (fun a v => if a.1.below v.1 then v else a) (vs.headD (.fin false ⟨0, 0⟩, 0))).2

/-- The destination's elements, from the members' sources by rank. -/
def collResult (op rop fmt n rank : Nat) (srcs : List (List Byte)) : List Nat :=
  let ws := fmtWidth fmt / 8
  match op with
  | 0 => (List.range n).map fun i => combine rop fmt (srcs.map fun x => elemAt x ws i)
  | 1 => srcs.flatMap fun x => (List.range n).map fun i => elemAt x ws i
  | _ => (List.range n).map fun i => combine rop fmt (srcs.map fun x => elemAt x ws (rank * n + i))

/-! ## The end of a COLL (R370, R371) -/

/-- A member of this device other than that of a COLL has still to match the commands of the COLL's number. -/
def State.needed (s : State) (k : Nat) : Bool :=
  let o := s.collOp k
  s.comms.any fun c => c.handle == o.handle && some c != s.memberOf o &&
    (decide (c.issued ≤ o.seq) || s.colls.any fun p =>
      p.1 != k && p.2.handle == o.handle && p.2.seq == o.seq && s.memberOf p.2 == some c)

/-- What a COLL's completion tells (R370): the publications that happen before any member's issue. -/
def State.collTold (s : State) (o : CollOp) : List Nat :=
  (s.collBox.filter fun m => m.handle == o.handle.toNat && m.seq == o.seq).foldl (fun ns m => joinKnown ns m.told) o.told

/-- A COLL ends: token, arrival; its wave hears of what the other members published before their issue, and its arrival
tells of it (R238, R370). The messages it matched are used up once every member here has matched them. -/
def State.endColl (s : State) (k : Nat) (st err count : Nat) : State :=
  let o := s.collOp k
  let ns := s.collTold o
  let s := { s with
    colls := s.colls.del k
    collBox := if s.needed k then s.collBox
      else s.collBox.filter fun m => !(m.handle == o.handle.toNat && m.seq == o.seq) }
  ((s.hear o.wave ns).writeToken o.wave .coll k o.token
    (BitVec.ofNat 64 (st * 2 ^ 62 + o.se * 2 ^ 48 + err * 2 ^ 40 + count % 2 ^ 32))).engineArrive o.block o.ctl [] ns

/-- The other members' commands that match a COLL, by rank; none while one has not arrived. -/
def State.matched (s : State) (o : CollOp) (rank p : Nat) : Option (List CollMsg) :=
  ((List.range p).filter fun r => r != rank).mapM fun r =>
    s.collBox.find? fun m => m.handle == o.handle.toNat && m.rank == r && m.seq == o.seq

/-- COLL_COMPLETION (R369, R370): once its source is captured and every member has issued. Areas that overlap
leave undefined values in the destination (R368). -/
def execCollCompletion (k : Nat) (s : State) : Host.Outcome State Fault Refusal :=
  .next (
    let o := s.collOp k
    match s.memberOf o with
    | none => s
    | some m =>
      let p := m.members.length
      match s.colls.has k, o.src, s.matched o m.rank p with
      | true, some src, some ms =>
        let c := o.ctl.toNat
        let fmt := collFmt c
        let ws := fmtWidth fmt / 8
        if ms.any fun x => x.cmd.op.toNat != o.op || x.cmd.rop != collRop c || x.cmd.fmt.toNat != fmt ||
            x.cmd.n != o.n then s.endColl k 2 2 0
        else
          let srcs := (List.range p).map fun r =>
            if r == m.rank then src else ((ms.find? fun x => x.rank == r).map fun x => x.cmd.data).getD []
          let ys := collResult o.op (collRop c) fmt o.n m.rank srcs
          let s0 := collSofs c
          let d0 := collDofs c
          let overlap := o.dbuf == o.sbuf && decide (s0 < d0 + ys.length * ws) &&
            decide (d0 < s0 + collSrcLen o.op p o.n * ws)
          let t := if overlap then s.blurScratch o.block o.dbuf d0 (ys.length * ws)
            else s.writeScratch o.block o.dbuf d0 (ys.flatMap fun y => leBytes ws y) none
          let h := t.collHits o k [⟨(scratchPtr o.dbuf d0).toNat, ys.length * ws, true⟩]
          (h.1.unmarkScratch o.block o.dbuf d0 (ys.length * ws)).endColl k 0 0 ys.length
      | _, _, _ => s)

/-- COLL_MEMBER_UNREACHABLE (R370): a member whose command has not come has been unreachable for 2 ms, which the event
itself says. -/
def execCollMemberUnreachable (k : Nat) (s : State) : Host.Outcome State Fault Refusal :=
  .next (
    let o := s.collOp k
    let all := (s.memberOf o).any fun m => (s.matched o m.rank m.members.length).isSome
    if s.colls.has k && !all then s.endColl k 2 1 0 else s)

end Sys2Proof.Machine
end

