-- ==== Sys2Proof/Machine/Copy.lean ====
section
/-! DEFINITION. The copy engine (R244-R260). -/

namespace Sys2Proof.Machine

/-! ## Descriptors and layouts (R245-R249) -/

/-- Fields of a tile descriptor (R247). -/
def tdKind (e : List (BitVec 64)) : Nat := bits (schWord e 0) 7 0
def tdFmt (e : List (BitVec 64)) : Nat := bits (schWord e 0) 13 8
def tdPlain (e : List (BitVec 64)) : Bool := bit (schWord e 0) 16
def tdRows (e : List (BitVec 64)) : Nat := bits (schWord e 1) 31 0
def tdCols (e : List (BitVec 64)) : Nat := bits (schWord e 1) 63 32
def tdPlanes (e : List (BitVec 64)) : Nat := bits (schWord e 2) 31 0
def tdS0 (e : List (BitVec 64)) : Nat := schWord e 3
def tdS2 (e : List (BitVec 64)) : Nat := schWord e 4

/-- Bytes of an element of a format (R248). -/
def elemSize (fmt : Nat) : Nat := fmtWidth fmt / 8

/-- The scratch format of a control word (R245). -/
def scratchFmt (e : List (BitVec 64)) (ctl : BitVec 64) : Nat :=
  if bit ctl.toNat 62 then bits ctl.toNat 55 50 else tdFmt e

/-- Bytes of a row of the scratch image (R249). -/
def rowBytes (e : List (BitVec 64)) (ctl : BitVec 64) : Nat := tdCols e * elemSize (scratchFmt e ctl)

/-- A command is usable with an entry (R248): `gather` for CPYX. -/
def copyOk (d : Declared) (e : List (BitVec 64)) (ctl : BitVec 64) (gather : Bool) : Bool :=
  let c := ctl.toNat
  let fmt := tdFmt e
  let ws := elemSize fmt
  (if gather then tdKind e == 3 else tdKind e == 1 || tdKind e == 2) && (isFloat fmt || isInt fmt) &&
    bits (schWord e 0) 63 17 == 0 && bits (schWord e 0) 15 14 == 0 &&
    (List.range 3).all (fun i => schWord e (5 + i) == 0) && bits c 49 48 == 0 &&
    (bit c 63 || bits c 61 56 == 0) && (bit c 62 || bits c 55 50 == 0) && (gather || bits c 31 0 == 0) &&
    decide (1 ≤ tdRows e) && decide (1 ≤ tdCols e) && decide (1 ≤ tdPlanes e) &&
    (tdKind e == 2 || tdPlanes e == 1) && tdS0 e % ws == 0 && tdS2 e % ws == 0 &&
    (tdKind e != 1 || tdS2 e == 0) && (!bit c 62 || (isFloat fmt && isFloat (bits c 55 50))) &&
    (tdPlain e || rowBytes e ctl % 16 == 0) && (!bit c 63 || decide (bits c 61 56 < d.bar))

/-! ## Issue (R246, R252) -/

/-- A copy command with these operands: it waits for a place or for its token, makes the checks of R252, and
starts. -/
def State.startCopy (s : State) (kind : Nat) (e : CopyOps) (act : List Nat) : Eff :=
  let k := s.iss.wave
  let lane := act.headD 0
  let b := s.cur.block
  if 1024 ≤ s.copiesOn (s.coreOf s.cur) then .wait s .limit
  else if s.copies.any fun p => p.2.wave == k && p.2.token == e.tok.toNat then .wait s .score
  else
    let a := s.ru act e.g.toNat
    let ctl := if kind == 1 || e.h.mod == 1#3 then s.readUnif lane (e.g.toNat + 1) else 0
    let rt := (s.kernelOf s.cur).res.getD e.rt.toNat []
    let idx := if kind == 1 then act.map fun l => (l, s.rd 32 l e.idx.toNat) else []
    let base := 128 * bits ctl.toNat 47 32
    let rows := if kind == 1 then act.length * tdRows rt else tdPlanes rt * tdRows rt
    if !copyOk (s.declared s.cur) rt ctl (kind == 1) then .trap causeCopy (BitVec.ofNat 64 e.rt.toNat) lane
    else if bits a 63 56 != 0 then .trap causeCanonical (BitVec.ofNat 64 a) lane
    else if a % elemSize (tdFmt rt) != 0 then .trap causeAlign (BitVec.ofNat 64 a) lane
    else if s.scratchSize b e.buf.toNat < base + rows * rowBytes rt ctl then
      .trap causeBounds (scratchPtr e.buf.toNat base) lane
    else
      let op := s.nextOp
      let c : CopyOp := { CopyOp.absent with
        wave := k, block := b, pc := s.iss.pc, lanes := act, kind := kind, addr := a, ctl := ctl, entry := rt
        buf := e.buf.toNat, idx := idx, token := e.tok.toNat, order := op, told := s.cur.known
        stale := if kind == 2 then s.unfenced b e.buf.toNat none else [] }
      .done (({ s with nextOp := op + 1 }.setCopy op c).flyToken act e.tok.toNat .copy op)

/-- CPY (R253). -/
def execCpy (e : CopyOps) (s : State) : Host.Outcome State Fault Refusal :=
  .next (s.issue (.cpy e) fun s act => s.startCopy 0 e act)

/-- CPYX (R255). -/
def execCpyx (e : CopyOps) (s : State) : Host.Outcome State Fault Refusal :=
  .next (s.issue (.cpyx e) fun s act => s.onCore act fun _ => s.startCopy 1 e act)

/-- CPYO (R254). -/
def execCpyo (e : CopyOps) (s : State) : Host.Outcome State Fault Refusal :=
  .next (s.issue (.cpyo e) fun s act => s.startCopy 2 e act)

/-! ## Movement (R253-R255, R257) -/

/-- Rows of a copy's image. -/
def CopyOp.total (c : CopyOp) : Nat :=
  if c.kind == 1 then c.idx.length * tdRows c.entry else tdPlanes c.entry * tdRows c.entry

/-- The global address of row `q`, exact (R258); none for a gathered index at or above LIMIT. -/
def CopyOp.rowAddr (c : CopyOp) (q : Nat) : Option Nat :=
  let r := max (tdRows c.entry) 1
  if c.kind == 1 then
    let i := ((c.idx[q / r]?).map Prod.snd).getD 0
    if bits c.ctl.toNat 31 0 ≤ i then none
    else some (c.addr + i * tdS2 c.entry + q % r * tdS0 c.entry)
  else some (c.addr + q / r * tdS2 c.entry + q % r * tdS0 c.entry)

/-- Convert an element between the global and the scratch format (R79 in RN, R78). -/
def convElem (src dst x : Nat) : Nat × Flags :=
  if src == dst then (x, 0) else cvtFloat (fmtOf src) (fmtOf dst) 0 false x

/-- What moving a row gives. -/
inductive RowEnd where
  | ok (s : State) (c : CopyOp)
  | fault (va : Nat)
  | refused (err va : Nat)
  /-- No route to this device remains (R365). -/
  | lost (dev : Nat)

/-- Note an element's conversion flags and the marked words that it met, each word once (R250). -/
def CopyOp.noteElem (c : CopyOp) (fl : Flags) (bad : List Nat) : CopyOp :=
  { c with
    xv := c.xv || fl &&& (flagNV ||| flagOF) != 0
    xi := c.xi || fl &&& (flagNX ||| flagUF) != 0
    bad := joinKnown c.bad bad }

/-- One element of a row, between `va` and the scratch image. -/
def State.copyElem (s : State) (c : CopyOp) (q x va : Nat) : RowEnd :=
  let fmt := tdFmt c.entry
  let sf := scratchFmt c.entry c.ctl
  let wd := elemSize sf
  let off := 128 * bits c.ctl.toNat 47 32 + imageOff (tdPlain c.entry) (rowBytes c.entry c.ctl) wd q x
  match s.engineTouch c.wave (c.kind == 2) va with
  | .fault a => .fault a
  | .invalid => .refused 1 va
  | .denied => .refused 2 va
  | .ok pa leaf =>
    let s := s.touched c.wave va
    if c.kind == 2 then
      let v := ofLe ((List.range wd).map fun i => s.scratchEngine c.stale c.block c.buf (off + i))
      let r := convElem sf fmt v
      let bad := s.badScratchKeys c.block c.buf off wd
      let w := s.engineWrite c.wave pa leaf (leBytes (elemSize fmt) r.1)
      .ok w.1 { c.noteElem r.2 bad with writes := mergeView c.writes w.2 }
    else
      match s.engineRead c.gone c.wave pa leaf (elemSize fmt) with
      | .error d => .lost d
      | .ok v =>
        let r := convElem fmt sf v.1
        .ok (s.writeScratch c.block c.buf off (leBytes wd r.1) none) (c.noteElem r.2 v.2)

/-- One row of a copy. DESIGN CHOICE (log 77): elements of a row of CPYO go in ascending columns, rows in ascending order, so
that of those which overlap the last in that order stands (R254). -/
def State.copyRow (s : State) (c : CopyOp) (q : Nat) : RowEnd :=
  let wd := elemSize (scratchFmt c.entry c.ctl)
  let whole (s : State) : State := if c.kind == 2 then s else
    s.unmarkScratch c.block c.buf (128 * bits c.ctl.toNat 47 32 + q * rowBytes c.entry c.ctl)
      (rowBytes c.entry c.ctl)
  match c.rowAddr q with
  | none =>
    .ok (whole <| (List.range (tdCols c.entry)).foldl (fun s x =>
      s.writeScratch c.block c.buf (128 * bits c.ctl.toNat 47 32 +
        imageOff (tdPlain c.entry) (rowBytes c.entry c.ctl) wd q x) (leBytes wd 0) none) s) c
  | some a =>
    match (List.range (tdCols c.entry)).foldl (fun (r : RowEnd) x =>
      match r with
      | .ok s c => s.copyElem c q x (a + x * elemSize (tdFmt c.entry))
      | r => r) (RowEnd.ok s c) with
    | .ok s c => .ok (whole s) c
    | r => r

/-- Rows `q` on, `n` of them: where the movement stops, F rows stand written in full. -/
def State.copyRows (s : State) (c : CopyOp) (q : Nat) : Nat → State × CopyOp × Option RowEnd
  | 0 => (s, { c with rows := q }, none)
  | n + 1 =>
    match s.copyRow c q with
    | .ok s c => s.copyRows c (q + 1) n
    | r => (s, { c with rows := q }, some r)

/-- What moving row `q` accesses, in order (R390). -/
def CopyOp.spans (c : CopyOp) (q : Nat) : List Span :=
  let out := c.kind == 2
  let n := rowBytes c.entry c.ctl
  let img : Span := ⟨(scratchPtr c.buf (128 * bits c.ctl.toNat 47 32 + q * n)).toNat, n, !out⟩
  match c.rowAddr q with
  | some a =>
    let far : Span := ⟨a, tdCols c.entry * elemSize (tdFmt c.entry), out⟩
    if out then [img, far] else [far, img]
  | none => [img]

/-- Copy `k` has moved rows, from those that stood written before: what they accessed may hit watchpoints. -/
def State.moved (s : State) (k before : Nat) (c : CopyOp) : State × CopyOp :=
  if s.watching c.wave then
    let r := s.hitUnit (.copy k) c.wave c.pc c.lanes c.hits ((List.range (c.rows - before)).flatMap fun i => c.spans (before + i))
    (r.1, { c with hits := r.2 })
  else (s, c)

/-! ## The end of a copy (R250, R251, R256, R258) -/

/-- The token word of a copy that ends with `m` rows written (R250). -/
def CopyOp.tokenWord (c : CopyOp) (st err m : Nat) : BitVec 64 :=
  let oob := if c.kind == 1 then (c.idx.filter fun p => decide (bits c.ctl.toNat 31 0 ≤ p.2)).length else 0
  let bytes := if c.kind == 2 then m * tdCols c.entry * elemSize (tdFmt c.entry)
    else m * rowBytes c.entry c.ctl
  BitVec.ofNat 64 (st * 2 ^ 62 + c.xv.toNat * 2 ^ 57 + c.xi.toNat * 2 ^ 56 + oob * 2 ^ 48 + min 255 c.bad.length * 2 ^ 40 +
    err * 2 ^ 32 + bytes % 2 ^ 32)

/-- A copy ends: its writes are in the views of the block's waves, its token is written and it arrives at its
barrier. -/
def State.endCopy (s : State) (op : Nat) (c : CopyOp) (st err m : Nat) : State :=
  let s := { (s.seeWrites c.block c.writes) with copies := s.copies.del op }
  (s.writeToken c.wave .copy op c.token (c.tokenWord st err m)).engineArrive c.block c.ctl c.writes c.told

/-- CPYC (R256): the wave's copy with this token is cancelled; its token stays pending until it ends. One that waits for a
page stops at once. -/
def execCpyc (e : CopyOps) (s : State) : Host.Outcome State Fault Refusal :=
  .next (s.issue (.cpyc e) fun s act => .done
    (match s.copies.find? fun p => p.2.wave == s.iss.wave && p.2.token == e.tok.toNat with
     | some (op, c) =>
       let t := (s.setCopy op { c with cancel := true }).flyToken act e.tok.toNat .copy op
       if c.parked.isSome then t.endCopy op c 1 0 c.rows else t
     | none => s))

/-- A copy waits for a page, with a fault-buffer entry where the core has one (R257). -/
def State.holdCopy (s : State) (k : Nat) (c : CopyOp) (va : Nat) : State :=
  (s.awaitPage c.wave va).setCopy k { c with parked := some va, held := s.entryFree (s.coreOf (s.wave c.wave)) }

/-- Where the movement of a copy's rows up to `m` ends: it is over, or what stops it. -/
def State.settleCopy (s : State) (k m : Nat) (c : CopyOp) (stop : Option RowEnd) : State :=
  match stop with
  | none => s.endCopy k c (if m < c.total then 1 else 0) 0 m
  | some (.refused err va) => (s.touched c.wave va).endCopy k c 2 err c.rows
  | some (.fault va) => if c.cancel then s.endCopy k c 1 0 c.rows else s.holdCopy k c va
  | some (.lost d) => if c.cancel then s.endCopy k c 1 0 c.rows else s.setCopy k { c with away := some (d, s.time) }
  | some (.ok _ _) => s.setCopy k c

/-- COPY_COMPLETION (R251): the copy moves its rows from F on; it holds on a translation fault, stops on a
refused page, or ends. A cancelled copy ends after some row it has begun (R256). Where no route to a device remains, it
waits for 2 ms and then gives the device up (R365). -/
def execCopyCompletion (k : Nat) (s : State) : Host.Outcome State Fault Refusal :=
  .next (
    let c := s.copy k
    if !s.copies.has k || c.parked.isSome || !(c.cancel || s.gaveUp c.away) then s
    else
      let s := match c.away with
        | some d => if c.cancel then s else s.loseDevice c.wave d.1
        | none => s
      let c := { c with away := none, gone := (c.away.map Prod.fst).toList ++ c.gone }
      let m := if c.cancel then c.rows + s.choose (tagMisc k) (c.total - c.rows + 1) else c.total
      let r := s.copyRows c c.rows (m - c.rows)
      let t := r.1.moved k c.rows r.2.1
      t.1.settleCopy k m t.2 r.2.2)

/-- COPY_FAULT_RESUME (R257): once the page is mapped, the copy resumes at row F. -/
def execCopyFaultResume (k : Nat) (s : State) : Host.Outcome State Fault Refusal :=
  .next (
    let c := s.copy k
    match c.parked with
    | some va =>
      if s.pageReady c.wave (c.kind == 2) va && s.resumesNow (s.coreOf (s.wave c.wave)) c.wave c.held va then
        s.setCopy k { c with parked := none, held := false }
      else s
    | none => s)

/-- COPY_REFUSAL (R258): the executive refuses the page that a copy waits for. -/
def execCopyRefusal (k : Nat) (prot : Bool) (s : State) : Host.Outcome State Fault Refusal :=
  .next (
    let c := s.copy k
    if s.copies.has k && c.parked.isSome then s.endCopy k c 2 (if prot then 2 else 1) c.rows else s)

end Sys2Proof.Machine
end

