-- ==== Sys2Proof/Machine/Links.lean ====
section
/-! DEFINITION. Ghedy links and the load-store domain (R361-R365). -/

namespace Sys2Proof.Machine

/-! ## Link control (R361, R362) -/

/-- A flit's CRC is right. -/
def flitOk (f : BitVec 256) : Bool := bits f.toNat 255 240 == flitCrc f.toNat

/-- A link keeps a flit of this SEQ. -/
def GLink.keeps (g : GLink) (seq : BitVec 8) : Bool := g.replay.any fun f => flitSeq f == seq

/-- ACKNOWLEDGE (R362): every flit up to the SEQ is released, and waiting ones are sent. A link that trains carries none. -/
def execAcknowledge (link : Nat) (seq : BitVec 8) (s : State) : Host.Outcome State Fault Refusal :=
  .next (
    let g := s.glink link
    if g.keeps seq && s.linkUp link then
      let rest := (g.replay.dropWhile fun f => flitSeq f != seq).drop 1
      s.setGlink link (GLink.pump { g with replay := rest, replays := 0 } 128)
    else s)

/-- REPLAY_REQUEST (R362): the unacknowledged flits are sent again from the SEQ, which acknowledges those
before it; a flit replayed 16 times in a row makes the link retrain. -/
def execReplayRequest (link : Nat) (seq : BitVec 8) (s : State) : Host.Outcome State Fault Refusal :=
  .next (
    let g := s.glink link
    if g.keeps seq && s.linkUp link then
      let rest := g.replay.dropWhile fun f => flitSeq f != seq
      let again := (g.replay.head?.map flitSeq) == some seq
      s.setGlink link { g with replay := rest, replays := if again then g.replays + 1 else 1 }
    else s)

/-- LINK_RETRAIN (R362): after 16 consecutive replays of one flit; the link carries nothing in the meantime, and the
messages of which it has sent nothing take other links. -/
def execLinkRetrain (link : Nat) (s : State) : Host.Outcome State Fault Refusal :=
  .next (
    let g := s.glink link
    if 16 ≤ g.replays then
      let t := s.setGlink link { g with training := true, replays := 0, backlog := g.backlog.filter (·.begun) }
      (g.backlog.filter fun m => !m.begun).zipIdx.foldl (fun t m =>
        t.sendMsg (t.route (tagMisc m.2)) m.1.vc m.1.kind m.1.bytes) t
    else s)

/-- LINK_RETRAINED (R362): it carries traffic again. -/
def execLinkRetrained (link : Nat) (s : State) : Host.Outcome State Fault Refusal :=
  .next (
    let g := s.glink link
    if g.training then s.setGlink link (GLink.pump { g with training := false } 128) else s)

/-- FLIT_CRC_FAILURE (R362): a flit that fails its CRC, or a sequenced one that carries another SEQ, is discarded with
every later flit, and the expected SEQ is requested again. -/
def execFlitCrcFailure (link : Nat) (flit : BitVec 256) (s : State) : Host.Outcome State Fault Refusal :=
  .next (
    let g := s.glink link
    let bad := !flitOk flit || (bits flit.toNat 231 230 != 3 && flitSeq flit != g.expect)
    if bad && s.linkUp link then s.setGlink link { g with dropping := true, control := some (controlFlit 2 g.expect) }
    else s)

/-! ## Remote accesses (R363-R365) -/

/-- The result of a remote access reaches its lane, and the windows that wait for it (R44); after the last of an atomic
that acquires, the acquire follows (R225). -/
def State.arriveRemote (s : State) (id : Nat) (r : Remote) (v : BitVec 64) : State :=
  let s := { s with remotes := s.remotes.del id }
  let mine (f : Flight) : Bool := f.remote == some id
  let s := match (s.wave r.wave).flights.find? mine with
    | some f =>
      (s.onWave r.wave fun w => { w with flights := w.flights.filter fun x => !mine x }).land r.wave
        { f with vals := f.vals.map fun (p : Nat × BitVec 64) => (p.1, v) }
    | none => s
  let s := s.onWave r.wave fun w => w.fillWindows (2 * id) v
  match r.acq with
  | some scope => if s.acquiring r.wave then s else s.acquire r.wave scope
  | none => s

/-- The link on which a response comes: that of the request, or another where it trains (R362). -/
def State.backLink (s : State) (id : Nat) (r : Remote) : Nat :=
  if s.linkUp r.link then r.link else s.route (tagMisc id)

/-- REMOTE_RESPONSE (R363): a load's or atomic's value, or a store's acknowledgement. -/
def execRemoteResponse (id : Nat) (data : BitVec 64) (s : State) : Host.Outcome State Fault Refusal :=
  .next (match s.remotes.find? fun p => p.1 == id with
    | some (_, r) =>
      let link := s.backLink id r
      if !s.linkUp link then s
      else (s.acceptMsg link 1).arriveRemote id r (loaded r.size r.sign (data.toNat % 2 ^ (8 * r.size)))
    | none => s)

/-- REMOTE_ACCESS_TIMEOUT (R365): 2 ms after its issue, an access to a device to which no route remains, which the event
says (log 29), ends: a load or atomic returns zero, counted as a soft error; nothing is written; the executive is
notified. -/
def execRemoteAccessTimeout (id : Nat) (s : State) : Host.Outcome State Fault Refusal :=
  .next (match s.remotes.find? fun p => p.1 == id with
    | some (_, r) =>
      if s.time < r.since + remoteLimit then s
      else
        let store := match r.ask with
          | .store _ => true
          | _ => false
        let s := if store || (s.wave r.wave).retired then s else s.noteErrs r.wave 4 0 r.name 1
        (s.loseDevice r.wave r.dev).arriveRemote id r 0
    | none => s)

/-- A write by another device, performed here: its release publishes it (R237). -/
def State.remoteWrite (s : State) (pa : Nat) (bs : List Byte) : State :=
  let n := s.stamp
  let s := ((s.pushBytes pa bs).unmark pa bs.length).overtake pa bs.length
  { s with pubRem := (List.range bs.length).foldl (fun v i => v.put (pa + i) n) s.pubRem }

/-- A byte as another device's load reads it: the latest write published at .SYS scope or made by another
device. -/
def State.farByte (s : State) (pa : Nat) : Byte :=
  if s.bad.contains (pa / 8 * 8) then 0 else s.byteAt pa (max (s.published 3 pa) (s.pubRem.get 0 pa))

/-- Another device's release publishes its writes (R237): toward this device as on pages with non-atomic propagation
(R364). -/
def State.farRelease (s : State) (link : Nat) : State :=
  if s.pubRem.isEmpty then s
  else { s with pubs := s.pubs ++ [⟨s.pubs.length, 3, farBlock link, farBlock link, s.pubRem⟩], pubRem := [] }

/-- A request of another device, performed at its home here: the state and the data answered. -/
def State.serveRemote (s : State) (link : Nat) (msg : RemoteMsg) : State × Nat × BitVec 64 :=
  match msg with
  | .load id lpa size =>
    (s, id, BitVec.ofNat 64 (ofLe ((List.range size).map fun i => s.farByte (bits lpa 38 0 + i))))
  | .store id lpa data => (s.remoteWrite (bits lpa 38 0) data, id, 0)
  | .atomic id lpa op wide uns b c =>
    let n := if wide then 64 else 32
    let pa := bits lpa 38 0
    let old := ofLe ((List.range (n / 8)).map fun i => if s.bad.contains ((pa + i) / 8 * 8) then 0 else s.mem.get (pa + i))
    (match atomicOp op n uns old (b.toNat % 2 ^ n) (c.toNat % 2 ^ n) with
     | some v =>
       let t := s.remoteWrite pa (leBytes (n / 8) v)
       let ns := s.farTold (· == link)
       if ns.isEmpty then t else { t with carry := t.carry.put s.stamp ns }
     | none => s, id, BitVec.ofNat 64 old)
  | .release id => (s.farRelease link, id, 0)

/-- Bytes of another device's request, laid out as this device's are (log 29). -/
def requestSize : RemoteMsg → Nat
  | .store _ _ data => 12 + data.length
  | .atomic _ _ _ _ _ _ _ => 28
  | _ => 12

/-- REMOTE_REQUEST (R363): the request is accepted, performed and answered on the link. -/
def execRemoteRequest (link : Nat) (msg : RemoteMsg) (s : State) : Host.Outcome State Fault Refusal :=
  .next (
    if !s.linkUp link then s
    else
      let r := (s.acceptMsg link (flitsOf (requestSize msg))).serveRemote link msg
      let t := r.1.sendMsg link 1 3 (leBytes 4 r.2.1 ++ leBytes 8 r.2.2.toNat)
      t.setGlink link { t.glink link with answer := some (r.2.1, r.2.2) })

end Sys2Proof.Machine
end

