-- ==== Sys2Proof/Machine/WaveOps.lean ====
section
/-! DEFINITION. Wave operations, PART, ACTM and transfer slots (R155-R171). -/

namespace Sys2Proof.Machine

/-! ## Members (R155-R158) -/

/-- The first lane of a lane's tile. -/
def tileOf (part l : Nat) : Nat := l / part * part

/-- The tile width of the issuing wave, as an instruction reads it (R155). DEDUCED (log 54): a chained member that follows
a write of CR.PART in its cycle reads the new value. -/
def State.part (s : State) : Nat := (s.regs [.w, .y]).part

/-- Whether lane `j` is a member for lane `l` under a mask (R156). -/
def State.member (s : State) (mask l j : Nat) : Bool :=
  tileOf s.part l == tileOf s.part j && decide (j < s.cur.width) && bit mask j

/-- A wave operation (R157, R158): its lane set waits for members that are elsewhere; then an active lane that
its own mask leaves out traps; else `f mask`. -/
def State.waveOp (s : State) (act : List Nat) (name : Nat) (f : Nat → Eff) : Eff :=
  let m := s.ru act name
  if s.seen.present.any fun j => !s.issuing.contains j && act.any fun l => s.member m l j then
    .wait s (.members (BitVec.ofNat 64 m))
  else match act.find? fun l => !bit m l with
    | some l => .trap causeSelf (BitVec.ofNat 64 l) l
    | none => f m

/-- The members of `l` that take part with a value: those active here. -/
def State.takers (s : State) (act : List Nat) (m l : Nat) : List Nat := act.filter fun j => s.member m l j

/-- VOTE (R161). -/
def State.voteEff (s : State) (o : Ops) (act : List Nat) : Eff :=
  s.waveOp act o.s1.toNat fun m =>
    let w := s.cur
    let yes (l : Nat) := (s.takers act m l).filter fun j => (w.lane j).pred (bits o.s2.toNat 2 0)
    match bits o.mod.toNat 1 0 with
    | 0 => s.pushEff act fun l => !(yes l).isEmpty
    | 1 => s.pushEff act fun l => yes l == s.takers act m l
    | 2 => s.pushEff act fun l => (yes l).isEmpty || yes l == s.takers act m l
    | _ => s.laneEff o.dst.toNat act fun l => (maskOf (yes l)).toNat

/-- VOTE. -/
def execVote (o : Ops) (s : State) : Host.Outcome State Fault Refusal :=
  .next (s.issue (.vote o) fun s act => s.voteEff o act)

/-- The source lane of SHFL (R162): none for the lane itself, off the tile. -/
def shflSource (mode part l b : Nat) : Option Nat :=
  let t0 := l / part * part
  let o := b % 128
  let inTile (j : Nat) := if t0 ≤ j && decide (j < t0 + part) then some j else none
  match mode with
  | 0 => some (t0 + o % part)
  | 1 => if o ≤ l then inTile (l - o) else none
  | 2 => inTile (l + o)
  | _ => some (t0 + ((l - t0) ^^^ (o % part)))

/-- SHFL (R162): modifier bit 2 selects 64-bit transfer. -/
def State.shflEff (s : State) (o : Ops) (act : List Nat) : Eff :=
  s.waveOp act o.s1.toNat fun m =>
    let n := widthOf o
    s.laneEff o.dst.toNat act fun l =>
      match shflSource (bits o.mod.toNat 1 0) s.part l (s.rd n l o.s2.toNat) with
      | none => s.rd n l o.s0.toNat
      | some j => if (s.takers act m l).contains j then s.rd n j o.s0.toNat else 0

/-- SHFL. -/
def execShfl (o : Ops) (s : State) : Host.Outcome State Fault Refusal :=
  .next (s.issue (.shfl o) fun s act => s.shflEff o act)

/-! ## Reductions and scans (R163-R165) -/

/-- The identity of an operation, as a pattern. -/
def redIdentity (op n : Nat) (u : Bool) : Nat :=
  match op with
  | 0 => 0
  | 1 => if u then 2 ^ n - 1 else 2 ^ (n - 1) - 1
  | 2 => if u then 0 else 2 ^ (n - 1)
  | 3 => 2 ^ n - 1
  | 4 => 0
  | 5 => 0
  | 6 => 0x80000000
  | 7 => 0x7F800000
  | _ => 0xFF800000

/-- Integer operations form their results exactly and fit once (R164). -/
def redInt (op n : Nat) (u sat : Bool) (vs : List Nat) : Nat :=
  match op with
  | 0 => fit n u sat (vs.foldl (fun (t : Int) v => t + valOf n u v) 0)
  | 1 => vs.foldl (minI n u) (redIdentity 1 n u)
  | 2 => vs.foldl (maxI n u) (redIdentity 2 n u)
  | 3 => vs.foldl (· &&& ·) (redIdentity 3 n u)
  | 4 => vs.foldl (· ||| ·) 0
  | _ => vs.foldl (· ^^^ ·) 0

/-- x ⊕ y of R164 with the flags so far. -/
def redFloat (op : Nat) (x y : Nat × Flags) : Nat × Flags :=
  let r := match op with
    | 6 => fadd 0 x.1 y.1
    | 7 => fmin x.1 y.1
    | _ => fmax x.1 y.1
  (r.1, x.2 ||| y.2 ||| r.2)

/-- One level of the pairwise tree. -/
def redPairs (op : Nat) : List (Nat × Flags) → List (Nat × Flags)
  | x :: y :: t => redFloat op x y :: redPairs op t
  | t => t

/-- The pairwise tree over tile positions. -/
def redTree (op : Nat) : Nat → List (Nat × Flags) → Nat × Flags
  | 0, vs => vs.headD (0, 0)
  | n + 1, vs => if vs.length ≤ 1 then vs.headD (0, 0) else redTree op n (redPairs op vs)

/-- The values at the positions of a lane's tile: identities where a lane takes no part. -/
def State.tileVals (s : State) (o : Ops) (act : List Nat) (m l op n : Nat) : List Nat :=
  let ts := s.takers act m l
  (List.range s.part).map fun i =>
    let j := tileOf s.part l + i
    if ts.contains j then s.rd n j o.s0.toNat else redIdentity op n (unsOf o)

/-- A result of WRED or WSCAN over these positions. -/
def redResult (op n : Nat) (u sat scan : Bool) (vs : List Nat) : Nat × Flags :=
  if op ≤ 5 then (redInt op n u sat vs, 0)
  else
    let ps := vs.map fun v => (v, (0 : Flags))
    if scan then (match ps with | [] => (redIdentity op n u, 0) | p :: t => t.foldl (redFloat op) p)
    else redTree op 6 ps

/-- WRED (R163, R164). -/
def State.wredEff (s : State) (o : Ops) (act : List Nat) : Eff :=
  s.waveOp act o.s1.toNat fun m =>
    let op := bits o.s2.toNat 3 0
    let n := widthOf o
    s.floatEff o.dst.toNat act fun l =>
      redResult op n (unsOf o) (satOf o) false (s.tileVals o act m l op n)

/-- WRED. -/
def execWred (o : Ops) (s : State) : Host.Outcome State Fault Refusal :=
  .next (s.issue (.wred o) fun s act => s.wredEff o act)

/-- WSCAN (R163, R164): SRC2 bit 4 makes it exclusive. -/
def State.wscanEff (s : State) (o : Ops) (act : List Nat) : Eff :=
  s.waveOp act o.s1.toNat fun m =>
    let op := bits o.s2.toNat 3 0
    let n := widthOf o
    s.floatEff o.dst.toNat act fun l =>
      let i := l - tileOf s.part l
      let vs := (s.tileVals o act m l op n).take (if bit o.s2.toNat 4 then i else i + 1)
      if vs.isEmpty then (redIdentity op n (unsOf o), 0)
      else redResult op n (unsOf o) (satOf o) true vs

/-- WSCAN. -/
def execWscan (o : Ops) (s : State) : Host.Outcome State Fault Refusal :=
  .next (s.issue (.wscan o) fun s act => s.wscanEff o act)

/-! ## PART and ACTM (R166, R167) -/

/-- A partition tile width that a wave accepts (R32, R166). -/
def partOk (width t : Nat) : Bool := decide (t ≤ width) && (t == width || [2, 4, 8, 16].contains t)

/-- PART (R166). -/
def execPart (o : Ops) (s : State) : Host.Outcome State Fault Refusal :=
  .next (s.issue (.part o) fun s act =>
    if partOk s.cur.width o.s2.toNat then .done (s.onWave s.iss.wave fun w => { w with part := o.s2.toNat })
    else .trap causeCtlValue (BitVec.ofNat 64 o.s2.toNat) (act.headD 0))

/-- ACTM (R167): the active lanes, or with `.LIVE` every lane that has not exited. DEDUCED (log 71): R150 does not name exit
status among the shared state; it is read as it stood before the cycle, as the shared state is. -/
def execActm (o : Ops) (s : State) : Host.Outcome State Fault Refusal :=
  .next (s.issue (.actm o) fun s act =>
    s.laneEff o.dst.toNat act fun _ => (maskOf (if bit o.mod.toNat 0 then s.seen.live else act)).toNat)

/-! ## Transfer slots (R168-R171) -/

/-- XMOV.S (R169): not ready while the slot is full. -/
def State.xmovSEff (s : State) (o : Ops) (act : List Nat) : Eff :=
  let b := s.cur.block
  let slot := o.s2.toNat
  if (s.block b).slots.has slot then .wait s (.xmov true slot)
  else
    let n := widthOf o
    .done (s.setBlock b { s.block b with
      slots := (s.block b).slots.put slot
        ⟨n, act.map fun l => (l, BitVec.ofNat 64 (s.rd n l o.s0.toNat))⟩ })

/-- XMOV.S. -/
def execXmovS (o : Ops) (s : State) : Host.Outcome State Fault Refusal :=
  .next (s.issue (.xmovS o) fun s act => s.xmovSEff o act)

/-- XMOV.R (R169): not ready while the slot is empty; it empties the slot, and its values arrive later. -/
def State.xmovREff (s : State) (o : Ops) (act : List Nat) : Eff :=
  let b := s.cur.block
  let slot := o.s2.toNat
  if !(s.block b).slots.has slot then .wait s (.xmov false slot)
  else
    let d := (s.block b).slots.get ⟨32, []⟩ slot
    let v (l : Nat) := ((d.vals.find? fun p => p.1 == l).map fun p => p.2.toNat).getD 0
    let s := s.setBlock b { s.block b with slots := (s.block b).slots.del slot }
    .done (s.flyLanes act o.dst.toNat
      (act.map fun l => (l, BitVec.ofNat 64 (v l % 2 ^ widthOf o))) 0)

/-- XMOV.R. -/
def execXmovR (o : Ops) (s : State) : Host.Outcome State Fault Refusal :=
  .next (s.issue (.xmovR o) fun s act => s.xmovREff o act)

end Sys2Proof.Machine
end

