-- ==== Sys2Proof/Machine/System.lean ====
section
/-! DEFINITION. The system instructions (R345-R356) and the control cores' registers (R373-R375). -/

namespace Sys2Proof.Machine

/-! ## Reading control registers (R32-R35, R348, R374) -/

/-- CR.TIME on a core (R32): cores count from one reset and differ by at most 8 cycles (log 3). -/
def State.coreTime (s : State) (core : Nat) : Nat := s.time + Config.freeChoice 0 (tagMisc core) % 9

/-- CR.BLOCK (R139). -/
def State.blockIndex (s : State) (w : Wave) : Nat :=
  let b := s.block w.block
  let g := s.gang b.gang
  g.index * schGang (s.launch g.launch).sched + b.index

/-- CR.GANG (R139). -/
def State.gangIndex (s : State) (w : Wave) : Nat :=
  (s.block w.block).index * 2 ^ 32 + (s.gang (s.gangOf w)).index

/-- CR.SHARE. -/
def shareWord (h : Share) : Nat := h.kib * 2 ^ 40 + h.tiles * 2 ^ 32 + h.unif * 2 ^ 16 + h.rows

/-- A control core's own registers (R374); CR.CLSEND reads zero (R4). -/
def State.privReg (s : State) (c r : Nat) : Nat :=
  let x := s.ctl c
  match r with
  | 0x100 => x.ctx.toNat
  | 0x101 => x.root.toNat
  | 0x102 => x.event.toNat
  | 0x103 => x.timer.toNat
  | 0x105 => c / 8 * 256 + c % 8
  | _ => 0

/-- CR.FFLAGS as it stood before the cycle, with the flags that earlier members of the turn raised (R39, R83, R150). -/
def State.flagsNow (s : State) : BitVec 5 := s.seen.fflags ||| s.iss.mine

/-- CR.ERRS likewise, with what the turn's earlier members did to it. -/
def State.errsNow (s : State) : BitVec 64 := s.iss.notes.foldl ErrNote.apply s.seen.errs

/-- Register `r` as lane `l`'s thread of the issuing wave sees it: the wave's registers as they stood before the cycle,
but for what an earlier member of the turn wrote (R150, R349). -/
def State.readCr (s : State) (l r : Nat) : BitVec 64 :=
  let w := s.cur
  match r with
  | 0x000 => BitVec.ofNat 64 l
  | 0x001 => BitVec.ofNat 64 w.index
  | 0x002 => BitVec.ofNat 64 (s.blockIndex w)
  | 0x003 => BitVec.ofNat 64 (s.gangIndex w)
  | 0x004 => BitVec.ofNat 64 w.width
  | 0x005 => BitVec.ofNat 64 s.part
  | 0x006 => s.flagsNow.setWidth 64
  | 0x007 => (s.regs [.y]).rmode.setWidth 64
  | 0x008 => BitVec.ofNat 64 (s.regs [.y]).mmw
  | 0x009 => (s.regs [.y]).mmerr
  | 0x00A => s.errsNow
  | 0x00B => (s.regs [.m]).instar.setWidth 64
  | 0x00C => BitVec.ofNat 64 (2 * s.seen.trapm.toNat + s.seen.single.toNat)
  | 0x00D => s.seen.trapc.setWidth 64
  | 0x00E => s.seen.trapa
  | 0x00F => (w.lane l).epc
  | 0x010 => BitVec.ofNat 64 (s.coreTime (s.coreOf w))
  | 0x011 => BitVec.ofNat 64 (shareWord (s.block w.block).share)
  | _ => match w.control with
    | some c => BitVec.ofNat 64 (s.privReg c r)
    | none => 0

/-- Results in flight of a wave that will contribute flags. -/
def Wave.flagged (w : Wave) : List Flight := w.flights.filter fun f => f.flags != 0

/-- The results whose flags a CRR of CR.FFLAGS returns beside those contributed: of instructions issued before it (R83). -/
def State.flagged (s : State) : List Flight := (s.regs [.s]).flagged ++ s.seen.flagged

/-- The wait of a CRR of CR.FFLAGS that has issued before, or that has results to await: what it will return, and how
many of them are still in flight; the parking or trapping of another lane set of the cycle may have received some. -/
def State.flagWait (s : State) : Option (BitVec 5 × Nat) :=
  let old := s.issuing.findSome? fun l => match (s.cur.lane l).wait with
    | .flags v n => some (v, n)
    | _ => none
  match old with
  | some w => some w
  | none =>
    if s.flagged.isEmpty then none
    else some (s.flagged.foldl (fun a f => a ||| f.flags) s.flagsNow,
      ((s.regs [.s]).flagged.filter s.cur.flights.contains).length)

/-- CRR's values reach their names. -/
def State.crrDone (s : State) (o : Ops) (act : List Nat) (f : Nat → BitVec 64) : Eff :=
  if o.s2 == 0#16 then .done (s.writeLanes o.dst.toNat (act.map fun l => (l, f l)))
  else .done (s.writeUnif s.issuing o.dst.toNat (f (act.headD 0)))

/-- CRR (R348): CR.FFLAGS waits for the flags in flight (R83), and returns them and none raised later. -/
def State.crrEff (s : State) (o : Ops) (act : List Nat) : Eff :=
  let r := o.s0.toNat
  if 0x100 ≤ r && !s.cur.priv then .trap causePriv (BitVec.ofNat 64 r) (act.headD 0)
  else if r != 6 then s.crrDone o act fun l => s.readCr l r
  else match s.flagWait with
    | some (v, 0) => s.crrDone o act fun _ => v.setWidth 64
    | some (v, n) => .wait s (.flags v n)
    | none => s.crrDone o act fun l => s.readCr l r

/-- CRR. -/
def execCrr (o : Ops) (s : State) : Host.Outcome State Fault Refusal :=
  .next (s.issue (.crr o) fun s act => s.crrEff o act)

/-! ## Writing control registers (R349, R374) -/

/-- Clear the bits of a register that are set in `v`. -/
def clearBits {n : Nat} (x v : BitVec n) : BitVec n := x &&& ~~~v

/-- The fields of CR.MMERR and CR.ERRS that W1C clears (R284, R332). -/
def mmerrMask : BitVec 64 := 0x00FF0FFFF8000003#64
def errsMask : BitVec 64 := 0x0000FFFFFFFF0F0F#64

/-- The 64 bytes that a CR.CLSEND names, as the control core's loads see them; none where its page is not
readable. -/
def State.messageBytes (s : State) (k : Nat) (v : BitVec 64) : Option (List Byte) :=
  let va := bits v.toNat 55 6 * 64
  match s.translate (s.wave k) .load va with
  | .ok pa _ => some ((List.range 64).map fun i => s.physByte k (pa + i))
  | _ => none

/-- A message leaves on a command link toward its leaf controller; without a permit it waits for one (R375). -/
def State.sendDown (s : State) (link : Nat) (m : LinkMsg) : State :=
  let c := s.clink link
  s.setClink link (if c.downPermits == 0 then { c with downHeld := c.downHeld ++ [m] }
    else { c with down := c.down ++ [m], downPermits := c.downPermits - 1 })

/-- A write of CR.CLSEND by control core `cc`: none while the link has no permit. DESIGN CHOICE (log 55): there are 64
leaf controllers (R1), and a write that names a link above 63 sends nothing. -/
def State.clSend (s : State) (cc : Nat) (v : BitVec 64) : Option State :=
  let link := bits v.toNat 63 56
  if 64 ≤ link then some s
  else if (s.clink link).downPermits == 0 then none
  else match s.messageBytes (s.ctl cc).wave v with
    | some bs => some (s.sendDown link (.raw bs))
    | none => some s

/-- CLSEND (R375): the event of a control core's write, where a permit is held. -/
def execClsend (cc : Nat) (v : BitVec 64) (s : State) : Host.Outcome State Fault Refusal :=
  .next ((s.clSend cc v).getD s)

/-- A control core's write to one of its own registers. -/
def State.writePriv (s : State) (c r lane : Nat) (v : BitVec 64) : Eff :=
  let x := s.ctl c
  match r with
  | 0x100 => .done (s.setCtl c { x with ctx := v.setWidth 16 })
  | 0x101 => .done (s.setCtl c { x with root := BitVec.ofNat 64 (bits v.toNat 55 8 * 2 ^ 8) })
  | 0x102 => .done (s.setCtl c { x with event := clearBits x.event (v.setWidth 5) })
  | 0x103 => .done (s.setCtl c { x with timer := v, armed := true })
  | 0x104 =>
    match s.clSend c v with
    | some t => .done t
    | none => .wait s .clsend
  | _ => .trap causeCtlWrite (BitVec.ofNat 64 r) lane

/-- The effect of a CRW of `v` to register `r` (R349). -/
def State.writeCr (s : State) (r lane : Nat) (v : BitVec 64) : Eff :=
  let k := s.iss.wave
  let x := v.toNat
  match r with
  | 0x005 =>
    let t := bits x 6 0
    if partOk s.cur.width t then .done (s.onWave k fun w => { w with part := t })
    else .trap causeCtlValue v lane
  | 0x006 => .done (s.onWave k fun w => { w with fflags := clearBits w.fflags (clearBits (v.setWidth 5) s.iss.raised) })
  | 0x007 => .done (s.onWave k fun w => { w with rmode := v.setWidth 2 })
  | 0x008 =>
    let m := bits x 6 0
    if decide (16 ≤ m) && decide (m ≤ 112) && m % 8 == 0 then .done (s.onWave k fun w => { w with mmw := m })
    else .trap causeCtlValue v lane
  | 0x009 => .done (s.onWave k fun w => { w with mmerr := clearBits w.mmerr (v &&& mmerrMask) })
  | 0x00A => .done (s.noteErr k (.clear (v &&& errsMask)))
  | _ =>
    match s.cur.control with
    | some c => if 0x100 ≤ r then s.writePriv c r lane v else .trap causeCtlWrite (BitVec.ofNat 64 r) lane
    | none => .trap (if 0x100 ≤ r then causePriv else causeCtlWrite) (BitVec.ofNat 64 r) lane

/-- CRW (R349): a lane source is that of the lowest active lane. -/
def State.crwEff (s : State) (o : Ops) (act : List Nat) : Eff :=
  let l := act.headD 0
  s.writeCr o.dst.toNat l (if o.s2 == 0#16 then s.readLane l o.s0.toNat else s.readUnif l o.s0.toNat)

/-- CRW. -/
def execCrw (o : Ops) (s : State) : Host.Outcome State Fault Refusal :=
  .next (s.issue (.crw o) fun s act => s.crwEff o act)

/-! ## Traps and the return (R350, R351) -/

/-- TRAP (R350). -/
def execTrap (o : Ops) (s : State) : Host.Outcome State Fault Refusal :=
  .next (s.issue (.trap o) fun _ act => .trap causeSoftware (o.s2.setWidth 64) (act.headD 0))

/-- BRK (R350). -/
def execBrk (o : Ops) (s : State) : Host.Outcome State Fault Refusal :=
  .next (s.issue (.brk o) fun _ act => .trap causeBreak (o.s2.setWidth 64) (act.headD 0))

/-- RTT (R351): the whole handler lane set returns. -/
def State.rttEff (s : State) (o : Ops) (act : List Nat) : Eff :=
  if !s.cur.trapm then .trap causePriv 0 (act.headD 0)
  else s.whole fun _ =>
    .jump (s.endTrapMode s.iss.wave) (s.returnPcs s.iss.wave s.issuing (bit o.s2.toNat 0)) false

/-- RTT. -/
def execRtt (o : Ops) (s : State) : Host.Outcome State Fault Refusal :=
  .next (s.issue (.rtt o) fun s act => s.rttEff o act)

/-! ## SYSC and HALT (R352, R355) -/

/-- SYSC (R352): the request is passed once; the lane set is held for the reply. -/
def State.syscEff (s : State) (o : Ops) (act : List Nat) : Eff :=
  let c : Call := ⟨s.iss.pc, s.issuing, s.readUnif (act.headD 0) o.s0.toNat, bits o.s2.toNat 9 0, s.nextOp⟩
  .wait ({ s with nextOp := s.nextOp + 1 }.onWave s.iss.wave fun w => { w with service := w.service ++ [c] }) .sysc

/-- SYSC. -/
def execSysc (o : Ops) (s : State) : Host.Outcome State Fault Refusal :=
  .next (s.issue (.sysc o) fun s act => s.syscEff o act)

/-- The lanes that a SYSC still holds. -/
def State.callLanes (s : State) (k : Nat) (c : Call) : List Nat :=
  c.lanes.filter fun l => !((s.wave k).lane l).exited && ((s.wave k).lane l).wait == .sysc

/-- A wave's call whose reply it can receive now: not while its lanes are held by trap mode (R324), nor while the wave is
stopped for a rebind (R323). -/
def State.replyReady (s : State) (k : Nat) : Option Call :=
  if s.iss.granted || s.frozen k then none
  else (s.wave k).service.find? fun c => s.replies.has c.id && (s.callLanes k c).all (s.wave k).present.contains

/-- A wave receives a reply that has come: it is written to d and the PC advances. -/
def State.deliverReply (s : State) (k : Nat) : State :=
  match s.replyReady k with
  | none => s
  | some c =>
    let v := s.replies.get 0 c.id
    let ls := s.callLanes k c
    let s := { s with replies := s.replies.del c.id }.onWave k fun w => { w with service := w.service.filter (· != c) }
    if ls.isEmpty then s
    else s.resumeAt k ls fun t =>
      match t.instrAt k (ls.headD 0) c.pc with
      | .sysc o => t.writeUnifOf k ls o.dst.toNat v
      | _ => t

/-- The executive's reply to a call comes: the wave receives it, or it waits until the wave can, be that after a restore
(R339). -/
def State.answer (s : State) (id : Nat) (v : BitVec 64) : State :=
  let held (p : Nat × Wave) : Bool := p.2.service.any fun c => c.id == id
  let s := if s.waves.any held || s.images.any fun i => i.waves.any held then { s with replies := s.replies.put id v } else s
  match s.waves.find? held with
  | some (k, _) => s.deliverReply k
  | none => s

/-- A wave's oldest call that has no reply yet. -/
def State.openCall (s : State) (k : Nat) : Option Call := (s.wave k).service.find? fun c => !s.replies.has c.id

/-- The reply to a wave's oldest SYSC without one. -/
def State.replySysc (s : State) (k : Nat) (v : BitVec 64) : State :=
  match s.openCall k with
  | some c => s.answer c.id v
  | none => s

/-- What a SYSC with an unknown service number replies (R352). -/
def allOnes : BitVec 64 := 0xFFFFFFFFFFFFFFFF#64

/-- SYSC_REPLY (R352): a reply that has come before is received now; else the executive's reply arrives, and a number that
names no service has only one. -/
def execSyscReply (wave : Nat) (reply : BitVec 64) (s : State) : Host.Outcome State Fault Refusal :=
  .next (
    if (s.replyReady wave).isSome then s.deliverReply wave
    else match s.openCall wave with
      | some c => if s.iss.granted then s else s.answer c.id (if 4 < c.num then allOnes else reply)
      | none => s)

/-- HALT (R355): an event already signalled ends it at once. -/
def State.haltEff (s : State) (_ : Ops) (act : List Nat) : Eff :=
  match s.cur.control with
  | some c => if (s.ctl c).event != 0 then .done s else .wait s .halt
  | none => .trap causePriv 0 (act.headD 0)

/-- HALT. -/
def execHalt (o : Ops) (s : State) : Host.Outcome State Fault Refusal :=
  .next (s.issue (.halt o) fun s act => s.haltEff o act)

/-- HALT_WAKE (R355). -/
def execHaltWake (wave : Nat) (s : State) : Host.Outcome State Fault Refusal :=
  .next (
    let ls := (s.wave wave).due fun x => x == .halt
    match (s.wave wave).control with
    | some c => if (s.ctl c).event != 0 && !ls.isEmpty && !s.iss.granted then s.resumeAt wave ls id else s
    | none => s)

/-- TIMER_EXPIRY (R374). -/
def execTimerExpiry (cc : Nat) (s : State) : Host.Outcome State Fault Refusal :=
  .next (
    let c := s.ctl cc
    if c.armed && decide (c.timer.toNat ≤ s.coreTime (256 + cc)) then
      (s.setCtl cc { c with armed := false }).signalEvent cc 4
    else s)

/-! ## TLBI, FENCEI, CKPT (R353, R354, R356) -/

/-- A physical address lies in one of the pages listed by base and size. -/
def inPages (pages : List (Nat × Nat)) (pa : Nat) : Bool := pages.any fun p => decide (p.1 ≤ pa) && decide (pa < p.1 + p.2)

/-- An access issued by cycle `t` to one of these pages is not yet performed, here or at another device (R212, R354). -/
def State.tlbiBusy (s : State) (pages : List (Nat × Nat)) (t : Nat) : Bool :=
  s.access.any (fun a => (a.kind ≤ 1 || a.kind == 4) && decide (a.since ≤ t) && inPages pages a.addr) ||
    s.remotes.any fun r => decide (r.2.since ≤ t) && inPages pages (2 ^ 55 + r.2.dev * 2 ^ 47 + r.2.lpa)

/-- A TLBI: entries go from every TLB; it completes when the accesses that were translated with them are performed. -/
def State.invalidate (s : State) (act : List Nat) (p : TlbEntry → Bool) : Eff :=
  if !s.cur.priv then .trap causePriv 0 (act.headD 0)
  else
    let pages := (((s.tlb ++ s.tlb1).filter p).map fun x => (leafPa x.leaf.toNat, 2 ^ x.size)).eraseDups
    let t := { s with tlb := s.tlb.filter fun x => !p x, tlb1 := s.tlb1.filter fun x => !p x }
    if s.tlbiBusy pages s.time then .wait t (.tlbi pages s.time) else .done t

/-- TLBI.PAGE (R354). -/
def State.tlbiPageEff (s : State) (o : Ops) (act : List Nat) : Eff :=
  let a := s.ru act o.s0.toNat
  let c := s.ru act o.s1.toNat % 2 ^ 16
  s.invalidate act fun x => x.ctx == c && a / 2 ^ x.size == x.base / 2 ^ x.size

/-- TLBI.PAGE. -/
def execTlbiPage (o : Ops) (s : State) : Host.Outcome State Fault Refusal :=
  .next (s.issue (.tlbiPage o) fun s act => s.tlbiPageEff o act)

/-- TLBI.CTX (R354). -/
def State.tlbiCtxEff (s : State) (o : Ops) (act : List Nat) : Eff :=
  let c := s.ru act o.s1.toNat % 2 ^ 16
  s.invalidate act fun x => x.ctx == c

/-- TLBI.CTX. -/
def execTlbiCtx (o : Ops) (s : State) : Host.Outcome State Fault Refusal :=
  .next (s.issue (.tlbiCtx o) fun s act => s.tlbiCtxEff o act)

/-- TLBI.ALL (R354). -/
def State.tlbiAllEff (s : State) (_ : Ops) (act : List Nat) : Eff := s.invalidate act fun _ => true

/-- TLBI.ALL. -/
def execTlbiAll (o : Ops) (s : State) : Host.Outcome State Fault Refusal :=
  .next (s.issue (.tlbiAll o) fun s act => s.tlbiAllEff o act)

/-- A store or a copy write of wave `k` is not yet performed (R356). -/
def State.storing (s : State) (k : Nat) : Bool :=
  s.access.any (fun a => a.wave == k && decide (1 ≤ a.kind) && decide (a.kind ≤ 3)) ||
    s.copies.any (fun p => p.2.wave == k) || s.remotes.any fun r => r.2.wave == k && r.2.ask.writes

/-- FENCEI (R356): it waits for the wave's stores and copy writes; then the wave's code is as its view holds it. A packet
fetched ahead, of which a thread has executed no word, is fetched anew (R41). -/
def State.fenceiEff (s : State) (_ : Ops) (_ : List Nat) : Eff :=
  let k := s.iss.wave
  if s.storing k then .wait s .access
  else
    let ahead (w : Wave) : List Nat := w.live.filter fun l => !s.iss.lanes.contains l && (w.lane l).pc.toNat % 16 == 0
    .done (s.onWave k fun w => { (w.onLanes (ahead w) fun t => { t with code := none }) with code := w.view })

/-- FENCEI. -/
def execFencei (o : Ops) (s : State) : Host.Outcome State Fault Refusal :=
  .next (s.issue (.fencei o) fun s act => s.fenceiEff o act)

/-- CKPT (R353): the lane set is held until the image is written; a control core has no gang, and its d
receives an undefined value (log 28). -/
def State.ckptEff (s : State) (o : Ops) (_ : List Nat) : Eff :=
  if s.cur.priv then .done ((s.writeUnif s.issuing o.dst.toNat 0).blurUnif o.dst.toNat (BitVec.allOnes 64))
  else .wait s .ckpt

/-- CKPT. -/
def execCkpt (o : Ops) (s : State) : Host.Outcome State Fault Refusal :=
  .next (s.issue (.ckpt o) fun s act => s.ckptEff o act)

end Sys2Proof.Machine
end

