-- ==== Sys2Proof/Machine/Issue.lean ====
section
/-! DEFINITION. Lane sets, the grant of issue, arrivals, trap delivery, deadlocks and translation faults
(R143-R149, R158, R171, R213, R324). -/

namespace Sys2Proof.Machine

/-! ## Lane sets (R143) -/

/-- The lanes of a wave's lane set at a PC; in trap mode the handler's only (R324). -/
def Wave.setAt (w : Wave) (pc : BitVec 64) : List Nat := w.present.filter fun l => (w.lane l).pc == pc

/-- The distinct PCs of a wave's lane sets, ascending. -/
def Wave.pcs (w : Wave) : List (BitVec 64) :=
  (sortBy (fun a b => decide (a < b)) (w.present.map fun l => (w.lane l).pc.toNat)).eraseDups.map
    (BitVec.ofNat 64)

/-- A gang is taking a checkpoint: a lane set of it waits at CKPT (R353). -/
def State.checkpointing (s : State) (g : Nat) : Bool :=
  (s.gangWaves g).any fun k => (s.wave k).live.any fun l => ((s.wave k).lane l).wait == .ckpt

/-- A wave's lane sets have been asked to stop at a rebind point (R319, R325, R337, R338, R353). -/
def State.stopAsked (s : State) (k : Nat) : Bool :=
  let b := (s.wave k).block
  let g := (s.block b).gang
  !(s.wave k).priv && (s.rebindStops b || (s.gang g).halted || s.checkpointing g ||
    (s.gang g).preempt == .discarding || (s.gang g).preempt == .saving || (s.gang g).preempt == .saved)

/-- A wave can be granted issue but for its lane sets. -/
def State.runs (s : State) (k : Nat) : Bool :=
  let w := s.wave k
  w.used && !w.retired && !w.stopped && w.awaiting.isNone && (w.priv || (s.gang (s.gangOf w)).placed)

/-- The order in which a core's parked lane sets replay (R215): as their pages were serviced, then by PC. -/
def Wait.replayAt : Wait → Option Nat
  | .replay n => Option.some n
  | _ => Option.none

/-- A lane may issue, as far as what it was held for goes (R143): it has not issued, or that is over; the order in which
parked lane sets replay apart. -/
def State.laneFree (s : State) (k l : Nat) : Bool :=
  match ((s.wave k).lane l).wait with
  | .flags _ n => n == 0
  | .ended | .replay _ => true
  | .tlbi pages t => !s.tlbiBusy pages t
  | w => !w.entered

/-- Of a lane set, the lanes that go on with an instruction that has issued; the others meet it after them. A lane that
replays executes its instruction afresh, with those that have come to it meanwhile (R143). -/
def Wave.goingOn (w : Wave) (ls : List Nat) : List Nat :=
  match ls.find? fun l => (w.lane l).wait.entered && (w.lane l).wait.replayAt.isNone with
  | some l => ls.filter fun j => (w.lane j).wait == (w.lane l).wait
  | none => ls

/-- A lane set of a wave is not held: a request to stop never takes effect within a chained group (R319). -/
def State.setFree (s : State) (k : Nat) (ls : List Nat) : Bool :=
  let w := s.wave k
  !ls.isEmpty && ls.all (fun l => s.laneFree k l) && (!s.stopAsked k || ls.any fun l => (w.lane l).chain)

/-- A lane set is under the join hold (R148). -/
def Wave.heldSet (w : Wave) (ls : List Nat) : Bool :=
  ls.any (fun l => (w.lane l).held) &&
    w.live.any fun j => decide ((w.lane j).pc.toNat < (w.lane (ls.headD 0)).pc.toNat)

/-- A lane set's pass-over count (R147). -/
def Wave.passedOf (w : Wave) (ls : List Nat) : Nat := (ls.map fun l => (w.lane l).passed).foldl max 0

/-- The instruction at a PC, as lane `l` of a wave meets it; none where it cannot be fetched or decoded. -/
def State.peek (s : State) (k l : Nat) (pc : BitVec 64) : Option Instr :=
  let w := s.wave k
  match s.lanePacket k l pc with
  | some p =>
    match decode (s.declared w) w.priv p (bits pc.toNat 3 2) with
    | .ok i => some i
    | .error _ => none
  | none => none

/-- The effect of an instruction that may find its lane set not ready; of any other, nothing to wait for. -/
def State.effect (s : State) (i : Instr) (act : List Nat) : Eff :=
  match i with
  | .vote o => s.voteEff o act
  | .shfl o => s.shflEff o act
  | .wred o => s.wredEff o act
  | .wscan o => s.wscanEff o act
  | .xmovS o => s.xmovSEff o act
  | .xmovR o => s.xmovREff o act
  | .bara o => s.baraEff o act
  | .barw o => s.barwEff o act
  | .bars o => s.barsEff o act
  | .csign o => s.csignEff o act
  | .ld o => s.ldEff o act
  | .st o => s.stEff o act
  | .lds o => s.ldsEff o act
  | .sts o => s.stsEff o act
  | .atom o => s.atomEff o act
  | .atoms o => s.atomsEff o act
  | .phase o => s.phaseEff o act
  | .fopnd o => s.fopndEff o act
  | .snext o => s.snextEff o act
  | .sdone o => s.sdoneEff o act
  | .sgive o => s.sgiveEff o act
  | .swr o => s.swrEff o act
  | .molt o => s.moltEff o act
  | .srd o => s.srdEff o act
  | .cpy e => s.startCopy 0 e act
  | .cpyx e => s.onCore act fun _ => s.startCopy 1 e act
  | .cpyo e => s.startCopy 2 e act
  | .mma e => s.mmaEff e false act
  | .mmag e => s.mmaEff e true act
  | .nmsel e => s.palpEff 0 e act
  | .nmtopk e => s.palpEff 1 e act
  | .nmscore e => s.palpEff 2 e act
  | .nmassign e => s.palpEff 3 e act
  | .nmattn e => s.palpEff 4 e act
  | .coll e => s.collEff e act
  | .crw o => s.crwEff o act
  | .rtt o => s.rttEff o act
  | .fencei o => s.fenceiEff o act
  | _ => .done s

/-- Why a lane set at an instruction is not ready (R143): what keeps it from issuing, none where nothing does. -/
def State.stall (s : State) (k : Nat) (ls : List Nat) (pc : BitVec 64) (i : Instr) : Wait :=
  let t := { s with iss := { Issue.of k ls with pc := pc, next := nextPc pc (encode i).length } }
  let act := t.active i
  let of (e : Eff) : Wait := match e with
    | .wait _ w => if w.entered then .none else w
    | _ => .none
  if t.resumes then .none
  else if act.isEmpty then of (t.idle i)
  else if t.pending i act then .score
  else if t.unitBusy (buffersOf i) then .access
  else of (t.effect i act)

/-- Nothing but the replay order keeps lanes of a wave at a PC from issuing. One whose packet cannot be fetched parks anew,
once its results have come (R44). -/
def State.couldGo (s : State) (k : Nat) (all : List Nat) (pc : BitVec 64) : Bool :=
  let w := s.wave k
  let ls := w.goingOn all
  s.setFree k all && match s.peek k (ls.headD 0) pc with
    | some i => s.stall k ls pc i == .none
    | none => s.fetch k pc != .fault || !s.awaitsRemote k ls

/-- A lane set of the core replays before a request of order `n`, at a PC where it is a lane set's: one that could issue now
(R215). -/
def State.laneFirst (s : State) (core n : Nat) (pc : Option (BitVec 64)) : Bool :=
  s.waves.any fun p => s.coreOf p.2 == core && s.runs p.1 && p.2.present.any fun l =>
    let x := p.2.lane l
    match x.wait.replayAt with
    | some m => (decide (m < n) || (m == n && pc.any fun c => decide (x.pc.toNat < c.toNat))) &&
        !(p.2.heldSet (p.2.setAt x.pc)) && s.couldGo p.1 (p.2.setAt x.pc) x.pc
    | none => false

/-- An engine operation of wave `k` that waits for a page may go on: nothing in its core's fault buffer comes first (R215). -/
def State.replayTurn (s : State) (core k : Nat) (held : Bool) (va : Nat) : Bool :=
  s.resumesNow core k held va &&
    (!held || (s.servedAt (s.ctxOf (s.wave k)) va).all fun n => !s.laneFirst core n none)

/-- A lane may issue, as far as what it was held for goes, and its core's fault buffer has no earlier request. -/
def State.laneReady (s : State) (k l : Nat) : Bool :=
  let t := (s.wave k).lane l
  let core := s.coreOf (s.wave k)
  s.laneFree k l && match t.wait.replayAt with
    | some n => !s.engineFirst core n && !s.laneFirst core n (some t.pc)
    | none => true

/-- What lanes of a wave at a PC wait for: what they were held for, where that is not over; else what keeps their
instruction from issuing. -/
def State.waitOf (s : State) (k : Nat) (ls : List Nat) (pc : BitVec 64) : Wait :=
  let w := s.wave k
  match ls.find? fun l => !s.laneReady k l with
  | some l => (w.lane l).wait
  | none => match s.peek k (ls.headD 0) pc with
    | some i => s.stall k (w.goingOn ls) pc i
    | none => .none

/-- What a lane set of a wave waits for. -/
def State.waitAt (s : State) (k : Nat) (pc : BitVec 64) : Wait := s.waitOf k ((s.wave k).setAt pc) pc

/-- A lane set of a wave's lanes, with the instruction it is at. -/
structure Cand where
  lanes : List Nat
  pc    : BitVec 64
  instr : Option Instr
  deriving DecidableEq, Repr

/-- The pipe that a candidate's next instruction needs; one that traps or parks needs none. -/
def Cand.pipe (c : Cand) : Pipe := (c.instr.map pipeOf).getD .none

/-- The ready lane sets of a wave by ascending PC (R143). -/
def State.readySets (s : State) (k : Nat) : List Cand :=
  let w := s.wave k
  w.pcs.filterMap fun pc =>
    let all := w.setAt pc
    let ls := w.goingOn all
    if s.couldGo k all pc && all.all (fun l => s.laneReady k l) then some ⟨ls, pc, s.peek k (ls.headD 0) pc⟩ else none

/-- The lane set yielded: it gives up this cycle (R107). -/
def Wave.resting (w : Wave) (c : Cand) : Bool := c.lanes.any fun l => (w.lane l).rest

/-- The candidates for a wave's ports, in order (R146): aged lane sets by falling count, then those not held, by
PC. -/
def Wave.ordered (w : Wave) (cs : List Cand) : List Cand :=
  sortBy (fun a b => decide (w.passedOf b.lanes < w.passedOf a.lanes)) (cs.filter fun c => 64 ≤ w.passedOf c.lanes) ++
    cs.filter fun c => decide (w.passedOf c.lanes < 64) && !w.heldSet c.lanes

/-! ## The grant (R144) -/

/-- An eligible wave: its ready lane sets, and its candidates in order; none where all are held or have yielded. -/
structure Offer where
  wave  : Nat
  ready : List Cand
  order : List Cand
  deriving DecidableEq, Repr

/-- What a wave offers. -/
def State.offer (s : State) (k : Nat) : Option Offer :=
  if s.runs k then
    let cs := s.readySets k
    let o := (s.wave k).ordered (cs.filter fun c => !(s.wave k).resting c)
    if cs.isEmpty then none else some ⟨k, cs, o⟩
  else none

/-- Whether wave `a` goes before wave `b`: trap mode, then the longest time since a grant, then the lower
slot. -/
def State.before (s : State) (a b : Nat) : Bool :=
  let x := s.wave a
  let y := s.wave b
  if x.trapm != y.trapm then x.trapm
  else if x.since != y.since then decide (x.since < y.since)
  else decide (x.slot < y.slot)

/-- The eligible waves of a core, in the order in which they are granted. -/
def State.offers (s : State) (core : Nat) : List Offer :=
  (sortBy s.before ((s.waves.filter fun p => s.coreOf p.2 == core).map Prod.fst)).filterMap s.offer

/-- In this cycle throttling withholds both V pipes of the core (R407). -/
def State.withheld (s : State) (core : Nat) : Bool := s.power.throttle.contains 2 && s.starved.get 0 core != 0

/-- A core's next issue cycle under throttling: withheld or not is left open, but after seven in a row one is not (R407). -/
def State.withhold (s : State) (core : Nat) : Nat :=
  let n := s.starved.get 0 core
  if n < 7 && s.choose (tagMisc (2 ^ 20 + core)) 2 == 1 then n + 1 else 0

/-- Whether a wave's instruction can take a pipe when these are claimed, the last of them by its own port (R145, R407):
each port takes one instruction of B, of P and of U. -/
def State.pipeFree (s : State) (k : Nat) (claimed port : List Pipe) (x : Pipe) : Bool :=
  match x with
  | .none => true
  | .b | .p | .u => !port.contains x
  | .v => decide ((claimed.filter (· == .v)).length < 2) && ((s.wave k).trapm || !s.withheld (s.coreOf (s.wave k)))
  | q => !claimed.contains q

/-- The members of a chained group that issue after `i` in its cycle (R47, R146): how many, and the claims. `port` holds
the pipes of the group's members so far, from which theirs must differ. -/
def State.chained (s : State) (k : Nat) (ls : List Nat) :
    Nat → BitVec 64 → Option Instr → List Instr → List Pipe → List Pipe → Nat × List Pipe
  | 0, _, _, _, _, cl => (0, cl)
  | _ + 1, _, none, _, _, cl => (0, cl)
  | n + 1, pc, some i, earlier, port, cl =>
    let pc' := nextPc pc (encode i).length
    match if chainOf i && !(s.wave k).single then s.peek k (ls.headD 0) pc' else none with
    | none => (0, cl)
    | some j =>
      let x := pipeOf j
      if (i :: earlier).any (dependsOn j) || s.stall k ls pc' j != .none || (x != .none && port.contains x) ||
          !s.pipeFree k cl port x then (0, cl)
      else
        let r := s.chained k ls n pc' (some j) (i :: earlier) (x :: port) (x :: cl)
        (r.1 + 1, r.2)

/-- The granted waves: at most two, whose first candidates' pipes are free (R144). -/
def State.granted (s : State) : List Offer → List Pipe → Nat → List Offer
  | _, _, 0 => []
  | [], _, _ => []
  | o :: os, cl, n + 1 =>
    match o.order with
    | c :: _ => if s.pipeFree o.wave cl [] c.pipe then o :: s.granted os (c.pipe :: cl) n else s.granted os cl (n + 1)
    | [] => s.granted os cl (n + 1)

/-- The turns of a granted wave: its first candidate, whose pipe is claimed, and through the secondary port the
next candidate whose pipe is free (R146). -/
def State.turnsOf (s : State) (o : Offer) (cl : List Pipe) : List Turn × List Pipe :=
  match o.order with
  | [] => ([], cl)
  | c :: cs =>
    let a := s.chained o.wave c.lanes 2 c.pc c.instr [] [c.pipe] cl
    let t : Turn := ⟨o.wave, c.lanes, a.1⟩
    match cs.find? fun d => s.pipeFree o.wave a.2 [] d.pipe with
    | none => ([t], a.2)
    | some d =>
      let b := s.chained o.wave d.lanes 2 d.pc d.instr [] [d.pipe] (d.pipe :: a.2)
      let u : Turn := ⟨o.wave, d.lanes, b.1⟩
      (if c.pc.toNat < d.pc.toNat then [t, u] else [u, t], b.2)

/-- The turns of all granted waves, in grant order (R145, R150). -/
def State.turns (s : State) : List Offer → List Pipe → List Turn
  | [], _ => []
  | o :: os, cl =>
    let r := s.turnsOf o cl
    r.1 ++ s.turns os r.2

/-- Hold marks of lanes with no lane below them end at the start of an opportunity (R148). -/
def Wave.clearHolds (w : Wave) : Wave :=
  let m := (w.live.map fun l => (w.lane l).pc.toNat).foldl min (2 ^ 64)
  w.onLanes (w.live.filter fun l => (w.lane l).held && (w.lane l).pc.toNat ≤ m) fun t => { t with held := false }

/-- Lane sets that yielded have given up a cycle (R107). -/
def Wave.rested (w : Wave) : Wave :=
  w.onLanes (w.live.filter fun l => (w.lane l).rest) fun t => { t with rest := false }

/-- Before a wave's first instruction: the acquire of the kernel's start, and its code as its view then is (R237,
R41). -/
def State.begin (s : State) (k : Nat) : State :=
  if (s.wave k).priv || (s.wave k).issued != 0 then s
  else (s.acquire k 3).onWave k fun w => { w with code := w.view }

/-- The waves of a core that have yet to issue stand at their kernel's start. -/
def State.beginCore (s : State) (core : Nat) : State :=
  (s.waves.filter fun p => s.coreOf p.2 == core && s.runs p.1).foldl (fun s p => s.begin p.1) s

/-- A lane set has its turn in this cycle: its packet is fetched (R41), and the TLBs keep its page (R212). -/
def State.enter (s : State) (t : Turn) : State :=
  let l := t.lanes.headD 0
  let pc := ((s.wave t.wave).lane l).pc
  match s.lanePacket t.wave l pc with
  | none => s
  | some p =>
    let s := if (((s.wave t.wave).lane l).within pc).isNone then s.countFetch t.wave pc else s
    (s.fills (s.wave t.wave) [pc.toNat]).onWave t.wave fun w =>
      w.onLanes (t.lanes.filter fun j => ((w.lane j).within pc).isNone) fun x => { x with code := some (packetBase pc, p) }

/-- A granted wave's opportunity (R144, R147, R148): the cycle of its grant, the count of each ready lane set that has no
turn, and the marks that end. -/
def State.opportune (s : State) (ts : List Turn) (o : Offer) : State :=
  let turned := (ts.filter fun t => t.wave == o.wave).flatMap (·.lanes)
  let missed := (o.ready.flatMap (·.lanes)).filter fun l => !turned.contains l
  s.onWave o.wave fun w =>
    { (w.clearHolds.onLanes missed fun t => { t with passed := t.passed + 1 }) with since := s.time }

/-- The cycle's issue for these waves (R144, R146, R150). -/
def State.grant (s : State) (os : List Offer) : State :=
  let gs := s.granted os [] 2
  match s.turns gs (gs.filterMap fun o => o.order.head?.map (·.pipe)) with
  | [] => s
  | t :: ts =>
    let s := (t :: ts).foldl State.enter (gs.foldl (State.opportune · (t :: ts)) s)
    { s with iss := { Issue.of t.wave t.lanes with
        left := t.left, later := ts, blocks := s.blocks, gangs := s.gangs
        before := s.waves.filter fun p => gs.any fun o => o.wave == p.1 } }

/-- An eligible wave whose ready lane sets are all under the join hold has an opportunity at which nothing issues:
their counts rise (log 31). One whose lane sets have yielded has given the opportunity up. -/
def State.passHeld (s : State) (o : Offer) : State :=
  if o.order.isEmpty then
    s.onWave o.wave fun w => w.onLanes ((o.ready.flatMap (·.lanes)).filter fun l => !(w.lane l).rest) fun t =>
      { t with passed := t.passed + 1 }
  else s

/-- Lane sets of a core that yielded have given up a cycle. -/
def State.restedCore (s : State) (core : Nat) : State :=
  { s with waves := s.waves.map fun p => if s.coreOf p.2 == core then (p.1, p.2.rested) else p }

/-- A core's issue of one cycle. -/
def State.grantCore (s : State) (core : Nat) : State :=
  let s := s.beginCore core
  (((s.offers core).foldl State.passHeld s).restedCore core).grant (s.offers core)

/-- ISSUE_GRANT (R144, R146): a core's issue of one cycle. -/
def execIssueGrant (core : Nat) (s : State) : Host.Outcome State Fault Refusal :=
  .next (if s.iss.granted then s else s.grantCore core)

/-- An aged lane set is the first candidate of a wave that its core grants now. -/
def State.agedFirst (s : State) (wave : Nat) (pc : BitVec 64) : Bool :=
  decide (64 ≤ (s.wave wave).passedOf ((s.wave wave).setAt pc)) &&
    (s.granted (s.offers (s.coreOf (s.wave wave))) [] 2).any fun o =>
      o.wave == wave && o.order.head?.map (·.pc) == some pc

/-- LANE_SET_AGED (R146, R147): the core's issue of a cycle, in which an aged lane set goes ahead as the first candidate
of a granted wave. -/
def execLaneSetAged (wave : Nat) (pc : BitVec 64) (s : State) : Host.Outcome State Fault Refusal :=
  .next (if !s.iss.granted && s.agedFirst wave pc then s.grantCore (s.coreOf (s.wave wave)) else s)

/-! ## Arrivals and traps (R38, R44, R324) -/

/-- LONG_LATENCY_RESULT_ARRIVAL (R38): result number `k` in flight of a wave. -/
def execLongLatencyResultArrival (wave k : Nat) (s : State) : Host.Outcome State Fault Refusal :=
  .next (match (s.wave wave).flights[k]? with
    | some f => if f.remote.isSome then s else s.landNth wave k
    | none => s)

/-- TRAP_DELIVERY (R324): a trap that waited is delivered. -/
def execTrapDelivery (wave : Nat) (s : State) : Host.Outcome State Fault Refusal :=
  .next (match (s.wave wave).awaiting with
    | some t => if s.deliverable wave t && !s.iss.granted then s.takeTrap wave t else s
    | none => s)

/-! ## Deadlocks (R158, R171) -/

/-- A wait at a transfer slot. -/
def Wait.isSlot : Wait → Bool
  | .xmov _ _ => true
  | _ => false

/-- What each lane set of a wave waits for, by ascending PC. -/
def State.waits (s : State) (k : Nat) : List (BitVec 64 × Wait) := (s.wave k).pcs.map fun pc => (pc, s.waitAt k pc)

/-- Every lane set of a wave waits for members or at a slot. -/
def State.blocked (s : State) (k : Nat) : Bool := (s.waits k).all fun x => x.2.isMembers || x.2.isSlot

/-- The condition of R158: no lane set of the wave can become ready. One that waits at a slot (R170) can while
another wave of the block runs. -/
def State.deadlocked (s : State) (k : Nat) : Bool :=
  let w := s.wave k
  let xs := s.waits k
  s.runs k && !s.stopAsked k && !s.iss.granted && xs.any (fun x => x.2.isMembers) &&
    xs.all (fun x => x.2.isMembers || x.2.isSlot) &&
    (xs.all (fun x => x.2.isMembers) || (s.wavesOf w.block).all fun j => (s.wave j).retired || s.blocked j)

/-- The mask that a wait for members is under. -/
def Wait.mask : Wait → BitVec 64
  | .members m => m
  | _ => 0

/-- MEMBER_WAIT_DEADLOCK (R158): the lowest-PC waiting lane set traps. -/
def execMemberWaitDeadlock (wave : Nat) (s : State) : Host.Outcome State Fault Refusal :=
  .next (
    if s.deadlocked wave then
      match (s.waits wave).find? fun x => x.2.isMembers with
      | some (pc, w) =>
        let ls := (s.wave wave).setAt pc
        s.raiseTrap wave ⟨causeDeadlock, w.mask, ls.headD 0, ls, pc, false⟩
      | none => s
    else s)

/-- What the lanes that trap mode holds wait for, by PC (R324). -/
def State.heldWaits (s : State) (k : Nat) : List Wait :=
  let w := s.wave k
  let ls := w.live.filter fun l => !w.present.contains l
  ((ls.map fun l => (w.lane l).pc).eraseDups).map fun pc => s.waitOf k (ls.filter fun l => (w.lane l).pc == pc) pc

/-- The condition of R171: every lane that has not exited waits at a slot. -/
def State.orphaned (s : State) (b : Nat) : Bool :=
  let ks := (s.wavesOf b).filter fun k => !(s.wave k).retired
  !ks.isEmpty && !s.iss.granted && ks.all fun k =>
    s.runs k && !s.stopAsked k && (s.waits k).all (fun x => x.2.isSlot) && (s.heldWaits k).all Wait.isSlot

/-- The slot of a wait at XMOV. -/
def Wait.slot : Wait → Nat
  | .xmov _ n => n
  | _ => 0

/-- TRANSFER_ORPHANED (R171). -/
def execTransferOrphaned (block : Nat) (s : State) : Host.Outcome State Fault Refusal :=
  .next (
    match (s.wavesOf block).find? fun k => !(s.wave k).retired with
    | some k =>
      if s.orphaned block then
        let ls := (s.wave k).lowest
        let pc := ((s.wave k).lane (ls.headD 0)).pc
        s.raiseTrap k ⟨causeTransfer, BitVec.ofNat 64 (s.waitOf k ls pc).slot, ls.headD 0, ls, pc, false⟩
      else s
    | none => s)

/-! ## Translation faults (R213) -/

/-- The addresses a lane's lane set is parked on. -/
def Wait.parkedOn : Wait → List (Nat × Nat)
  | .parked as _ => as
  | _ => []

/-- The page of an address, for notices: the smallest page (R208). -/
def pageOf (va : Nat) : Nat := va / 2 ^ 16

/-- Pages of a context that lane sets and engine operations wait for. -/
def State.faulting (s : State) : List (Nat × Nat) :=
  ((s.waves.flatMap fun p => if p.2.retired then [] else p.2.live.flatMap fun l =>
      (p.2.lane l).wait.parkedOn.map fun a => (s.ctxOf p.2, pageOf a.2)) ++
    ((s.copies.filterMap fun p => p.2.parked.map fun va => (s.ctxOf (s.wave p.2.wave), pageOf va)) ++
      (s.mats.flatMap fun p => p.2.parts.filterMap fun q =>
        q.parked.map fun va => (s.ctxOf (s.wave p.2.wave), pageOf va)) ++
      s.palps.flatMap fun p => p.2.parked.map fun va => (s.ctxOf (s.wave p.2.wave), pageOf va)).filter fun p =>
        !(s.serviced.any fun q => q.1 == p.1 && q.2.1 == p.2)).eraseDups

/-- FAULT_NOTICE (R213): one notice for each page and context goes to the scheduler, whose CR.EVENT shows it
(R374). -/
def execFaultNotice (ctx : Nat) (va : BitVec 64) (s : State) : Host.Outcome State Fault Refusal :=
  .next (
    let p := (ctx, pageOf va.toNat)
    if s.faulting.contains p && !s.notices.contains p then
      let c := ((s.waves.find? fun q => s.ctxOf q.2 == ctx && q.2.used).map fun q => s.clusterOf q.2).getD 0
      ({ s with notices := s.notices ++ [p] }.sendUp (c % 64) (.faultNotice ctx va)).signalEvent s.sched 8
    else s)

/-- A lane's address on a page, where it is parked on one. -/
def Lane.onPage (t : Lane) (page : Nat) : Option (Nat × Nat) :=
  t.wait.parkedOn.find? fun a => pageOf a.2 == page

/-- A parked lane's wait once a page is serviced, as the `n`-th service: when no page is left that it waits for, its
lane set re-executes in the core's order (R213, R215), without a fault-buffer entry as a fresh access. -/
def Wait.serviced (w : Wait) (page n : Nat) : Wait :=
  match w with
  | .parked as e =>
    let rest := as.filter fun a => pageOf a.2 != page
    if !rest.isEmpty then .parked rest e else if e then .replay n else .none
  | w => w

/-- A page is serviced: lane sets of the context that wait for it re-execute their instructions, and engine operations go
on, in the order of service (R215). -/
def State.replay (s : State) (ctx page : Nat) : State :=
  { s with
    serviced := (ctx, page, s.time) :: s.serviced.filter fun p => !(p.1 == ctx && p.2.1 == page)
    waves := s.waves.map fun p =>
      if s.ctxOf p.2 == ctx then
        (p.1, p.2.onLanes (p.2.live.filter fun l => ((p.2.lane l).onPage page).isSome) fun t =>
          { t with wait := t.wait.serviced page s.time })
      else p }

/-- The lowest-PC lane set of a wave that is parked on a page; none that a handler holds (R324). -/
def Wave.refusable (w : Wave) (page : Nat) : List Nat :=
  if w.awaiting.isSome then []
  else
    let ls := w.present.filter fun l => ((w.lane l).onPage page).isSome
    let m := (ls.map fun l => (w.lane l).pc.toNat).foldl min (2 ^ 64)
    ls.filter fun l => (w.lane l).pc.toNat == m

/-- Lane sets parked on a refused page trap; one that is held meanwhile re-executes later. -/
def State.refuse (s : State) (ctx page cause : Nat) : State :=
  let r := s.waves.foldl (fun s p =>
    let w := s.wave p.1
    let ls := w.refusable page
    if s.ctxOf w == ctx && !w.retired && !ls.isEmpty then
      let a := ((w.lane (ls.headD 0)).onPage page).getD (0, 0)
      s.raiseTrap p.1 ⟨cause, BitVec.ofNat 64 a.2, a.1, ls, (w.lane (ls.headD 0)).pc, false⟩
    else s) s
  r.replay ctx page

/-- The refusals due to engine operations that wait for a page (R258, R283). -/
def State.engineRefusals (s : State) (ctx page : Nat) (prot : Bool) : List Instr :=
  (s.copies.filterMap fun p =>
    if s.ctxOf (s.wave p.2.wave) == ctx && p.2.parked.map pageOf == some page then some (.copyRefusal p.1 prot)
    else none) ++
  s.mats.flatMap fun p =>
    if s.ctxOf (s.wave p.2.wave) == ctx then
      p.2.parts.zipIdx.filterMap fun q =>
        match q.1.parked with
        | some va => if pageOf va == page then some (.streamedPageRefusal p.1 q.2 (BitVec.ofNat 64 va)) else none
        | none => none
    else []

/-- Palp commands that wait for a refused page meet an error there (R295). -/
def State.refusePalps (s : State) (ctx page err : Nat) : State :=
  { s with palps := s.palps.map fun p =>
      if s.ctxOf (s.wave p.2.wave) == ctx && p.2.parked.any fun va => pageOf va == page then
        (p.1, { p.2 with refused := p.2.refused ++ [(page, err)] })
      else p }

/-- Bytes of a gang's stack regions. -/
def State.stackSize (s : State) (g : Nat) : Nat :=
  let l := s.launch (s.gang g).launch
  512 * l.kernel.depth * l.kernel.waves * schGang l.sched

/-- A leaf maps a stack page as R22 says. -/
def isStackLeaf (leaf : Nat) : Bool := leafStk leaf && leafR leaf && leafW leaf && leafC leaf

/-- The pages of a gang's stack regions from `sb`. -/
def State.stackPages (s : State) (g sb : Nat) : List Nat :=
  (List.range ((s.stackSize g + 2 ^ 16 - 1) / 2 ^ 16)).map fun i => sb + i * 2 ^ 16

/-- The stack regions of gangs, saved ones among them, are mapped in `t` as they are in `s`: they stay so until the gang
retires or is discarded (R21, R22). -/
def State.stacksKept (s t : State) : Bool :=
  s.gangs.all fun p => match p.2.stack with
    | some sb =>
      let root := (s.context (s.launch p.2.launch).ctx).root
      (s.stackPages p.1 sb).all fun va => t.walk root va == s.walk root va
    | none => true

/-- A table word that the executive may write for a process: it lies in nothing that the executive has put elsewhere for
itself but tables, and maps no part of any of it (R21, log 25). -/
def State.tableWordOk (s : State) (p : Nat × BitVec 64) : Bool :=
  let e := p.2.toNat
  let meets (a n : Nat) (f : Nat × Nat × Nat) : Bool := decide (f.2.1 < a + n) && decide (a < f.2.1 + f.2.2)
  !(s.frames.any fun f => f.1 != 0 && meets p.1 8 f) &&
    (!leafV e || !(leafR e || leafW e || leafX e) || !(s.frames.any (meets (leafPa e) (2 ^ pageLog (bits e 15 14)))))

/-- TRANSLATION_FAULT_SERVICE (R213): the executive maps the page by the table words it writes, which leave the stack
regions and its own memory as they are, or refuses the access. -/
def execTranslationFaultService (ctx : Nat) (va : BitVec 64) (res : Service) (s : State) :
    Host.Outcome State Fault Refusal :=
  .next (
    let page := pageOf va.toNat
    if s.iss.granted then s
    else
      let s := { s with notices := s.notices.filter fun p => p != (ctx, page) }
      match res with
      | .mapped ts =>
        let t := ts.foldl (fun s p => s.sysWrite p.1 (leBytes 8 p.2.toNat)) s
        if ts.all s.tableWordOk && s.stacksKept t then t.replay ctx page else s
      | .invalid =>
        let t := (s.refusePalps ctx page 1).refuse ctx page causeInvalid
        { t with agenda := (s.engineRefusals ctx page false).map (fun i => (0, i)) ++ t.agenda }
      | .forbidden =>
        let t := (s.refusePalps ctx page 2).refuse ctx page causeProtection
        { t with agenda := (s.engineRefusals ctx page true).map (fun i => (0, i)) ++ t.agenda })

end Sys2Proof.Machine
end

