-- ==== Sys2Proof/Machine/Process.lean ====
section
/-! DEFINITION. The memory of a process as the scheduler, the executive and the binder reach it (R232, R372, R383), and a
kernel as its descriptor and tables stand there (R398-R401). -/

namespace Sys2Proof.Machine

/-! ## Memory of a process -/

/-- The context that stands for physical addresses: the executive's own. -/
def physCtx : Nat := 2 ^ 16

/-- The context that stands for addresses of the host's aperture (R372): the executive installs its mappings in its table. -/
def barCtx : Nat := 2 ^ 16 + 1

/-- Where an address of a context lies, and its leaf; a remote address of this device is that of its home memory (R363). -/
def State.ctxPa (s : State) (ctx va : Nat) : Option (Nat × Nat) :=
  if ctx == physCtx then some (va, 0xF)
  else if bits va 63 56 != 0 then none
  else (s.walk (s.context ctx).root va).map fun e =>
    let pa := leafAddr e va
    (if ownRemote pa then bits pa 38 0 else pa, e)

/-- A byte of home memory as a reader at a scope finds it published, 2 .DEV or 3 .SYS (R232, R237), or brought home by a
CFLUSH (R227). -/
def State.homeByte (s : State) (scope pa : Nat) : Byte :=
  if s.bad.contains (pa / 8 * 8) then 0 else s.byteAt pa (max (s.published scope pa) (s.flushed.get 0 pa))

/-- As the executive and the scheduler read it: they are in .DEV, and acquire at .SYS (R232, R383). -/
def State.sysByte (s : State) (pa : Nat) : Byte := s.homeByte 2 pa

/-- A byte of a context; none where it has no mapping. What another device holds is left open (log 35). -/
def State.ctxByte (s : State) (ctx va : Nat) : Option Byte :=
  (s.ctxPa ctx va).map fun p => if bit p.1 55 then (s.undef (tagMisc (2 ^ 60 + va))).setWidth 8 else s.sysByte p.1

/-- `n` bytes of a context; none where some byte has no mapping. -/
def State.ctxRead (s : State) (ctx va n : Nat) : Option (List Byte) := (List.range n).mapM fun i => s.ctxByte ctx (va + i)

/-- A 64-bit word of a context, 0 where it cannot be read. -/
def State.ctxWord (s : State) (ctx va : Nat) : Nat := ((s.ctxRead ctx va 8).map ofLe).getD 0

/-- The words of a block of a context. -/
def State.ctxWords (s : State) (ctx va n : Nat) : Option (List (BitVec 64)) :=
  (s.ctxRead ctx va (8 * n)).map fun bs =>
    (List.range n).map fun i => BitVec.ofNat 64 (ofLe ((bs.drop (8 * i)).take 8))

/-- Bytes from an address on, cut at multiples of 8. -/
def pieces (va : Nat) (bs : List Byte) : List (Nat × List Byte) :=
  if bs.isEmpty then []
  else (List.range ((va % 8 + bs.length + 7) / 8)).map fun i =>
    let lo := 8 * i - va % 8
    (va + lo, (bs.drop lo).take (8 * (i + 1) - va % 8 - lo))

/-- A write by the scheduler or the executive to another device (R363). -/
def State.sendWrite (s : State) (pa : Nat) (bs : List Byte) : State :=
  (s.sendRemote (s.ctl s.sched).wave 0 0 pa bs.length (.store bs) false none).1

/-- Write bytes of a context that one page holds, to both copies of a replicated page (R211). -/
def State.ctxPiece (s : State) (ctx va : Nat) (bs : List Byte) (all : Bool) : State :=
  match s.ctxPa ctx va with
  | some (pa, leaf) =>
    if !all && ctx != physCtx && s.mapGuarded ctx leaf then s
    else if bit pa 55 then s.sendWrite pa bs
    else (copiesFor leaf pa).foldl (fun s a => s.sysWrite a bs) s
  | none => s

/-- Write bytes of a context, published at .SYS scope; bytes without a mapping, and those of a page that holds a coverage
map in use (R183), are not written. -/
def State.ctxWrite (s : State) (ctx va : Nat) (bs : List Byte) : State :=
  (pieces va bs).foldl (fun s p => s.ctxPiece ctx p.1 p.2 false) s

/-- Every page of a range is mapped in a context with PRIV = 0 and what `p` asks of its leaf. -/
def State.mapped (s : State) (ctx va n : Nat) (p : Nat → Bool) : Bool :=
  decide (va + n ≤ 2 ^ 56) &&
    (List.range ((va + max n 1 - 1) / 2 ^ 16 - va / 2 ^ 16 + 1)).all fun i =>
      match s.ctxPa ctx ((va / 2 ^ 16 + i) * 2 ^ 16) with
      | some (_, e) => !leafPriv e && p e
      | none => false

/-! ## A kernel in memory -/

/-- A NUL-terminated string of a context. -/
def State.cstring (s : State) (ctx : Nat) : Nat → Nat → Option (List Byte)
  | 0, _ => none
  | n + 1, a => match s.ctxRead ctx a 1 with
    | some [b] => if b == 0 then some [] else (s.cstring ctx n (a + 1)).map (b :: ·)
    | _ => none

/-- The debug names of a kernel with `n` names (R401): class, number, the string's offset and the string. -/
def State.dbgNames (s : State) (ctx at0 n : Nat) : Option (List (Nat × Nat × Nat × List Byte)) :=
  (List.range n).mapM fun i => do
    let w ← (s.ctxRead ctx (at0 + 8 * i) 8).map ofLe
    let t ← s.cstring ctx (2 ^ 16) (at0 + bits w 15 0)
    return (bits w 63 60, bits w 31 16, bits w 15 0, t)

/-- A kernel as its descriptor and tables stand in memory (R398-R401). -/
def State.readKernel (s : State) (ctx desc : Nat) : Kernel :=
  let w (i : Nat) : Nat := s.ctxWord ctx (desc + 8 * i)
  let entry := w 1
  let names := (List.range (bits (w 4) 31 0)).map fun i =>
    let a := s.ctxWord ctx (w 5 + 16 * i)
    let b := s.ctxWord ctx (w 5 + 16 * i + 8)
    ({ cls := bits a 63 60, name := bits a 31 16, param := bit a 59, gang := bit a 58, pk := bits a 57 56
       type := bits a 55 50, weight := bits a 47 32, size := bits b 63 32
       live := (List.range (bits a 15 0)).map fun j =>
         let v := s.ctxWord ctx (w 5 + bits b 31 0 + 8 * j)
         (entry + bits v 63 32, entry + bits v 31 0) } : NameInfo)
  { desc := desc, entry := BitVec.ofNat 64 entry, trap := BitVec.ofNat 64 (w 2)
    width := bits (w 0) 31 24, waves := bits (w 0) 23 16, depth := bits (w 0) 15 0
    decl := ⟨bits (w 3) 63 47, bits (w 3) 46 34, bits (w 3) 33 25, bits (w 3) 24 18, bits (w 3) 17 13,
      bits (w 3) 12 8, bits (w 4) 47 32⟩
    params := (names.filter fun n => n.cls == 1 && n.param).map fun n => n.name
    names := names
    res := (List.range (bits (w 4) 47 32)).map fun i => (s.ctxWords ctx (w 6 + 64 * i) 8).getD []
    dbg := if w 7 == 0 then []
      else ((s.dbgNames ctx (w 7) (bits (w 4) 31 0)).getD []).map fun d => (d.1, d.2.1, d.2.2.2) }

/-- A launch's descriptor or tables no longer stand as they did when it began (R400); a kernel without a descriptor in
memory is as the model places it (log 30). -/
def State.tablesChanged (s : State) (l : Launch) : Bool := l.kernel.desc != 0 && s.readKernel l.ctx l.packet != l.kernel

end Sys2Proof.Machine
end

