-- ==== Sys2Proof/Machine/Binder.lean ====
section
/-! DEFINITION. Shares, binding, placement and rebinding of gangs, and the end of blocks and gangs (R140-R142,
R314-R323). -/

namespace Sys2Proof.Machine

/-! ## The barrier store (R314) -/

/-- The entries of a store, by KIND, that blocks on a core hold, each once. -/
def State.storeUsed (s : State) (kind core : Nat) (more : List (BitVec 64)) : List Nat :=
  (((s.blocks.flatMap fun p => if p.2.used && p.2.core / 4 == core / 4 then p.2.places.map Prod.snd else []) ++ more).filterMap
    fun w => if bits w.toNat 63 60 == kind && bits w.toNat 9 8 == core % 4 then some (bits w.toNat 7 0) else none).eraseDups

/-- Give the barriers and convergence registers of a block their entries: gang-scope ones first, on the core of
block 0, and elsewhere the words of block 0. -/
def State.bindStore (s : State) (k : Kernel) (core : Nat) (head : Option (Tab (BitVec 64))) (t : Tab (BitVec 64)) :
    Tab (BitVec 64) :=
  [3, 4].foldl (fun t cls =>
    let ns := sortBy (fun (a b : NameInfo) => if a.gang != b.gang then a.gang else decide (a.name < b.name))
      (k.names.filter fun n => n.cls == cls)
    ns.foldl (fun t n =>
      match n.gang, head with
      | true, some h => Tab.put t n.key (h.get 0 n.key)
      | _, _ =>
        let kind := if cls == 3 then 7 else 8
        let used := s.storeUsed kind core (t.map Prod.snd)
        let e := ((List.range 256).find? fun e => !used.contains e).getD 0
        Tab.put t n.key (BitVec.ofNat 64 (kind * 2 ^ 60 + core % 4 * 2 ^ 8 + e))) t) t

/-! ## Room (R138, R140, R314) -/

/-- A kernel's minimum in each store. -/
def Kernel.minTiles (k : Kernel) : Nat := min k.decl.acc 8
def Kernel.minKib (k : Kernel) (head : Bool) : Nat :=
  ((k.names.map fun n => if n.cls == 2 && (head || !n.gang) then upTo n.size 128 else 0).sum + 1023) / 1024

/-- A share of block `i` of a gang is at least the block's minimum. -/
def Kernel.shareOk (k : Kernel) (h : Share) (i : Nat) : Bool :=
  decide (8 ≤ h.rows) && decide (16 ≤ h.unif) && decide (k.minTiles ≤ h.tiles) && decide (k.minKib (i == 0) ≤ h.kib)

/-- The blocks that hold resources on a core, other than those of gang `g`. -/
def State.blocksOn (s : State) (core g : Nat) : List Block :=
  (s.blocks.filter fun p => p.2.used && p.2.core == core && p.2.gang != g).map Prod.snd

/-- The barriers, or convergence registers, that take an entry on the core of block `i` of a gang. -/
def Kernel.entries (k : Kernel) (cls i : Nat) : Nat := (k.names.filter fun n => n.cls == cls && (i == 0 || !n.gang)).length

/-- Entries or tiles that a block's pinned names hold outside its share (R321). -/
def Block.overdrawn (b : Block) (cls : Nat) : Nat :=
  (b.excess.filter fun n => n.1 == cls && (placePos cls (b.places.get 0 (n.1 * 65536 + n.2))).isSome).length

/-- What a block occupies in the stores of its core: its share, and what pinned names hold outside it (R314, R321). -/
def Block.held (b : Block) : Share :=
  { b.share with unif := b.share.unif + b.overdrawn 1, tiles := b.share.tiles + b.overdrawn 5 }

/-- A core has room for block `i` of a kernel's gang with a share (R1, R138, R314). -/
def State.coreRoom (s : State) (core g i : Nat) (k : Kernel) (h : Share) : Bool :=
  let bs := s.blocksOn core g
  let sum (f : Share → Nat) : Nat := (bs.map fun b => f b.held).sum
  decide ((bs.map fun b => b.waves.length).sum + k.waves ≤ 32) &&
    decide (sum (·.rows) + h.rows ≤ 4096) && decide (sum (·.unif) + h.unif ≤ 2048) &&
    decide (sum (·.tiles) + h.tiles ≤ 8) && decide (16 * bs.length + 16 ≤ 64) &&
    decide ((s.storeUsed 7 core []).length + k.entries 3 i ≤ 256) &&
    decide ((s.storeUsed 8 core []).length + k.entries 4 i ≤ 64)

/-- Bytes of a vault, and of a granule of its division (R1, R205). -/
def vaultSize : Nat := 10 * 2 ^ 20
def granule : Nat := 2 ^ 16

/-- The vault areas of a block on a cluster: its own share, and its lateral region (R206, R316); the cluster, the offset
and the size of each. -/
def Share.areas (h : Share) (cluster : Nat) : List (Nat × Nat × Nat) :=
  (cluster, h.vbase, 1024 * h.kib) :: if h.latk == 0 then [] else [(h.latc, h.lat, 1024 * h.latk)]

/-- A block's vault areas are aligned and inside their vaults; a lateral region is in another cluster of the die. -/
def Share.inVault (h : Share) (cluster : Nat) : Bool :=
  h.vbase % 128 == 0 && h.spill % 128 == 0 && h.lat % 128 == 0 && decide (h.vbase ≤ h.spill) &&
    decide (h.spill ≤ h.vbase + 1024 * h.kib) && (h.areas cluster).all (fun a => decide (a.2.1 + a.2.2 ≤ vaultSize)) &&
    (h.latk == 0 || (h.latc != cluster && h.latc / 32 == cluster / 32))

/-- The vault areas that pinned names hold outside their block's share (R321): the cluster, the offset and the size of
each. -/
def State.overAreas (s : State) (b : Block) : List (Nat × Nat × Nat) :=
  let k := (s.launch (s.gang b.gang).launch).kernel
  k.bound.filterMap fun n =>
    let w := (b.places.get 0 n.key).toNat
    if !b.excess.contains (n.cls, n.name) then none
    else match n.cls == 2, bits w 63 60 with
      | true, 4 => some (b.core / 4, bits w 23 0, n.size)
      | _, 4 => some (b.core / 4, bits w 23 0, (n.extent k.width).2.2)
      | _, 5 => some (bits w 29 24, bits w 23 0, (n.extent k.width).2.2)
      | _, _ => none

/-- Every vault area that a block holds. -/
def State.areasOf (s : State) (b : Block) : List (Nat × Nat × Nat) := b.share.areas (b.core / 4) ++ s.overAreas b

/-- Two areas have a byte in common; of two contexts, a granule (R205). -/
def areasMeet (same : Bool) (a b : Nat × Nat × Nat) : Bool :=
  let g := if same then 1 else granule
  a.1 == b.1 && a.2.2 != 0 && b.2.2 != 0 && decide (a.2.1 / g < (b.2.1 + b.2.2 + g - 1) / g) &&
    decide (b.2.1 / g < (a.2.1 + a.2.2 + g - 1) / g)

/-- A share's vault areas on a cluster meet some areas. -/
def Share.meets (h : Share) (c : Nat) (bs : List (Nat × Nat × Nat)) (same : Bool) : Bool :=
  (h.areas c).any fun a => bs.any fun b => areasMeet same a b

/-- The context of a block. -/
def State.blockCtx (s : State) (b : Block) : Nat := (s.launch (s.gang b.gang).launch).ctx

/-- A share's vault areas on a cluster meet those of a block in use that `p` picks. -/
def State.meetsBlocks (s : State) (ctx cluster : Nat) (h : Share) (p : Nat × Block → Bool) : Bool :=
  s.blocks.any fun x => x.2.used && p x && h.meets cluster (s.areasOf x.2) (s.blockCtx x.2 == ctx)

/-- The vault areas of a gang's blocks are where no other block's are. -/
def State.vaultFree (s : State) (ctx cluster g : Nat) (hs : List Share) : Bool :=
  hs.all (fun h => h.inVault cluster) &&
    hs.zipIdx.all (fun x => hs.zipIdx.all fun y => x.2 == y.2 || !x.1.meets cluster (y.1.areas cluster) true) &&
    !(hs.any fun h => s.meetsBlocks ctx cluster h fun x => x.2.gang != g)

/-- The granules of a cluster's vault that hold areas of a context's blocks (R205). -/
def State.scratchGranules (s : State) (ctx cluster : Nat) : Nat :=
  (((s.blocks.filter fun p => p.2.used && s.blockCtx p.2 == ctx).flatMap fun p =>
    (s.areasOf p.2).flatMap fun a =>
      if a.1 == cluster then (List.range ((a.2.1 + a.2.2 + granule - 1) / granule)).filter fun i => decide (a.2.1 / granule ≤ i)
      else []).eraseDups).length

/-- Vault-cache partitions in so many granules, each as it is as far as they reach. -/
def fitParts : Nat → Tab (Nat × Nat) → Tab (Nat × Nat)
  | _, [] => []
  | room, p :: t => (p.1, (p.2.1, min p.2.2 room)) :: fitParts (room - p.2.2) t

/-- The division of a cluster's vault for a context as its shares there ask: the scratch partition holds its blocks'
areas; the vault-cache partition is of a size that the executive chooses, in what is left, to which the other contexts'
vault-cache partitions shrink (R205). -/
def State.divide (s : State) (ctx cluster : Nat) : State :=
  let n := s.scratchGranules ctx cluster
  let mine (p : Nat × Nat × Nat) : Bool := p.1 % 64 == cluster && p.1 / 64 != ctx
  let room := vaultSize / granule - n - ((s.parts.filter mine).map fun p => p.2.1).sum
  let others := fitParts room (s.parts.filter mine)
  let left := room - (others.map fun p => p.2.2).sum
  let t := others.foldl (fun t p => t.put p.1 p.2) s.parts
  { s with parts := if n == 0 then t.del (64 * ctx + cluster)
      else t.put (64 * ctx + cluster) (n, s.choose (tagMisc (64 * ctx + cluster)) (left + 1)) }

/-- The vault of a cluster has room for these KiB beside what other gangs' blocks hold there, whose scratch partitions stay
(R205). -/
def State.vaultRoom (s : State) (cluster g kib : Nat) : Bool :=
  decide (((s.blocks.map fun p =>
    if p.2.used && p.2.gang != g then ((s.areasOf p.2).map fun a => if a.1 == cluster then a.2.2 else 0).sum else 0).sum) +
      1024 * kib ≤ vaultSize)

/-- A cluster has room for a gang's blocks, of these shares, from core `c0` (R138). -/
def State.clusterRoom (s : State) (cluster c0 g : Nat) (k : Kernel) (hs : List Share) : Bool :=
  decide (c0 + hs.length ≤ 4) && s.vaultRoom cluster g (hs.map (·.kib)).sum &&
    hs.zipIdx.all fun h => s.coreRoom (4 * cluster + c0 + h.2) g h.2 k h.1

/-- The divisions that a block's shares concern. -/
def State.divideFor (s : State) (ctx cluster : Nat) (hs : List Share) : State :=
  (((hs.flatMap fun h => h.areas cluster).map Prod.fst).eraseDups).foldl (fun s c => s.divide ctx c) s

/-- The die that SCH.PLACE1 prefers for a gang (R181). -/
def preferredDie (ws : List (BitVec 64)) (gang : Nat) : Option Nat :=
  match schAff ws with
  | 1 => some 0
  | 2 => some 1
  | 3 => some (gang % 2)
  | _ => none

/-- SCH.PLACE0 and SCH.PLACE1 permit a cluster: the other die only when the preferred one has no room. -/
def State.placePermits (s : State) (l : Launch) (g index cluster : Nat) (hs : List Share) : Bool :=
  let ws := l.sched
  let free (c : Nat) : Bool := bit (schWord ws 6) c &&
    (List.range 4).any fun c0 => s.clusterRoom c c0 g l.kernel hs
  bit (schWord ws 6) cluster &&
    match preferredDie ws index with
    | some d => cluster / 32 == d || !((List.range 32).any fun c => free (32 * d + c))
    | none => true

/-! ## The stack regions (R22) -/

/-- A leaf of a stack page: STK, R, W and C (R209). -/
def stackLeaf (pa : Nat) : Nat := 2 ^ 61 + 2 ^ 56 + pa / 2 ^ 16 * 2 ^ 16 + 7

/-- The words of a new table that do not read as 0 are cleared. -/
def State.clearTable (s : State) (t : Nat) : State :=
  ((List.range 512).filter fun i => s.homeWord (t + 8 * i) != 0).foldl (fun s i => s.sysWrite (t + 8 * i) (leBytes 8 0)) s

/-- The executive maps a 64 KiB page with a leaf: tables that are missing on the way are made where it places them. -/
def State.mapFrom (s : State) (va leaf tag : Nat) : Nat → Nat → Nat → State
  | 0, _, _ => s
  | n + 1, level, table =>
    let a := table + 8 * levelIndex level va
    if level == 4 then s.sysWrite a (leBytes 8 leaf)
    else
      let e := s.homeWord a
      if leafV e && !leafR e && !leafW e && !leafX e then s.mapFrom va leaf tag n (level + 1) (bits e 55 8 * 2 ^ 8)
      else
        let t := s.site 6 (8 * tag + level) 4096 4096
        (((s.keep 0 t 4096).clearTable t).sysWrite a (leBytes 8 (t + 1))).mapFrom va leaf tag n (level + 1) t

/-- The address of the leaf that a walk reaches. -/
def State.leafPlace (s : State) (va : Nat) : Nat → Nat → Nat → Option Nat
  | 0, _, _ => none
  | n + 1, level, table =>
    let a := table + 8 * levelIndex level va
    let e := s.homeWord a
    if !leafV e then none
    else if leafR e || leafW e || leafX e then some a
    else s.leafPlace va n (level + 1) (bits e 55 8 * 2 ^ 8)

/-- The executive maps a 64 KiB page of a process to a page of its own, which it keeps. -/
def State.mapOwn (s : State) (root va what : Nat) (leaf : Nat → Nat) : State :=
  let pa := s.site what s.nextOp (2 ^ 16) (2 ^ 16)
  { (s.keep 1 pa (2 ^ 16)) with nextOp := s.nextOp + 1 }.mapFrom va (leaf pa) s.nextOp 5 0 root

/-- The executive maps a gang's stack regions from its stack base, where they are not mapped so (R22). -/
def State.mapStack (s : State) (g sb : Nat) : State :=
  let root := (s.context (s.launch (s.gang g).launch).ctx).root
  let s := (s.stackPages g sb).foldl (fun s va =>
    if (s.walk root va).any isStackLeaf then s else s.mapOwn root va 7 stackLeaf) s
  s.setGang g { s.gang g with stack := some sb }

/-- The executive unmaps a stack page, and gives its memory back. -/
def State.unmapPage (s : State) (root va : Nat) : State :=
  match s.walk root va, s.leafPlace va 5 0 root with
  | some leaf, some a =>
    if isStackLeaf leaf then
      { s.sysWrite a (leBytes 8 0) with frames := s.frames.filter fun f => f != (1, leafPa leaf, 2 ^ 16) }
    else s
  | _, _ => s

/-- The executive unmaps a gang's stack regions (R22), and no TLB keeps them. -/
def State.unmapStack (s : State) (g : Nat) : State :=
  let ctx := (s.launch (s.gang g).launch).ctx
  let pages := ((s.gang g).stack.map (s.stackPages g)).getD []
  let s := pages.foldl (fun s va => s.unmapPage (s.context ctx).root va) s
  let s := s.setGang g { s.gang g with stack := none }
  let goes (t : TlbEntry) : Bool := t.ctx == ctx && pages.any fun va => va / 2 ^ t.size == t.base / 2 ^ t.size
  { s with tlb := s.tlb.filter fun t => !goes t, tlb1 := s.tlb1.filter fun t => !goes t }

/-! ## Placement (R140, R141) -/

/-- A fresh key for a table. -/
def State.fresh (s : State) : State := { s with nextOp := s.nextOp + 1 }

/-- The least resident slot free on a core (R144). -/
def State.freeSlot (s : State) (core : Nat) : Nat :=
  let used := s.waves.filterMap fun p => if p.2.used && s.coreOf p.2 == core then some p.2.slot else none
  ((List.range 32).find? fun i => !used.contains i).getD 0

/-- A thread at the kernel's entry (R141, R26). -/
def startLane (pc : BitVec 64) : Lane := { Lane.absent with pc := pc, exited := false }

/-- A wave at the kernel's entry: uniform `.param` names hold the launch's argument words (R26). DESIGN CHOICE (log 70): until
its first grant its age (R144) counts from its placement. -/
def Kernel.startWave (k : Kernel) (args : List (BitVec 64)) (block index slot time : Nat) : Wave :=
  { Wave.absent with
    used := true, block := block, index := index, slot := slot, width := k.width, part := k.width
    retired := false, since := time
    lanes := (List.range k.width).map fun l => (l, startLane k.entry)
    unif := (k.params.zip args).foldl (fun t p => Tab.put t p.1 p.2) [] }

/-- Start wave `i` of block `b`; where the tables have changed since the launch began, its names are undefined (R400). -/
def State.startWave (s : State) (b i : Nat) (l : Launch) (changed : Bool) : State :=
  let key := s.nextOp
  let s := s.fresh.setWave key { l.kernel.startWave l.args b i (s.freeSlot (s.block b).core) s.time with
    known := l.before, udead := if changed then l.kernel.params else [] }
  s.setBlock b { s.block b with waves := (s.block b).waves ++ [key] }

/-- Place block `i` of a gang with its table and waves. -/
def State.startBlock (s : State) (g i : Nat) (l : Launch) (h : Share) (sb : BitVec 64) (changed : Bool) : State :=
  let key := s.nextOp
  let q := s.gang g
  let core := 4 * q.cluster + q.c0 + i
  let head := (q.blocks.head?).map fun b => (s.block b).places
  let t := s.bindStore l.kernel core head (s.bindBlock l.kernel key head [] h [])
  let s := s.fresh.setBlock key { Block.absent with
    used := true, gang := g, index := i, core := core, sb := sb, share := h, places := t, ended := false }
  let s := s.setGang g { s.gang g with blocks := (s.gang g).blocks ++ [key] }
  (List.range l.kernel.waves).foldl (fun s w => s.startWave key w l changed) s

/-- A gang's stack regions are free from `sb`, or are those that a saved gang has kept (R22). -/
def State.stacksFree (s : State) (g sb : Nat) : Bool :=
  let q := s.gang g
  (s.stackPages g sb).all fun va =>
    (s.walk (s.context (s.launch q.launch).ctx).root va).all fun e => q.stack == some sb && isStackLeaf e

/-- A gang may be placed so: one share for each of its blocks. -/
def State.placeable (s : State) (g cluster c0 : Nat) (hs : List Share) (sb : BitVec 64) : Bool :=
  let q := s.gang g
  let l := s.launch q.launch
  q.used && !q.placed && !q.retired && !l.ended && decide (cluster < 64) && sb.toNat % 2 ^ 16 == 0 &&
    decide (sb.toNat + s.stackSize g ≤ 2 ^ 56) && s.stacksFree g sb.toNat &&
    hs.length == schGang l.sched && hs.zipIdx.all (fun h => l.kernel.shareOk h.1 h.2) &&
    s.clusterRoom cluster c0 g l.kernel hs && s.vaultFree l.ctx cluster g hs && s.placePermits l g q.index cluster hs

/-- PLACE_GANG (R140, R141): the executive's shares, by block, and stack base; everything is reserved, bound and
started in one step, or nothing; the executive has mapped the stack regions (R22) and divides the vault (R205). -/
def execPlaceGang (gang cluster c0 : Nat) (shares : List ShareSpec) (sb : BitVec 64) (s : State) :
    Host.Outcome State Fault Refusal :=
  .next (
    let q := s.gang gang
    let l := s.launch q.launch
    if s.placeable gang cluster c0 shares sb && q.preempt != .saved then
      let s := (s.mapStack gang sb.toNat).setGang gang { q with
        cluster := cluster, c0 := c0, placed := true, blocks := [], grants := [], scratch := [], bars := []
        convs := [], ir := 0, cy := 0, since := s.time, cd := 0, coll := false, preempt := .none
        stack := some sb.toNat }
      let changed := s.tablesChanged l
      (shares.zipIdx.foldl (fun s h => s.startBlock gang h.2 l h.1 sb changed) s).divideFor l.ctx cluster shares
    else s)

/-! ## Rebinding (R314, R319-R323) -/

/-- A lane set with this wait is at a rebind point once its wave has nothing in flight but tokens (R320); a PHASE or FOPND
whose stall has ended waits for nothing. -/
def Wait.atPoint : Wait → Bool
  | .none | .score | .barrier _ | .snext | .xmov _ _ | .members _ | .sysc | .ckpt | .epoch _ | .fifo | .limit | .parked _ _
  | .replay _ | .flags _ _ | .ended | .brk => true
  | .molt _ _ | .halt | .clsend | .access | .tlbi _ _ | .order => false

/-- What a lane is held for: a lane set that runs, what it waits for; one that trap mode holds, what it was held for
(R324). -/
def State.laneWait (s : State) (k l : Nat) : Wait :=
  let w := s.wave k
  let t := w.lane l
  if w.present.contains l then s.waitAt k t.pc else if t.wait.entered then t.wait else .none

/-- A wave is at a rebind point (R320): its long-latency results are received (R44), its loads, stores and atomics are
performed (R230), and each lane set is stopped at an instruction boundary, none within a chained group, or waits. -/
def State.atPoint (s : State) (k : Nat) : Bool :=
  let w := s.wave k
  !(s.iss.granted && s.iss.wave == k) && !(s.busy k fun a => a.kind != 0 && a.kind != 4) &&
    (w.retired || (w.flights.isEmpty && w.live.all (fun l => !(w.lane l).chain) &&
      w.live.all fun l => (s.laneWait k l).atPoint))

/-- A share change as it is granted: no store below the block's minimum (R314). -/
def Kernel.atLeast (k : Kernel) (h : Share) (i : Nat) : Share :=
  { h with
    rows := max h.rows 8, unif := max h.unif 16, tiles := max h.tiles k.minTiles, kib := max h.kib (k.minKib (i == 0)) }

/-- SHARE_CHANGE (R314, R323): the change waits for a rebind; none is carried out during a save (R345). -/
def execShareChange (block : Nat) (share : ShareSpec) (s : State) : Host.Outcome State Fault Refusal :=
  .next (
    let b := s.block block
    let g := s.gang b.gang
    if b.used && !b.ended && g.preempt != .saving && g.preempt != .saved then
      s.setBlock block { b with rebind := b.rebind ++ [(s.launch g.launch).kernel.atLeast share b.index] }
    else s)

/-- A changed share has room on the core and in the vault. -/
def State.shareRoom (s : State) (b : Nat) (h : Share) : Bool :=
  let x := s.block b
  let others := (s.blocks.filter fun p => p.2.used && p.2.core == x.core && p.1 != b).map fun p => p.2.held
  let sum (f : Share → Nat) : Nat := (others.map f).sum
  decide (sum (·.rows) + h.rows ≤ 4096) && decide (sum (·.unif) + h.unif ≤ 2048) && decide (sum (·.tiles) + h.tiles ≤ 8) &&
    h.inVault (x.core / 4) && !(s.meetsBlocks (s.blockCtx x) (x.core / 4) h fun p => p.1 != b)

/-- The waves that a rebind stops: the block's, and those of the gang's other blocks where R319 says so. -/
def State.stopped (s : State) (b : Nat) : List Nat :=
  ((s.gang (s.block b).gang).blocks.filter fun x => x == b || s.movesGang b).flatMap s.wavesOf

/-- What a rebind does to a name (R315, R322): outside the live set it holds an undefined value, and so does a lane or
uniform name wherever it is dead; a name that has moved stands in its new place, and its granules are dirty (R341). -/
def State.moveName (s : State) (b : Nat) (live moved : Bool) (n : NameInfo) : State :=
  let k := (s.launch (s.gang (s.block b).gang).launch).kernel
  match n.cls with
  | 0 => (s.wavesOf b).foldl (fun s j => s.onWave j fun w =>
      let ls := w.live.filter fun l => !live || !n.liveAt (w.lane l).pc.toNat
      let w := w.onLanes ls fun t => { t with dead := n.name :: t.dead.filter (· != n.name) }
      if !moved then w
      else (w.onLanes w.live fun t => { t with recent := n.name :: t.recent.filter (· != n.name) }).soil n.size n.name
        (List.range k.width)) s
  | 1 => (s.wavesOf b).foldl (fun s j => s.onWave j fun w =>
      let w := if live && w.live.any fun l => n.liveAt (w.lane l).pc.toNat then w
        else { w with udead := n.name :: w.udead.filter (· != n.name) }
      if moved then { w with urecent := n.name :: w.urecent.filter (· != n.name) } else w) s
  | 2 =>
    let i := s.scratch b n.name
    s.setScratch b n.name { i with
      bytes := if live then i.bytes else []
      dirty := if moved then List.range ((n.size + 127) / 128) else i.dirty }
  | _ =>
    let t := (s.block b).tiles.get .zero n.name
    let t := { t with
      undefs := if live then t.undefs else List.range 4096, blur := t.blur || !live
      dirty := if moved then List.range 256 else t.dirty }
    if moved then s.putTile b n.name t else s.setBlock b { s.block b with tiles := (s.block b).tiles.put n.name t }

/-- A spill slot of so many bytes lies outside a share's spill regions (R316, R321). -/
def Share.leavesOut (h : Share) (w size : Nat) : Bool :=
  let kind := bits w 63 60
  let a := if kind == 6 then bits w 55 0 else bits w 23 0
  !(h.regions.any fun r => r.1 == kind && decide (r.2.1 ≤ a) && decide (a + size ≤ r.2.2) &&
    (kind != 5 || bits w 29 24 == h.latc))

/-- Pinned names of a block that lie outside its share (R321); a buffer of gang scope is block 0's. -/
def State.overdraw (s : State) (b : Nat) : List (Nat × Nat) :=
  let x := s.block b
  let k := (s.launch (s.gang x.gang).launch).kernel
  (k.bound.filter fun n => s.pinned b n.cls n.name &&
    !((s.headTable b).isSome && n.cls == 2 && n.gang) &&
    match placePos n.cls (x.places.get 0 n.key) with
    | some p => if n.cls == 2 then decide (p < x.share.vbase) || decide (x.share.vend < p + n.size)
        else decide (x.share.cap n.cls < p + (n.extent k.width).1)
    | none => x.share.leavesOut (x.places.get 0 n.key).toNat (n.extent k.width).2.2).map fun n => (n.cls, n.name)

/-- The new table of a block takes effect (R319, R322): names that are pinned keep their places and their values; where the
kernel's tables have changed, every other name is undefined (R400). -/
def State.rebindTo (s : State) (b : Nat) (h : Share) : State :=
  let x := s.block b
  let g := s.gang x.gang
  let k := (s.launch g.launch).kernel
  let head := s.headTable b
  let live := s.liveSet b
  let t := s.bindBlock k b head x.places h live
  let t := (x.places.filter fun p => decide (3 * 65536 ≤ p.1) && decide (p.1 < 5 * 65536)).foldl
    (fun t p => Tab.put t p.1 p.2) t
  let changed := s.tablesChanged (s.launch g.launch)
  let mine := k.bound.filter fun n => !(head.isSome && n.cls == 2 && n.gang) && !s.pinned b n.cls n.name
  let moved (n : NameInfo) : Bool := x.places.get 0 n.key != Tab.get 0 t n.key
  let lives (n : NameInfo) : Bool := live.contains n.key && !changed
  let s := ((mine.filter fun n => !lives n) ++ mine.filter lives).foldl (fun s n => s.moveName b (lives n) (moved n) n) s
  let s := s.setBlock b { s.block b with places := t, share := h }
  let s := if head.isSome then s else g.blocks.foldl (fun s c =>
    if c == b then s
    else s.setBlock c { s.block c with
      places := (k.bound.filter fun n => n.cls == 2 && n.gang).foldl
        (fun u n => u.put n.key (Tab.get 0 t n.key)) (s.block c).places }) s
  s.setBlock b { s.block b with excess := s.overdraw b }

/-- A wave that stood at a rebind point: its lookahead and forwarding windows are closed, its counts and marks zero
(R318, R320, R147). -/
def State.settled (s : State) (k : Nat) : State :=
  (s.closeWindows k (s.wave k).live).onWave k fun w =>
    { (w.onLanes w.live fun t => { t with passed := 0, held := false }) with fwd := [] }

/-- A name of the overdraw is unpinned (R321). -/
def State.overDone (s : State) (b : Nat) : Bool := (s.block b).excess.any fun n => !s.pinned b n.1 n.2

/-- REBIND (R319): once every wave concerned is at a rebind point; a change without room is not carried out. -/
def execRebind (block : Nat) (s : State) : Host.Outcome State Fault Refusal :=
  .next (
    let b := s.block block
    match b.rebind with
    | h :: rest =>
      if (s.stopped block).all s.atPoint then
        let s := (s.stopped block).foldl (fun s k => s.settled k) s
        let s := s.setBlock block { s.block block with rebind := rest }
        if s.shareRoom block h then (s.rebindTo block h).divideFor (s.blockCtx b) (b.core / 4) [b.share, h] else s
      else s
    | [] =>
      if s.overDone block then s.setBlock block { b with rebind := [b.share] } else s)

/-! ## The end of blocks and gangs (R142, R198, R237) -/

/-- A report becomes due (R340). -/
def State.report (s : State) (g action : Nat) (image : BitVec 64) : State :=
  let q := s.gang g
  { s with reports := s.reports ++ [⟨g, s.time - q.arrived, action, image, decide (q.due < s.time)⟩] }

/-- A gang ends while a request stands: nothing was done about it, and the report says so. DEDUCED (log 82). -/
def State.closeRequest (s : State) (g : Nat) : State :=
  if [Preempt.asked, .draining, .discarding, .saving].contains (s.gang g).preempt then
    (s.report g 0 0).setGang g { s.gang g with preempt := .none }
  else s

/-- What a launch's end passes on of what its waves know of publications (R238). -/
def State.passKnown (s : State) (g : Nat) (ks : List Nat) : State :=
  let n := (s.gang g).launch
  let l := s.launch n
  s.setLaunch n { l with known := ks.foldl (fun v k => joinKnown v (joinKnown (s.wave k).known (s.wave k).told)) l.known }

/-- An engine operation of a block is in flight (R142). -/
def State.enginesOf (s : State) (b : Nat) : Bool :=
  s.copies.any (fun p => p.2.block == b) || s.palps.any (fun p => p.2.block == b) ||
    s.colls.any (fun p => p.2.block == b) ||
    s.mats.any fun p => p.2.posted.isSome && !p.2.complete && p.2.parts.any fun q => q.block == b

/-- A block can end: its last wave has retired, its operations and accesses are complete, and its gang is not halted
(R325). -/
def State.blockOver (s : State) (b : Nat) : Bool :=
  let x := s.block b
  x.used && !x.ended && !(s.gang x.gang).halted && !x.waves.isEmpty &&
    x.waves.all (fun k => (s.wave k).retired && !s.releaseBusy k 3) && !s.enginesOf b

/-- The resources of a gang are released together (R142). -/
def State.freeGang (s : State) (g : Nat) : State :=
  let bs := (s.gang g).blocks
  let ks := bs.flatMap s.wavesOf
  let t := { s with
    waves := s.waves.filter fun p => !ks.contains p.1
    blocks := s.blocks.filter fun p => !bs.contains p.1
    mats := s.mats.filter fun p => p.2.gang != g
    access := s.access.filter fun a => !ks.contains a.wave
    badNames := s.badNames.filter fun (e : ErrPlace) => match e with
      | .laneName w _ _ => !ks.contains w
      | .uniformName w _ => !ks.contains w
      | .scratch b _ _ => !bs.contains b
      | .tile b _ _ => !bs.contains b
      | _ => true
    pubBlk := s.pubBlk.filter fun p => !bs.contains p.1 }
  let cs := (bs.flatMap fun b => ((s.block b).share.areas ((s.block b).core / 4)).map Prod.fst).eraseDups
  cs.foldl (fun s c => s.divide (s.launch (s.gang g).launch).ctx c)
    (t.setGang g { s.gang g with blocks := [], scratch := [], bars := [], convs := [] })

/-- BLOCK_END (R142): the kernel-end release of every wave; when the gang's last block ends the gang retires, and
its open claims return (R198). -/
def execBlockEnd (block : Nat) (s : State) : Host.Outcome State Fault Refusal :=
  .next (
    if s.blockOver block then
      let g := (s.block block).gang
      let s := ((s.block block).waves.foldl (fun s k => s.release k 3) s).passKnown g (s.block block).waves
      let s := s.setBlock block { s.block block with ended := true }
      if (s.gang g).blocks.all fun b => (s.block b).ended then
        let s := if (s.gang g).preempt == .draining then s else s.closeRequest g
        let s := ((s.unclaim g).unmapStack g).freeGang g
        s.setGang g { s.gang g with retired := true }
      else s
    else s)

/-- GANG_RETIRED (R375): the leaf controller reports a retired gang, once. -/
def execGangRetired (gang : Nat) (s : State) : Host.Outcome State Fault Refusal :=
  .next (
    let g := s.gang gang
    if g.used && g.retired && g.placed then
      (s.setGang gang { g with placed := false }).sendUp g.cluster (.gangRetired gang)
    else s)

end Sys2Proof.Machine
end

