-- ==== Sys2Proof/Machine/Image.lean ====
section
/-! DEFINITION. The bytes of a chrysalis image: its header, its sections and its digest (R341-R344). The manual lists what
each entry of a section holds and does not lay it out: here an entry is words of 8 bytes in the order listed, but for a
granule's own bytes (log 33). -/

namespace Sys2Proof.Machine

/-! ## Sections (R343) -/

/-- A section: its type, block and wave, and its entries. -/
structure Section where
  type    : Nat
  block   : Nat
  wave    : Nat
  entries : List (List Byte)
  deriving DecidableEq, Repr

/-- The WAVE of block state. -/
def blockState : Nat := 0xFF

/-- Words as bytes. -/
def wordBytes (ws : List Nat) : List Byte := ws.flatMap (leBytes 8)

/-- A section's bytes: its header, its entries, and zeros up to a multiple of 16. -/
def Section.bytes (x : Section) : List Byte :=
  let body := x.entries.flatten
  leBytes 8 (x.type * 2 ^ 48 + x.block * 2 ^ 40 + x.wave * 2 ^ 32 + x.entries.length % 2 ^ 32) ++ leBytes 8 body.length ++
    body ++ List.replicate (upTo body.length 16 - body.length) 0

/-! ## Waves -/

/-- A held state as a word: its code and what it is held at. -/
def Wait.heldWord : Wait → Nat
  | .barrier b => 1 + 16 * b
  | .snext => 2
  | .xmov send n => 3 + 16 * (2 * n + send.toNat)
  | .sysc => 4
  | .parked _ _ => 5
  | _ => 0

/-- A lane: PC, D with the predicate stack and its count and the exited bit, CR.EPC, held state. -/
def State.laneWords (s : State) (k l : Nat) : List Nat :=
  let t := (s.wave k).lane l
  [t.pc.toNat, t.depth + t.preds.toNat * 2 ^ 16 + t.count * 2 ^ 24 + t.exited.toNat * 2 ^ 32, t.epc.toNat,
    (s.laneWait k l).heldWord]

/-- Names as words: class and number. -/
def nameWord (cls name : Nat) : Nat := cls * 65536 + name

/-- One wave (type 0x0001). -/
def State.waveWords (s : State) (k : Nat) : List Nat :=
  let w := s.wave k
  let pending := w.tokens.map fun t => nameWord 1 t.name
  [(s.block w.block).sb.toNat, w.part, w.fflags.toNat, w.rmode.toNat, w.mmw, w.mmerr.toNat, w.errs.toNat, w.instar.toNat,
    2 * w.trapm.toNat + w.single.toNat, w.trapc.toNat, w.trapa.toNat,
    (w.phases.map fun p => p.2.toNat * 2 ^ p.1).sum, pending.length] ++ pending ++
    (List.range w.width).flatMap (s.laneWords k)

/-- The outstanding SYSCs of a wave (type 0x0008): wave, service number, argument, destination name. -/
def State.callEntries (s : State) (k : Nat) : List (List Byte) :=
  let w := s.wave k
  w.service.map fun c => wordBytes [w.index, c.num, c.arg.toNat,
    match s.instrAt k (c.lanes.headD 0) c.pc with
    | .sysc o => nameWord 1 o.dst.toNat
    | _ => 0]

/-! ## Granules (R341) -/

/-- Of a name's granules those that an image records. -/
def granulesOf (size : Nat) (full : Bool) (dirty : List Nat) : List Nat :=
  (List.range ((size + 127) / 128)).filter fun i => full || dirty.contains i

/-- One granule (type 0x0002): class, number, index, and 128 bytes of the name's slot form. -/
def State.granuleEntry (s : State) (b k : Nat) (n : NameInfo) (i : Nat) : List Byte :=
  let z := s.slotSize b n.cls n.name
  wordBytes [n.cls, n.name, i] ++ (List.range 128).map fun j =>
    if 128 * i + j < z then s.slotByte b k n.cls n.name (128 * i + j) else 0

/-- The names of a class whose granules an image records: those live at the save, and those pinned, whose operations go
on (R285). -/
def State.savedNames (s : State) (b cls : Nat) : List NameInfo :=
  let live := s.liveSet b
  (s.kernelOfBlock b).bound.filter fun n => n.cls == cls && (live.contains n.key || s.pinned b cls n.name)

/-- The granules of a wave's lane names. -/
def State.laneGranules (s : State) (b k : Nat) (full : Bool) : List (List Byte) :=
  (s.savedNames b 0).flatMap fun n =>
    (granulesOf (s.slotSize b 0 n.name) full (((s.wave k).dirty.filter fun d => d.1 == n.name).map Prod.snd)).map
      (s.granuleEntry b k n)

/-- The granules of a block's buffers and tiles; those of buffers of gang scope stand with block 0. -/
def State.blockGranules (s : State) (b : Nat) (full : Bool) : List (List Byte) :=
  ((s.savedNames b 2).filter fun n => !(n.gang && (s.headTable b).isSome)).flatMap (fun n =>
    (granulesOf (s.slotSize b 2 n.name) full (s.scratch b n.name).dirty).map (s.granuleEntry b 0 n)) ++
  (s.savedNames b 5).flatMap fun n =>
    (granulesOf 32768 full ((s.block b).tiles.get .zero n.name).dirty).map (s.granuleEntry b 0 n)

/-! ## Blocks and gangs -/

/-- Uniform names (type 0x0003). -/
def State.uniformEntries (s : State) (k : Nat) : List (List Byte) :=
  (List.range (s.declared (s.wave k)).unif).map fun n => wordBytes [n, ((s.wave k).unif.get 0 n).toNat]

/-- Accumulator tiles (type 0x0004): name, E, unset bit, RC. -/
def State.tileEntries (s : State) (b : Nat) : List (List Byte) :=
  (List.range (s.kernelOfBlock b).decl.acc).map fun n =>
    let t := (s.block b).tiles.get .zero n
    wordBytes [n, wrap 16 (t.exp.getD 0), t.exp.isNone.toNat, t.rc]

/-- A wave within its gang: block and wave index. -/
def State.waveWord (s : State) (k : Nat) : Nat := (s.block (s.wave k).block).index * 256 + (s.wave k).index

/-- Barriers, convergence registers and transfer slots (type 0x0005): class or 0xF for a slot, number, contents. -/
def State.syncEntries (s : State) (bars : Tab Barrier) (convs : Tab Conv) (slots : Tab Deposit) : List (List Byte) :=
  (bars.map fun p => wordBytes [3, p.1, p.2.count, p.2.phase.toNat]) ++
  (convs.map fun p => wordBytes ([4, p.1, p.2.count, ((p.2.op.map fun o => o + 1).getD 0), p.2.signed.length] ++
    p.2.signed.map s.waveWord)) ++
  slots.map fun p => wordBytes ([0xF, p.1, p.2.width, p.2.vals.length] ++ p.2.vals.flatMap fun v => [v.1, v.2.toNat])

/-- Grants (type 0x0006): GID, rectangle, instar. -/
def Gang.grantEntries (q : Gang) : List (List Byte) :=
  q.grants.map fun p => wordBytes (p.1 :: p.2.lo ++ p.2.ext ++ [p.2.instar])

/-- Words of bytes, each byte a word. -/
def byteWords (bs : List Byte) : List Nat := bs.length :: bs.map BitVec.toNat

/-- Engine operations (type 0x0007): kind, issuing wave, operands as fixed at issue, token name, progress, order, and a
palp command's partial results. -/
def State.copyEntry (s : State) (c : CopyOp) : List Byte :=
  wordBytes ([c.kind, s.waveWord c.wave, c.addr, c.ctl.toNat, c.buf] ++ c.entry.map BitVec.toNat ++ [c.idx.length] ++
    (c.idx.flatMap fun p => [p.1, p.2]) ++ [nameWord 1 c.token, c.rows, c.order])
def State.matEntry (s : State) (k : Nat) (m : MatOp) : List Byte :=
  wordBytes ([3 + m.ganged.toNat, s.waveWord m.wave] ++ ((encode (.mma m.ops)).map BitVec.toNat) ++
    [m.window, m.g.toNat, m.stride.toNat, m.parts.length] ++
    (m.parts.flatMap fun p => [(s.block p.block).index, p.steps]) ++ [((m.posted.map fun o => o + 1).getD 0), k])
def State.palpEntry (s : State) (p : PalpOp) : List Byte :=
  wordBytes ([8 + p.kind, s.waveWord p.wave, p.name, p.addr, p.ctl.toNat, p.buf] ++ byteWords p.par ++
    [nameWord 1 p.token, p.order, p.got.length] ++ p.got.flatMap fun g => [g.1, g.2.1] ++ byteWords g.2.2)
def State.collEntry (s : State) (c : CollOp) : List Byte :=
  wordBytes ([16 + c.op, s.waveWord c.wave, c.handle.toNat, c.ctl.toNat, c.n, c.dbuf, c.sbuf, nameWord 1 c.token, c.seq,
    c.src.isSome.toNat, c.order])

/-- The sections of a gang's image: those of its blocks and their waves in order, then the gang's. -/
def State.sections (s : State) (g : Nat) (full : Bool) : List Section :=
  let q := s.gang g
  let ofWave (b k : Nat) : List Section :=
    let i := (s.block b).index
    let j := (s.wave k).index
    [⟨1, i, j, [wordBytes (s.waveWords k)]⟩, ⟨2, i, j, s.laneGranules b k full⟩, ⟨3, i, j, s.uniformEntries k⟩,
      ⟨8, i, j, s.callEntries k⟩]
  let ofBlock (b : Nat) : List Section :=
    let x := s.block b
    let engines := (s.copies.filter fun p => p.2.block == b).map (fun p => s.copyEntry p.2) ++
      (s.mats.filter fun p => (s.wave p.2.wave).block == b && !p.2.complete).map (fun p => s.matEntry p.1 p.2) ++
      (s.palps.filter fun p => p.2.block == b).map (fun p => s.palpEntry p.2) ++
      (s.colls.filter fun p => p.2.block == b).map fun p => s.collEntry p.2
    (s.wavesOf b).flatMap (ofWave b) ++
      [⟨2, x.index, blockState, s.blockGranules b full⟩, ⟨4, x.index, blockState, s.tileEntries b⟩,
        ⟨5, x.index, blockState, s.syncEntries x.bars x.convs x.slots⟩, ⟨7, x.index, blockState, engines⟩]
  let ofGang : List Section :=
    [⟨5, 0, blockState, s.syncEntries q.bars q.convs []⟩, ⟨6, 0, blockState, q.grantEntries⟩]
  (q.blocks.flatMap ofBlock ++ ofGang).filter fun x => !x.entries.isEmpty

/-! ## Header and digest (R342) -/

/-- The digest of an image's bytes, their own 64 digest bytes taken as zero. -/
def imageDigest (bs : List Byte) : List Byte :=
  let d := Config.shake256 (bs.take 64 ++ List.replicate 64 0 ++ bs.drop 128)
  (List.range 64).map fun i => d.getD i 0

/-- An image's bytes with their digest in its place. -/
def sealed (bs : List Byte) : List Byte := bs.take 64 ++ imageDigest bs ++ bs.drop 128

/-- The image of a gang as it is written. -/
def State.imageBytes (s : State) (g kind seq base : Nat) : List Byte :=
  let q := s.gang g
  let ss := s.sections g (base == 0)
  let body := ss.flatMap Section.bytes
  sealed (wordBytes [2 ^ 48 + kind * 2 ^ 40 + q.blocks.length * 2 ^ 32 + ss.length, (s.launch q.launch).id, q.index, seq, base,
    128 + body.length, 0, 0] ++ List.replicate 64 0 ++ body)

/-- An image's bytes as they stand in memory: a marked word reads as zero (R216). -/
def State.imageRead (s : State) (i : Image) : List Byte :=
  (s.home i.addr i.size).zipIdx.map fun p => if s.bad.contains ((i.addr + p.2) / 8 * 8) then 0 else p.1

/-- An image's digest holds (R344). -/
def State.intact (s : State) (i : Image) : Bool := s.imageRead i == sealed (s.imageRead i)

/-- Images are given up, and their memory. -/
def State.dropImages (s : State) (p : Image → Bool) : State :=
  let gone := (s.images.filter p).map fun i => (1, i.addr, i.size)
  { s with images := s.images.filter fun i => !p i, frames := s.frames.filter fun f => !gone.contains f }

/-- An image of so many bytes may stand at an address: aligned, in home memory, and clear of what the executive has put
there (R342, log 25). -/
def State.imageFits (s : State) (addr size : Nat) : Bool :=
  addr % 128 == 0 && decide (addr + size ≤ 2 ^ 38) && (meetEnd (s.frames.map Prod.snd) addr size).isNone

/-- The newest image of a gang at an address. -/
def State.imageAt (s : State) (g addr : Nat) : Option Image :=
  s.images.reverse.find? fun i => i.addr == addr && i.key == g

/-- The chain from an image back to a full one verifies. -/
def State.chainOk (s : State) (g : Nat) : Nat → Nat → Bool
  | 0, _ => false
  | fuel + 1, addr =>
    match s.imageAt g addr with
    | some i => s.intact i && (i.base == 0 || s.chainOk g fuel i.base)
    | none => false

end Sys2Proof.Machine
end

