-- ==== Sys2Proof/Machine/Preempt.lean ====
section
/-! DEFINITION. Pre-emption: requests and the estimator, drain, discard, save and restore, and checkpoints
(R334-R345, R353, R388). -/

namespace Sys2Proof.Machine

/-! ## The estimator (R334, R335) -/

/-- Engine operations that a gang has in flight (AO). -/
def State.opsOf (s : State) (g : Nat) : Nat :=
  let mine (b : Nat) : Bool := (s.gang g).blocks.contains b
  (s.copies.filter fun p => mine p.2.block).length + (s.palps.filter fun p => mine p.2.block).length +
    (s.colls.filter fun p => mine p.2.block).length +
    (s.mats.filter fun p => p.2.gang == g && !p.2.complete).length

/-- Dirty granules of a block's live names (R341); those of gang-scope buffers stand with block 0. -/
def State.dirtyOf (s : State) (b : Nat) (head : Bool) : Nat :=
  let k := (s.launch (s.gang (s.block b).gang).launch).kernel
  let live := s.liveSet b
  let ns := k.bound.filter fun n => live.contains n.key
  (ns.map fun n => match n.cls with
    | 0 => ((s.wavesOf b).map fun j => ((s.wave j).dirty.filter fun d => d.1 == n.name).length).sum
    | 2 => if n.gang && !head then 0 else (s.scratch b n.name).dirty.length
    | 5 => ((s.block b).tiles.get .zero n.name).dirty.length
    | _ => 0).sum

/-- DB: bytes in dirty granules of the gang's live names. -/
def State.dirtyBytes (s : State) (g : Nat) : Nat :=
  128 * ((s.gang g).blocks.zipIdx.map fun b => s.dirtyOf b.1 (b.2 == 0)).sum

/-- CY: cycles for which the gang has been placed. -/
def State.cycles (s : State) (g : Nat) : Nat := (s.gang g).cy + (s.time - (s.gang g).since)

/-- What the estimator chooses (R335), by exact comparison of its two estimates. -/
def State.estimate (s : State) (g : Nat) (d : Nat) (allow : BitVec 3) : Preempt :=
  let q := s.gang g
  let cc := s.gangClaims g
  let ao := s.opsOf g
  let save := s.dirtyBytes g + 256 * (64 * ao + 4096)
  let m := min (256 * d) save
  let drains :=
    if cc == 0 then decide (256 * (2048 * ao) ≤ m)
    else q.cd != 0 && decide (256 * (s.cycles g * cc + 2048 * ao * q.cd) ≤ m * q.cd)
  if bit allow.toNat 0 && drains then .draining
  else if bit allow.toNat 1 && schMode (s.launch q.launch).sched == 1 && !q.coll && decide (256 * d < save) then
    .discarding
  else .saving

/-- A request must wait: a rebind of the gang or a checkpoint is under way (R334). -/
def State.requestWaits (s : State) (g : Nat) : Bool :=
  (s.gang g).blocks.any (fun b => !(s.block b).rebind.isEmpty) || s.checkpointing g

/-- The standing request is acted on, unless it must wait; its deadline is what is left of it (log 56). -/
def State.consider (s : State) (g : Nat) : State :=
  let q := s.gang g
  if s.requestWaits g then s.setGang g { q with preempt := .asked }
  else s.setGang g { q with preempt := s.estimate g (q.due - s.time) q.allow }

/-- A further request for a gang that has one pending (R334): one stands, with the earlier deadline and the common
actions. A drain or a discard that has not ended is chosen anew; a save goes on. -/
def State.joinRequest (s : State) (g due : Nat) (allow : BitVec 3) : State :=
  let q := s.gang g
  let t := s.setGang g { q with due := min q.due due, allow := q.allow &&& allow }
  if q.preempt == .saving || q.retired then t else t.consider g

/-- PREEMPTION_REQUEST (R334): one for an unplaced gang completes at once. -/
def execPreemptionRequest (gang deadline : Nat) (allow : BitVec 3) (s : State) : Host.Outcome State Fault Refusal :=
  .next (
    let q := s.gang gang
    let d := s.time + deadline % 2 ^ 32
    if !q.used then s
    else if q.preempt == .none && q.placed && !q.retired then
      (s.setGang gang { q with arrived := s.time, due := d, allow := allow }).consider gang
    else if q.preempt == .none || !q.placed then { s with reports := s.reports ++ [⟨gang, 0, 0, 0, false⟩] }
    else s.joinRequest gang d allow)

/-- PREEMPTION_REPORT (R340, R388): the leaf controller reports to the scheduler. -/
def execPreemptionReport (gang : Nat) (s : State) : Host.Outcome State Fault Refusal :=
  .next (match s.reports.find? fun r => r.gang == gang with
    | some r =>
      let q := s.gang gang
      let ws : List (BitVec 64) := [BitVec.ofNat 64 (4 * r.late.toNat + r.action), BitVec.ofNat 64 r.cycles, r.image,
        BitVec.ofNat 64 ((s.launch q.launch).id % 2 ^ 32 * 2 ^ 32 + q.index)]
      { s with reports := s.reports.erase r }.sendUp q.cluster (.preemptReport ws)
    | none => s)

/-! ## Discard (R337) -/

/-- The engine operations of a gang are dropped, without a token. -/
def State.dropOps (s : State) (g : Nat) : State :=
  let bs := (s.gang g).blocks
  { s with
    copies := s.copies.filter fun p => !bs.contains p.2.block
    palps := s.palps.filter fun p => !bs.contains p.2.block
    colls := s.colls.filter fun p => !bs.contains p.2.block
    mats := s.mats.filter fun p => p.2.gang != g }

/-- A gang is taken off the machine: its operations dropped, its claims returned, its stack regions unmapped, its
resources released; what its waves have seen is published at the launch's end (R237, R378). -/
def State.dropGang (s : State) (g : Nat) : State :=
  let n := (s.gang g).launch
  let v := (s.gangWaves g).foldl (fun v k => mergeView v (s.wave k).view) (s.launch n).view
  let s := (s.setLaunch n { s.launch n with view := v }).passKnown g (s.gangWaves g)
  (((s.dropOps g).unclaim g).unmapStack g).freeGang g

/-- Every wave of a gang is at a rebind point. -/
def State.gangAtPoint (s : State) (g : Nat) : Bool :=
  (s.gangWaves g).all fun k => s.atPoint k && (s.wave k).pend.isNone

/-- A discarded gang is as one that was never placed (R337, R141): it has no image either. Fault records that wait for their
signals stand (R380). -/
def State.forget (s : State) (g : Nat) : State :=
  (s.dropImages fun i => i.key == g).setGang g { s.gang g with
    placed := false, preempt := .none, halted := false, seq := 0, base := 0 }

/-- DISCARD (R337): the gang can be placed again as a fresh one. -/
def execDiscard (gang : Nat) (s : State) : Host.Outcome State Fault Refusal :=
  .next (
    if (s.gang gang).preempt == .discarding && s.gangAtPoint gang then ((s.report gang 2 0).dropGang gang).forget gang
    else s)

/-! ## Images (R338-R343) -/

/-- Everything that a gang's waves issued has been performed, and every result received, but tokens; no rebind of the gang
is under way (R323). -/
def State.gangQuiet (s : State) (g : Nat) : Bool :=
  s.gangAtPoint g && (s.gang g).blocks.all (fun b => (s.block b).rebind.isEmpty) && (s.gangWaves g).all fun k =>
    !(s.busy k fun _ => true) && !(s.wave k).flights.any fun f => f.remote.isSome

/-- Engines stop for a save (R339): of a palp command the parts not held by a fault run to their end. One that waits
for a held command on the same table waits with it (R303, log 57). -/
def State.stopEngines (s : State) (g : Nat) : State :=
  (s.palps.filter fun p => (s.gang g).blocks.contains p.2.block).foldl (fun s p => s.finishPalp p.1) s

/-- Every dirty bit of a gang is cleared. -/
def State.clean (s : State) (g : Nat) : State :=
  let tidy (t : Tab Scratch) : Tab Scratch := t.map fun p => (p.1, { p.2 with dirty := [] })
  let s := (s.gangWaves g).foldl (fun s k => s.onWave k fun w => { w with dirty := [] }) s
  let s := (s.gang g).blocks.foldl (fun s b => s.setBlock b { s.block b with
    scratch := tidy (s.block b).scratch
    tiles := (s.block b).tiles.map fun p => (p.1, { p.2 with dirty := [] }) }) s
  s.setGang g { s.gang g with scratch := tidy (s.gang g).scratch }

/-- A mark lies in a name of a gang. -/
def State.markOf (s : State) (g : Nat) : ErrPlace → Bool
  | .laneName w _ _ | .uniformName w _ => (s.gangWaves g).contains w
  | .scratch b _ _ | .tile b _ _ => (s.gang g).blocks.contains b
  | _ => false

/-- The bytes of the image that a gang's state now gives. -/
def State.nextImage (s : State) (g kind : Nat) : List Byte :=
  s.imageBytes g kind ((s.gang g).seq + 1) (if kind == 0 then 0 else (s.gang g).base.toNat)

/-- An image is written, and every dirty bit of the gang cleared (R338, R341): one that builds on no image is full. -/
def State.writeImage (s : State) (g : Nat) (kind : Nat) (addr : BitVec 64) : State :=
  let q := s.gang g
  let base := if kind == 0 then 0 else q.base.toNat
  let seq := q.seq + 1
  let h := s.nextImage g kind
  let marks := s.badNames.filter (s.markOf g)
  let s := (s.clean g).setGang g { (s.clean g).gang g with seq := seq, base := addr }
  let bs := (s.gang g).blocks
  let img : Image :=
    { addr := addr.toNat, size := h.length, header := h.take 128, kind := kind, seq := seq, base := base, key := g
      gang := { s.gang g with cy := s.cycles g }
      blocks := bs.map fun b => (b, s.block b)
      waves := (s.gangWaves g).map fun k => (k, s.wave k)
      copies := s.copies.filter fun p => bs.contains p.2.block
      mats := s.mats.filter fun p => p.2.gang == g
      palps := s.palps.filter fun p => bs.contains p.2.block
      colls := s.colls.filter fun p => bs.contains p.2.block
      marks := marks }
  { (s.keep 1 addr.toNat h.length).sysWrite addr.toNat h with images := s.images ++ [img] }

/-- A gang that is to be saved, its waves settled and its engines stopped. -/
def State.still (s : State) (g : Nat) : State :=
  ((s.gangWaves g).foldl (fun s k => (s.landAll k).settled k) s).stopEngines g

/-- The KIND of a save (R341, R342). -/
def Gang.saveKind (q : Gang) (full : Bool) : Nat := if full || q.base == 0 then 0 else 1

/-- Steps 2 to 6 of R338; an address at which the image cannot stand is none. -/
def State.saveGang (s : State) (g : Nat) (full : Bool) (addr : BitVec 64) : State :=
  let t := s.still g
  let kind := (s.gang g).saveKind full
  if !s.imageFits addr.toNat (t.nextImage g kind).length then s
  else
    let s := (t.gangWaves g).foldl (fun s k => s.release k 3) t
    let q := s.gang g
    let s := s.setGang g { q with cy := s.cycles g, since := s.time, placed := false, preempt := .saved }
    let s := s.writeImage g kind addr
    let grants := (s.gang g).grants
    let s := ((s.report g 3 addr).dropOps g).freeGang g
    s.setGang g { s.gang g with grants := grants }

/-- SAVE (R338): once the gang's waves are at rebind points and all they issued is performed. -/
def execSave (gang : Nat) (full : Bool) (addr : BitVec 64) (s : State) : Host.Outcome State Fault Refusal :=
  .next (if (s.gang gang).preempt == .saving && s.gangQuiet gang then s.saveGang gang full addr else s)

/-- A lane set with this wait goes on only when something else has happened: no request has stopped it. -/
def Wait.standing : Wait → Bool
  | .barrier _ | .snext | .xmov _ _ | .members _ | .sysc | .epoch _ | .fifo | .limit | .parked _ _ | .brk => true
  | _ => false

/-- Every wave of a draining gang has come to a rebind point (R320, R336): nothing has asked it to stop, so its lane sets
wait. -/
def State.drainQuiet (s : State) (g : Nat) : Bool :=
  s.gangQuiet g && (s.gangWaves g).all fun k => s.stopAsked k || (s.wave k).present.all fun l => (s.laneWait k l).standing

/-- DRAIN_END (R336, R340): the gang has retired; or it holds no grant and stands at rebind points, and is saved;
or the deadline is here, and it is to be saved. -/
def execDrainEnd (gang : Nat) (addr : BitVec 64) (s : State) : Host.Outcome State Fault Refusal :=
  .next (
    let q := s.gang gang
    if q.preempt != .draining then s
    else if q.retired then (s.report gang 1 0).setGang gang { q with preempt := .none }
    else if q.grants.isEmpty && s.drainQuiet gang then s.saveGang gang false addr
    else if q.due ≤ s.time then s.setGang gang { q with preempt := .saving }
    else s)

/-! ## Checkpoints (R353) -/

/-- The lane sets of a wave held at CKPT receive SEQ and go on. -/
def State.ckptDone (s : State) (k seq : Nat) : State :=
  s.goOnAll k .ckpt fun ls t => match t.instrAt k (ls.headD 0) ((t.wave k).lane (ls.headD 0)).pc with
    | .ckpt o => t.writeUnifOf k ls o.dst.toNat (BitVec.ofNat 64 seq)
    | _ => t

/-- CHECKPOINT_IMAGE (R353): an image of KIND 2; the gang goes on where it is. -/
def execCheckpointImage (gang : Nat) (addr : BitVec 64) (s : State) : Host.Outcome State Fault Refusal :=
  .next (
    if s.checkpointing gang && s.gangQuiet gang && !s.iss.granted then
      let ks := s.gangWaves gang
      let t := s.still gang
      if !s.imageFits addr.toNat (t.nextImage gang 2).length then s
      else ks.foldl (fun s k => s.ckptDone k (s.gang gang).seq) (t.writeImage gang 2 addr)
    else s)

/-! ## Restore (R344) -/

/-- A restored lane: of its waits stay those that a restore re-presents (R339, R343); its counts and marks are zero, its
windows closed, its code yet to be fetched. -/
def Lane.restored (t : Lane) : Lane :=
  { t with
    passed := 0, held := false, rest := false, windows := [], code := none
    wait := match t.wait with
      | .barrier _ | .sysc | .flags _ _ | .ended | .brk => t.wait
      | _ => .none }

/-- A wave of an image in its new place, with the acquire of R344. -/
def State.restoreWave (s : State) (k : Nat) (w : Wave) (core : Nat) : State :=
  let s := s.setWave k { w with
    slot := s.freeSlot core, since := s.time
    lanes := w.lanes.map fun p => (p.1, p.2.restored) }
  s.acquire k 3

/-- A block of an image in its new place: names outside the live set are in no granule of the image, but for pinned ones
(R285); where the kernel's tables have changed, every name that is not pinned is undefined (R400). -/
def State.restoreBlock (s : State) (g : Nat) (i : Nat) (b : Nat) (h : Share) : State :=
  let q := s.gang g
  let k := (s.launch q.launch).kernel
  let core := 4 * q.cluster + q.c0 + i
  let head := if i == 0 then none else (q.blocks.head?).map fun c => (s.block c).places
  let s := s.setBlock b { s.block b with share := h }
  let t := s.bindStore k core head (s.bindBlock k b head [] h (s.liveSet b))
  let s := s.setBlock b { s.block b with places := t }
  let live := s.liveSet b
  let changed := s.tablesChanged (s.launch q.launch)
  (k.bound.filter fun n => (n.cls != 1 || changed) && !s.pinned b n.cls n.name &&
    !(head.isSome && n.cls == 2 && n.gang)).foldl (fun s n =>
      s.moveName b (live.contains n.key && !changed) (!live.contains n.key) n) s

/-- Operations of an image go on in their new place (R339): those that were held by faults look again. -/
def Image.copiesOn (i : Image) : Tab CopyOp := i.copies.map fun p => (p.1, { p.2 with parked := none, held := false })
def Image.matsOn (i : Image) : Tab MatOp :=
  i.mats.map fun p => (p.1, { p.2 with parts := p.2.parts.map fun q => { q with parked := none, held := false } })
def Image.palpsOn (i : Image) : Tab PalpOp := i.palps.map fun p => (p.1, { p.2 with parked := [], held := 0 })

/-- The stack base of an image's gang (R22, R343). -/
def Image.sb (i : Image) : BitVec 64 := ((i.blocks.head?).map fun b => b.2.sb).getD 0

/-- The cores that the blocks of an image go to have places for its operations (R259, R267, R310, R371). -/
def State.engineRoom (s : State) (i : Image) (cluster c0 : Nat) : Bool :=
  i.blocks.all fun b =>
    let core := 4 * cluster + c0 + b.2.index
    let mine (k : Nat) : Bool := b.2.waves.contains k
    let collsOn := (s.colls.filter fun p => s.coreOf (s.wave p.2.wave) == core).length
    decide (s.copiesOn core + (i.copies.filter fun p => mine p.2.wave).length ≤ 1024) &&
      decide (s.palpsOn core + (i.palps.filter fun p => mine p.2.wave).length ≤ 256) &&
      decide (collsOn + (i.colls.filter fun p => mine p.2.wave).length ≤ 16) &&
      decide (s.fifoUsed core +
        (i.mats.filter fun p => !p.2.complete && p.2.parts.any fun q => q.block == b.1).length ≤ 16)

/-- What an image holds is put back: its gang, blocks and waves in their new places, its operations and marks (R344). Fault
records, and whether a debugger has let a halted gang go on, are as they are now (R350, R380). -/
def State.putImage (s : State) (g : Nat) (i : Image) (addr : BitVec 64) (cluster c0 : Nat) : State :=
  let s := s.setGang g { i.gang with
    cluster := cluster, c0 := c0, placed := true, preempt := .none, since := s.time
    blocks := i.blocks.map Prod.fst, seq := (s.gang g).seq, base := addr
    record := (s.gang g).record, halted := (s.gang g).halted, stack := (s.gang g).stack }
  let s := { s with
    copies := i.copiesOn.foldl (fun t p => t.put p.1 p.2) s.copies
    mats := i.matsOn.foldl (fun t p => t.put p.1 p.2) s.mats
    palps := i.palpsOn.foldl (fun t p => t.put p.1 p.2) s.palps
    colls := i.colls.foldl (fun t p => t.put p.1 p.2) s.colls
    badNames := s.badNames ++ i.marks }
  let s := i.blocks.foldl (fun s b => s.setBlock b.1 { b.2 with
    core := 4 * cluster + c0 + b.2.index, places := [], rebind := [], excess := [] }) s
  i.waves.foldl (fun s p => s.restoreWave p.1 p.2 (s.block p.2.block).core) s

/-- Lane sets of a gang that its debugger resumes go on (R350). -/
def State.resumeGang (s : State) (g : Nat) : State :=
  (s.gangWaves g).foldl (fun s k => (s.onWave k fun w => { w with stopped := false }).goOnAll k .brk fun _ t => t) s

/-- A gang of an image that halted and has been resumed since then. -/
def State.resumed (s : State) (g : Nat) (i : Image) : State :=
  if i.gang.halted && !(s.gang g).halted then s.resumeGang g else s

/-- RESTORE (R344): after the chain verifies and everything is reserved; where it does not verify, the launch
fails. -/
def execRestore (gang : Nat) (image : BitVec 64) (cluster c0 : Nat) (shares : List ShareSpec) (s : State) :
    Host.Outcome State Fault Refusal :=
  .next (
    let q := s.gang gang
    let l := s.launch q.launch
    if q.preempt != .saved then s
    else match s.chainOk gang (s.images.length + 1) image.toNat, s.imageAt gang image.toNat with
      | true, some img =>
        if s.placeable gang cluster c0 shares img.sb && s.engineRoom img cluster c0 then
          ((img.blocks.foldl (fun s b =>
            s.restoreBlock gang b.2.index b.1 (shares.getD b.2.index ⟨0, 0, 0, 0, 0, 0, 0, 0, 0, 0⟩))
            (s.putImage gang img image cluster c0)).divideFor l.ctx cluster shares).resumed gang img
        else s
      | _, _ => { (s.setLaunch q.launch { l with status := 4 }) with agenda := (0, .endLaunch q.launch) :: s.agenda })

end Sys2Proof.Machine
end

