-- ==== Sys2Proof/Machine/Command.lean ====
section
/-! DEFINITION. The command set: queues, packets, launches, signal records, vectors and the command tree
(R375-R382, R385, R388). -/

namespace Sys2Proof.Machine

/-! ## Vectors (R385) -/

/-- A vector is raised: pending while masked, as every vector is until the host unmasks it. -/
def State.raiseVector (s : State) (v : Nat) : State :=
  if 2048 ≤ v then s
  else if s.masks.get true v then
    if s.vectors.contains v then s else { s with vectors := s.vectors ++ [v] }
  else { s with msi := s.msi ++ [v] }

/-- VECTOR_UNMASK (R372, R385): the host writes a vector's mask bit; where it unmasks the vector, a pending message is
delivered. -/
def execVectorUnmask (v : VectorWrite) (s : State) : Host.Outcome State Fault Refusal :=
  .next (
    let t := { s with masks := s.masks.put v.vector (!v.unmask) }
    if v.unmask && s.vectors.contains v.vector then
      { t with vectors := s.vectors.filter (· != v.vector), msi := s.msi ++ [v.vector] }
    else t)

/-! ## Queues (R380, R382) -/

/-- The words of a queue's descriptor, but WIDX. -/
def Queue.words (q : Queue) (qid : Nat) : List (Nat × Nat) :=
  [(0, qid * 2 ^ 32 + q.vector * 2 ^ 16 + q.log2n * 2 ^ 4 + q.state * 2 ^ 2), (1, q.base), (3, q.ridx),
   (4, q.lastid), (5, q.sigring), (6, q.sigidx % 2 ^ 32 * 2 ^ 32 + q.window), (7, q.pid * 2 ^ 32)]

/-- The executive writes a queue's descriptor. -/
def State.putDesc (s : State) (qid : Nat) : State :=
  let q := s.queue qid
  (q.words qid).foldl (fun s w => s.ctxWrite q.ctx (q.desc + 8 * w.1) (leBytes 8 w.2)) s

/-- A signal record is written to a queue's ring, and its vector raised (R380). -/
def State.signalRecord (s : State) (qid kind reason addr launch : Nat) : State :=
  let q := s.queue qid
  let s := s.ctxWrite q.ctx (q.sigring + 32 * (q.sigidx % 64))
    (leBytes 8 (reason * 256 + kind) ++ leBytes 8 qid ++ leBytes 8 addr ++ leBytes 8 launch)
  ((s.setQueue qid { q with sigidx := q.sigidx + 1 }).putDesc qid).raiseVector q.vector

/-- Fields of a packet's word 0 (R377). -/
def pkType (ws : List (BitVec 64)) : Nat := bits (schWord ws 0) 7 0
def pkOrd (ws : List (BitVec 64)) : Bool := bit (schWord ws 0) 8 || pkType ws != 1
def pkInt (ws : List (BitVec 64)) : Bool := bit (schWord ws 0) 13
def pkArg (ws : List (BitVec 64)) : Nat := bits (schWord ws 0) 63 32

/-- The code object whose descriptor a process's LAUNCH names (R379, R404). -/
def State.objectOf (s : State) (pid desc : Nat) : Option CodeObj :=
  s.objects.find? fun o => o.pid == pid && !o.unloading && decide (o.kdesc ≤ desc) &&
    decide (desc < o.kdesc + 256 * o.kernels) && (desc - o.kdesc) % 256 == 0

/-- Check 2 of R379. -/
def State.packetMapped (s : State) (ctx : Nat) (ws : List (BitVec 64)) : Bool :=
  let a (i : Nat) := schWord ws i
  let sync (e : Nat) := leafSync e
  match pkType ws with
  | 1 => a 3 % 128 == 0 && a 4 % 64 == 0 && a 5 % 8 == 0 && s.mapped ctx (a 1) 256 leafR &&
      s.mapped ctx (a 2) (8 * bits (s.ctxWord ctx (a 1 + 32)) 63 48) leafR && s.mapped ctx (a 3) 128 leafR &&
      s.mapped ctx (a 4) 64 leafW && (a 5 == 0 || s.mapped ctx (a 5) 8 fun e => leafW e && sync e)
  | 2 => a 1 % 8 == 0 && s.mapped ctx (a 1) 8 fun e => leafR e && sync e
  | 3 => a 1 % 8 == 0 && s.mapped ctx (a 1) 8 fun e => leafW e && sync e
  | _ => a 1 % 16 == 0 && s.mapped ctx (a 1) 16 leafW

/-- Whether a schedule block is valid (R182), its map on SYNC pages. -/
def State.schValid (s : State) (ctx : Nat) (sch : List (BitVec 64)) : Bool :=
  schOk sch && s.mapped ctx (schMap sch) (schMapBytes sch) leafSync

/-- The first check of R379 that a packet fails. -/
def State.packetError (s : State) (q : Queue) (ws : List (BitVec 64)) : Option Nat :=
  let w0 := schWord ws 0
  let ty := pkType ws
  let zero (i : Nat) := schWord ws i == 0
  let sch := (s.ctxWords q.ctx (schWord ws 3) 16).getD []
  if !(decide (1 ≤ ty) && decide (ty ≤ 4)) || bits w0 31 15 != 0 || bits w0 10 9 != 0 ||
      (if ty == 1 then !zero 7 else bit w0 14 || pkArg ws != 0 || !((List.range 5).all fun i => zero (3 + i))) then some 1
  else if !s.packetMapped q.ctx ws then some 2
  else if ty != 1 then none
  else if (s.objectOf q.pid (schWord ws 1)).isNone then some 3
  else if !s.schValid q.ctx sch then some 4
  else if pkArg ws == 0 || decide (2 ^ 32 < pkArg ws * schGang sch) then some 5
  else none

/-! ## Acceptance (R377-R379, R382) -/

/-- A leaf of a page that is only read: V and R (R209). -/
def readLeaf (pa : Nat) : Nat := pa / 2 ^ 16 * 2 ^ 16 + 3

/-- The executive places a launch's fault ring in device memory and maps its page to the process to be read, from an
address of its choice at which nothing is mapped (R329, log 25); the two addresses. -/
def State.mapRing (s : State) (ctx id : Nat) : State × Nat × Nat :=
  let root := (s.context ctx).root
  let va := ((findFrom (fun i => (s.walk root (i * 2 ^ 16)).isNone) (2 ^ 40) (chosen 1 id (2 ^ 16) / 2 ^ 16)).getD 0) * 2 ^ 16
  (s.mapOwn root va 0 readLeaf, s.site 0 s.nextOp (2 ^ 16) (2 ^ 16), va)

/-- The launch of an accepted packet: its schedule block copied, its id assigned, words 0 and 1 of its time
record written (R378). The submitter's thread is a free value (log 34). -/
def State.newLaunch (s : State) (qid : Nat) (ws : List (BitVec 64)) (t0 : Nat) : State × Nat :=
  let q := s.queue qid
  let key := s.nextOp
  let id := s.nextId
  let sch := (s.ctxWords q.ctx (schWord ws 3) 16).getD []
  let sch := (sch.set 10 0).zipIdx.map fun w => if 12 ≤ w.2 then 0 else w.1
  let w0 := schWord ws 0
  let m := s.fresh.mapRing q.ctx id
  let l : Launch := { Launch.absent with
    used := true, id := id, queue := qid, ctx := q.ctx, pid := q.pid, tid := (s.undef (tagMisc 0)).toNat % 2 ^ 32
    count := pkArg ws, sched := sch, shadow := sch, dbg := bit w0 14, tun := bit w0 12, swp := bit w0 11
    int := pkInt ws, ring := m.2.1, ringVa := m.2.2, home := Config.execPlace 9 id % 64, packet := schWord ws 1, time := BitVec.ofNat 64 (schWord ws 4)
    signal := BitVec.ofNat 64 (schWord ws 5), sigval := BitVec.ofNat 64 (schWord ws 6), t0 := t0
    spent := [s.time - t0, 0, 0, 0, 0], status := 0, ended := false }
  let s := { m.1 with nextId := id + 1 }.setLaunch key l
  let s := s.setQueue qid { s.queue qid with lastid := id }
  (s.ctxWrite q.ctx (schWord ws 4) (leBytes 8 id ++ leBytes 8 t0), key)

/-- The scheduler's local trap for a packet that fails a check (R379): its registers show the trap; the executive, which
delivers the signal record, goes on. DESIGN CHOICE (log 79): the cause is left open. -/
def State.packetTrap (s : State) (reason addr : Nat) : State :=
  if !s.ctls.has s.sched then s
  else s.onWave (s.ctl s.sched).wave fun w =>
    { (w.setLane 0 { w.lane 0 with epc := (w.lane 0).pc }) with
      trapc := Config.packetCause reason, trapa := BitVec.ofNat 64 addr }

/-- One entry is accepted, or halts the queue with a signal record. -/
def State.acceptOne (s : State) (qid : Nat) : State :=
  let q := s.queue qid
  let addr := q.base + 64 * (q.ridx % 2 ^ q.log2n)
  let t0 := ((q.bells.find? fun b => decide (q.ridx < b.1)).map Prod.snd).getD s.time
  let err : Option Nat × List (BitVec 64) := match s.ctxWords q.ctx addr 8 with
    | some ws => (s.packetError q ws, ws)
    | none => (some 1, [])
  match err with
  | (some r, _) => (((s.packetTrap r addr).setQueue qid { q with state := 1 }).putDesc qid).signalRecord qid 1 r addr 0
  | (none, ws) =>
    let r : State × Option Nat := if pkType ws == 1 then (let x := s.newLaunch qid ws t0; (x.1, some x.2)) else (s, none)
    let s := r.1
    let q := s.queue qid
    (s.setQueue qid { q with
      ridx := q.ridx + 1
      bells := q.bells.filter fun b => decide (q.ridx + 1 < b.1)
      packets := q.packets ++ [⟨addr, ws, t0, false, false, r.2⟩] }).putDesc qid

/-- Entries RIDX to WIDX - 1 are accepted in order while the queue runs. -/
def State.accept (s : State) (qid : Nat) : State :=
  (List.range ((s.queue qid).widx - (s.queue qid).ridx)).foldl (fun s _ =>
    if (s.queue qid).state == 0 && !(s.queue qid).closing then s.acceptOne qid else s) s

/-- A new write index for a queue: one out of range is ignored (R382). -/
def State.ringBell (s : State) (qid n : Nat) : State :=
  let q := s.queue qid
  if n < q.ridx || q.ridx + 2 ^ q.log2n < n then s
  else
    let s := s.setQueue qid { q with widx := n, bells := q.bells ++ [(n, s.time)] }
    if qid == 0 then s else s.accept qid

/-- HOST_DOORBELL (R372, R382): the value becomes WIDX of the queue of one of BAR0's windows; the scheduler core's CR.EVENT
shows it. -/
def execHostDoorbell (window : Nat) (value : BitVec 64) (s : State) : Host.Outcome State Fault Refusal :=
  .next (match s.queues.find? fun p => p.2.used && p.2.state != 2 && p.2.window == window && decide (window ≤ 8191) with
    | some (qid, q) =>
      let n := value.toNat
      let s := s.signalEvent s.sched 2
      if n < q.ridx || q.ridx + 2 ^ q.log2n < n then s
      else (s.ctxWrite q.ctx (q.desc + 16) (leBytes 8 n)).ringBell qid n
    | none => s)

/-- QUEUE_DOORBELL (R381): service 0 for a device producer, whose WIDX stands in the descriptor. -/
def execQueueDoorbell (wave : Nat) (s : State) : Host.Outcome State Fault Refusal :=
  .next (match s.openCall wave with
    | some c =>
      if c.num != 0 || s.iss.granted then s
      else
        let qid := c.arg.toNat
        let q := s.queue qid
        if q.used && q.state != 2 && q.pid == (s.launch (s.launchOf (s.wave wave))).pid && qid != 0 then
          ((s.signalEvent s.sched 2).ringBell qid (s.ctxWord q.ctx (q.desc + 16))).replySysc wave 0
        else s.replySysc wave allOnes
    | none => s)

/-! ## Packets (R377, R378) -/

/-- The WAIT that holds a queue. -/
def Queue.waiting (q : Queue) : Option (Nat × Packet64) :=
  (q.packets.zipIdx.find? fun p => p.1.started && !p.1.done && pkType p.1.words == 2).map fun p => (p.2, p.1)

/-- The first packet of a queue that has not started, with its place; none while an earlier one must complete, or a WAIT
holds the queue (R377). -/
def Queue.nextPacket (q : Queue) : Option (Nat × Packet64) :=
  if q.waiting.isSome then none
  else match q.packets.zipIdx.find? fun p => !p.1.started with
    | some (p, i) => if pkOrd p.words && !((q.packets.take i).all fun x => x.done) then none else some (i, p)
    | none => none

/-- Change a packet of a queue. -/
def State.onPacket (s : State) (qid i : Nat) (f : Packet64 → Packet64) : State :=
  let q := s.queue qid
  s.setQueue qid { q with packets := q.packets.zipIdx.map fun p => if p.2 == i then f p.1 else p.1 }

/-- A packet completes; with INT its queue's vector is raised (R385). -/
def State.completePacket (s : State) (qid i : Nat) : State :=
  let q := s.queue qid
  let s := s.onPacket qid i fun p => { p with started := true, done := true }
  if ((q.packets[i]?).map fun p => pkInt p.words).getD false then s.raiseVector q.vector else s

/-- The executive zeroes the coverage map, whatever other map lies on its pages (R183). -/
def State.zeroMap (s : State) (l : Launch) : State :=
  (pieces (schMap l.sched) (List.replicate (schMapBytes l.sched) 0)).foldl (fun s p => s.ctxPiece l.ctx p.1 p.2 true) s

/-- The gangs of a launch are created, unplaced. -/
def State.makeGangs (s : State) (launch n : Nat) : State :=
  (List.range n).foldl (fun s i =>
    let key := s.nextOp
    let s := s.fresh.setGang key { Gang.absent with used := true, launch := launch, index := i, retired := false }
    s.setLaunch launch { s.launch launch with gangs := (s.launch launch).gangs ++ [key] }) s

/-- LAUNCH (R378): the launch begins: kernel, arguments and resources as they stand, the map zeroed and made
read-only (R183), the gangs created. -/
def execLaunch (queue : Nat) (s : State) : Host.Outcome State Fault Refusal :=
  .next (match (s.queue queue).nextPacket with
    | some (i, p) =>
      match p.launch with
      | some key =>
        let l := s.launch key
        let k := s.readKernel l.ctx l.packet
        let args := (s.ctxWords l.ctx (schWord p.words 2) k.params.length).getD []
        let s := s.onPacket queue i fun p => { p with started := true }
        let s := s.zeroMap l
        let known := (s.queue queue).known
        let s := s.setLaunch key { l with kernel := k, args := args, guarded := true, before := known, known := known }
        if l.ended then s else s.makeGangs key l.count
      | none => s
    | none => s)

/-- The condition of a WAIT (R378). -/
def State.waitMet (s : State) (q : Queue) (p : Packet64) : Bool :=
  decide (schWord p.words 2 ≤ s.ctxWord q.ctx (schWord p.words 1))

/-- Publications that happen before a read of a word by the scheduler: those of the write that it returns (R238). -/
def State.toldBy (s : State) (ctx va : Nat) : List Nat :=
  match s.ctxPa ctx va with
  | some (pa, _) => if bit pa 55 then [] else s.carry.get [] (max (s.published 2 pa) (s.flushed.get 0 pa))
  | none => []

/-- A WAIT passes: what its signal tells is known to the queue's later launches (R237, R238). -/
def State.passWait (s : State) (qid i : Nat) (p : Packet64) : State :=
  let q := s.queue qid
  (s.setQueue qid { q with known := joinKnown q.known (s.toldBy q.ctx (schWord p.words 1)) }).completePacket qid i

/-- WAIT (R378): its turn has come and the scheduler reads the signal. -/
def execWait (queue : Nat) (s : State) : Host.Outcome State Fault Refusal :=
  .next (match (s.queue queue).nextPacket with
    | some (i, p) =>
      if pkType p.words != 2 then s
      else if s.waitMet (s.queue queue) p then s.passWait queue i p
      else s.onPacket queue i fun p => { p with started := true }
    | none => s)

/-- WAIT_POLL (R378): the scheduler reads the signal again. -/
def execWaitPoll (queue : Nat) (s : State) : Host.Outcome State Fault Refusal :=
  .next (match (s.queue queue).waiting with
    | some (i, p) => if s.waitMet (s.queue queue) p then s.passWait queue i p else s
    | none => s)

/-- Writes of a queue's launches that the scheduler's release publishes (R237), those to pages with non-atomic propagation on
their own; the numbers of such publications. -/
def State.publishLaunch (s : State) (v : Tab Nat) : State × List Nat :=
  let loose := v.filter fun p => s.loose.contains (frameOf p.1)
  let t := { s with pubSys := mergeView s.pubSys (v.filter fun p => !s.loose.contains (frameOf p.1)) }
  if loose.isEmpty then (t, [])
  else ({ t with pubs := s.pubs ++ [⟨s.pubs.length, 3, 2 ^ 62, 2 ^ 62, loose⟩] }, [s.pubs.length])

/-- A signal is written, as one store; who reads it learns of these publications (R238, R378). -/
def State.signalWrite (s : State) (ctx va v : Nat) (ns : List Nat) : State :=
  let t := s.ctxWrite ctx va (leBytes 8 v)
  match s.ctxPa ctx va with
  | some (pa, leaf) =>
    if ns.isEmpty || bit pa 55 then t
    else { t with carry := (copiesFor leaf pa).foldl (fun c a => c.put (t.homeHead a) ns) t.carry }
  | none => t

/-- SIGNAL (R378): a .SYS release of the queue's earlier packets, then the value. -/
def execSignal (queue : Nat) (s : State) : Host.Outcome State Fault Refusal :=
  .next (match (s.queue queue).nextPacket with
    | some (i, p) =>
      if pkType p.words != 3 then s
      else
        let q := s.queue queue
        let ls := (q.packets.take i).filterMap fun x => x.launch.map s.launch
        let r := s.publishLaunch (ls.foldl (fun v l => mergeView v l.view) [])
        let ns := ls.foldl (fun ns l => joinKnown ns l.known) (joinKnown r.2 q.known)
        (r.1.signalWrite q.ctx (schWord p.words 1) (schWord p.words 2) ns).completePacket queue i
    | none => s)

/-- MARKER (R378). -/
def execMarker (queue : Nat) (s : State) : Host.Outcome State Fault Refusal :=
  .next (match (s.queue queue).nextPacket with
    | some (i, p) =>
      if pkType p.words != 4 then s
      else
        let q := s.queue queue
        (s.ctxWrite q.ctx (schWord p.words 1)
          (leBytes 8 (s.coreTime (256 + s.sched)) ++ leBytes 8 (schWord p.words 2))).completePacket queue i
    | none => s)

/-! ## The end of a launch (R198, R378, R380, R388) -/

/-- The status of a launch that ends: incomplete coverage where it granted a tile and a cell is not done. -/
def State.finalStatus (s : State) (l : Launch) : Nat :=
  if l.status != 0 then l.status
  else if schWord l.sched 12 != 0 && !((List.range (schCells l.sched)).all fun c => s.cell l c == 3) then 2
  else 1

/-- A launch is over: it has started, and its gangs have all retired and been reported, their records and their pre-emption
reports too (R325, R340). -/
def State.launchOver (s : State) (n : Nat) : Bool :=
  let l := s.launch n
  l.used && !l.ended && (l.guarded || l.status != 0) &&
    l.gangs.all fun g => (s.gang g).retired && !(s.gang g).placed && (s.gang g).preempt != .draining &&
      (s.gang g).record.isEmpty && !(s.reports.any fun r => r.gang == g)

/-- LAUNCH_END (R378): the release, the map's pages restored (R183), the signal, the time record, and, for a
status other than 1, a signal record; the packet completes. -/
def execLaunchEnd (launch : Nat) (s : State) : Host.Outcome State Fault Refusal :=
  .next (
    if s.launchOver launch then
      let l := s.launch launch
      let st := s.finalStatus l
      let r := s.publishLaunch l.view
      let ns := joinKnown r.2 l.known
      let s := r.1.setLaunch launch { l with ended := true, status := st, guarded := false, view := [], known := ns }
      let s := { s with gangs := s.gangs.filter fun p => !l.gangs.contains p.1 }.dropImages fun i => l.gangs.contains i.key
      let s := if l.signal == 0 then s else s.signalWrite l.ctx l.signal.toNat l.sigval.toNat ns
      let c (i : Nat) : List Byte := leBytes 8 (l.spent.getD i 0)
      let s := s.ctxWrite l.ctx l.time.toNat (leBytes 8 (st * 2 ^ 56 + l.id))
      let s := s.ctxWrite l.ctx (l.time.toNat + 16) (leBytes 8 s.time ++ c 0 ++ c 1 ++ c 2 ++ c 3 ++ c 4)
      let q := s.queue l.queue
      match q.packets.zipIdx.find? fun p => p.1.launch == some launch with
      | some (p, i) =>
        let s := if st == 1 then s else s.signalRecord l.queue 4 0 p.addr l.id
        s.completePacket l.queue i
      | none => s
    else s)

/-- A wave of a launch is held at a MOLT that is not yet performed (R199). -/
def State.launchMolts (s : State) (l : Launch) : Bool := l.gangs.any fun g => (s.gangWaves g).any fun k => (s.wave k).molting

/-- END_LAUNCH (R375, R388): the launch's gangs are ended, wherever they stand, once no MOLT of theirs is held (R199);
until then the event stays due. -/
def execEndLaunch (launch : Nat) (s : State) : Host.Outcome State Fault Refusal :=
  .next (
    let l := s.launch launch
    if !l.used || l.ended then s
    else if s.iss.granted || s.launchMolts l then { s with agenda := (s.time + 1, .endLaunch launch) :: s.agenda }
    else
      let s := l.gangs.foldl (fun s g =>
        if (s.gang g).retired then s
        else
          let t := (s.closeRequest g).dropGang g
          t.setGang g { t.gang g with
            retired := true, placed := false, halted := false, preempt := .none }) s
      s.setLaunch launch { s.launch launch with status := if l.status == 0 then 3 else l.status })

/-! ## Fault records and the command tree (R329, R375, R376) -/

/-- The address, in the process, of a record of a launch's fault ring (R380). -/
def Launch.recordVa (l : Launch) (a : BitVec 64) : Nat := l.ringVa + (a.toNat - l.ring)

/-- FAULT_RECORD_WRITTEN (R325, R329, R380): the oldest record of a gang that halted reaches the process as a signal. -/
def execFaultRecordWritten (launch : Nat) (s : State) : Host.Outcome State Fault Refusal :=
  .next (
    let l := s.launch launch
    match l.gangs.find? fun g => !(s.gang g).record.isEmpty with
    | some g =>
      let a := (s.gang g).record.headD 0
      (s.setGang g { s.gang g with record := (s.gang g).record.tail }).signalRecord l.queue 2 0 (l.recordVa a) l.id
    | none => s)

/-- DEBUGGER_RESUME (R350, R375): a halted gang, or a halted wave, goes on; lane sets halted at a BRK at the instruction
after it. -/
def execDebuggerResume (gang : Nat) (wave : Option Nat) (s : State) : Host.Outcome State Fault Refusal :=
  .next (
    if s.iss.granted then s
    else match wave with
    | some k => if s.gangOf (s.wave k) == gang then s.onWave k fun w => { w with stopped := false } else s
    | none =>
      let s := s.setGang gang { s.gang gang with halted := false }
      s.resumeGang gang)

/-- The leaf controllers that an order of the scheduler's goes to, by their command links (R375); none for what is no
order. A launch's end goes to the clusters of its gangs, or to its home. -/
def State.orderLinks (s : State) (i : Instr) : Option (List Nat) :=
  match i with
  | .placeGang _ c _ _ _ | .restore _ _ c _ _ => some [c]
  | .shareChange b _ => some [(s.block b).core / 4]
  | .preemptionRequest g _ _ | .debuggerResume g _ => some [(s.gang g).cluster]
  | .endLaunch n =>
    let cs := (((s.launch n).gangs.filter fun g => (s.gang g).placed).map fun g => (s.gang g).cluster).eraseDups
    some (if cs.isEmpty then [(s.launch n).home] else cs)
  | _ => none

/-- The scheduler sends an order (R375); a link that does not exist carries none. -/
def State.sendOrder (s : State) (i : Instr) (links : List Nat) : State :=
  (links.filter fun c => decide (c < 64)).foldl (fun s c => s.sendDown c (.order i)) s

/-- What is done with a message that is removed from an inbox: a report goes to the executive's ring, an order is carried
out next. -/
def State.takeMessage (s : State) (m : LinkMsg) : State :=
  match m with
  | .preemptReport ws => { s with ring := s.ring ++ [ws] }
  | .raw _ => s
  | .faultNotice _ _ => s
  | .gangRetired _ => s
  | .faultRecord _ => s
  | .claims _ => s
  | .order i => { s with orders := s.orders ++ [i] }

/-- The oldest message toward the scheduler is removed and its permit returns; a message that waits for one follows. -/
def State.popUp (s : State) (link : Nat) : State :=
  let c := s.clink link
  match c.upHeld with
  | m :: ms => (s.setClink link { c with up := c.up.drop 1 ++ [m], upHeld := ms }).signalEvent s.sched 1
  | [] => s.setClink link { c with up := c.up.drop 1, upPermits := c.upPermits + 1 }

/-- The oldest message toward a leaf controller is removed and its permit returns; a message that waits for one follows,
and lane sets held for one look again. -/
def State.popDown (s : State) (link : Nat) : State :=
  let c := s.clink link
  let s := s.setClink link (match c.downHeld with
    | m :: ms => { c with down := c.down.drop 1 ++ [m], downHeld := ms }
    | [] => { c with down := c.down.drop 1, downPermits := c.downPermits + 1 })
  { s with waves := s.waves.map fun p => (p.1, p.2.wake fun x => x == .clsend) }

/-- COMMAND_LINK_MESSAGE (R375): the oldest message leaves its inbox and its permit returns. -/
def execCommandLinkMessage (link : Nat) (up : Bool) (s : State) : Host.Outcome State Fault Refusal :=
  .next (
    let c := s.clink link
    match (if up then c.up else c.down).head? with
    | some m => (if up then s.popUp link else s.popDown link).takeMessage m
    | none => s)

/-- HEARTBEAT (R376): the standby hears the scheduler of die 0. -/
def execHeartbeat (s : State) : Host.Outcome State Fault Refusal :=
  .next (if s.sched == 0 then { s with beat := s.time } else s)

/-- 100 µs at 2.25 GHz (R1). -/
def beatLimit : Nat := 225000

/-- SCHEDULER_TAKEOVER (R376): after 100 µs without a heartbeat, the standby, control core 0 of die 1, takes the
role; the queues stand as recorded. -/
def execSchedulerTakeover (s : State) : Host.Outcome State Fault Refusal :=
  .next (if s.sched == 0 && decide (beatLimit ≤ s.time - s.beat) then { s with sched := 8 }.signalEvent 8 16 else s)

end Sys2Proof.Machine
end

