-- ==== Sys2Proof/Machine/Exec.lean ====
section
/-! DEFINITION. The executive's services and requests (R331, R381, R383, R384, R389). -/

namespace Sys2Proof.Machine

/-! ## SYSC services (R381) -/

/-- The process of a wave. -/
def State.pidOf (s : State) (k : Nat) : Nat := (s.launch (s.launchOf (s.wave k))).pid

/-- A wave's oldest SYSC without a reply, where it asks for service `n`. -/
def State.asks (s : State) (k n : Nat) : Option Call :=
  (s.openCall k).filter fun c => c.num == n && !s.iss.granted

/-- STORAGE_READ (R381): the bytes that storage gives go to device memory; the reply counts them. A block that
cannot be read asks for nothing. -/
def execStorageRead (wave : Nat) (data : List (BitVec 8)) (s : State) : Host.Outcome State Fault Refusal :=
  .next (match s.asks wave 1 with
    | some c =>
      let ctx := s.ctxOf (s.wave wave)
      match s.ctxWords ctx c.arg.toNat 4 with
      | some ws =>
        let bs := data.take (schWord ws 2)
        (s.ctxWrite ctx (schWord ws 3) bs).replySysc wave (BitVec.ofNat 64 bs.length)
      | none => s.replySysc wave 0
    | none => s)

/-- STORAGE_WRITE (R381): the reply counts the bytes that storage took, at most the length asked for. -/
def execStorageWrite (wave accepted : Nat) (s : State) : Host.Outcome State Fault Refusal :=
  .next (match s.asks wave 2 with
    | some c => match s.ctxWords (s.ctxOf (s.wave wave)) c.arg.toNat 4 with
      | some ws => s.replySysc wave (BitVec.ofNat 64 (min accepted (schWord ws 2)))
      | none => s.replySysc wave 0
    | none => s)

/-- DEBUGGER_LOG (R381): a line of 256 bytes. -/
def execDebuggerLog (wave : Nat) (s : State) : Host.Outcome State Fault Refusal :=
  .next (match s.asks wave 3 with
    | some c =>
      let line := (s.ctxRead (s.ctxOf (s.wave wave)) c.arg.toNat 256).getD []
      { s with log := s.log ++ [line] }.replySysc wave 0
    | none => s)

/-! ## Requests (R383) -/

/-- A request of the executive. -/
def State.req (s : State) (k : Nat) : Request := s.reqs.get ⟨.host, 0, 0, 0, [], 0, 0⟩ k

/-- Argument `i` of a request. -/
def Request.arg (r : Request) (i : Nat) : Nat := schWord r.words (1 + i)

/-- A request ends: RESULT and then STATUS are written; a wave receives its reply, and for the host vector 0 is
raised. -/
def State.endOne (s : State) (k status result : Nat) : State :=
  let r := s.req k
  let s := { s with reqs := s.reqs.del k }
  let s := s.ctxWrite r.ctx (r.addr + 48) (leBytes 8 (if status == 0 then result else 0))
  let s := s.ctxWrite r.ctx (r.addr + 7) (leBytes 1 status)
  match r.src with
  | .wave _ => s.answer r.call (BitVec.ofNat 64 status)
  | .host => s.raiseVector 0

/-- Bad fields of a request block: an unknown kind, or a zero field that is not zero. -/
def requestBad (host : Bool) (ws : List (BitVec 64)) : Bool :=
  let w0 := schWord ws 0
  bits w0 55 16 != 0 || bits w0 15 0 == 0 || decide (15 < bits w0 15 0) || bits (schWord ws 7) 63 32 != 0 ||
    (!host && schWord ws 7 != 0)

/-- The oldest open request of the host, where it is malformed. -/
def State.badHead (s : State) : Option Nat :=
  ((s.reqs.find? fun p => p.2.src == .host).filter fun p => requestBad true p.2.words).map Prod.fst

/-- Requests of the host that are malformed end as they come to stand first (R383). -/
def State.endBad (s : State) : State :=
  (List.range s.reqs.length).foldl (fun s _ => match s.badHead with
    | some k => s.endOne k 2 0
    | none => s) s

/-- A request ends, and with it malformed ones of the host that stand behind it. -/
def State.endRequest (s : State) (k status result : Nat) : State := (s.endOne k status result).endBad

/-- A process's context; one is made for a process that has none, its table where the executive places it. -/
def State.contextFor (s : State) (pid : Nat) : State × Nat :=
  match s.contexts.find? fun p => p.2.pid == pid with
  | some (c, _) => (s, c)
  | none =>
    let c := s.contexts.free
    let t := s.site 2 c 256 4096
    ({ (s.keep 0 t 4096).clearTable t with contexts := s.contexts.put c ⟨t, pid, []⟩ }, c)

/-- An unload is requested: from now on LAUNCH packets of the object's kernels are refused (R404). -/
def State.shutObject (s : State) (pid : Nat) (ws : List (BitVec 64)) : State :=
  if bits (schWord ws 0) 15 0 != 5 then s
  else { s with objects := s.objects.map fun o =>
    if o.pid == pid && o.base == schWord ws 1 then { o with unloading := true } else o }

/-- A request block reaches the executive, from the host or with a call of a wave. -/
def State.takeRequest (s : State) (src : RequestSource) (addr ctx pid : Nat) (ws : List (BitVec 64)) (call : Option Nat) :
    State :=
  let k := s.nextOp
  let s := { s.fresh with reqs := s.reqs.put k ⟨src, addr, ctx, pid, ws, s.time, call.getD 0⟩ }
  if !requestBad call.isNone ws then s.shutObject pid ws
  else if call.isNone then s.endBad
  else s.endRequest k 2 0

/-- EXECUTIVE_REQUEST (R383): a block arrives by SYSC 0x004, or stands next in the executive-request ring. -/
def execExecutiveRequest (src : RequestSource) (s : State) : Host.Outcome State Fault Refusal :=
  .next (match src with
    | .wave w => match s.asks w 4 with
      | some c =>
        let ctx := s.ctxOf (s.wave w)
        if s.reqs.any fun p => p.2.call == c.id then s
        else match (if c.arg.toNat % 64 == 0 then s.ctxWords ctx c.arg.toNat 8 else none) with
          | some ws => s.takeRequest src c.arg.toNat ctx (s.pidOf w) ws (some c.id)
          | none => s.replySysc w 2
      | none => s
    | .host =>
      let q := s.queue 0
      if s.iss.granted || !q.used || q.widx ≤ q.ridx then s
      else
        let addr := q.base + 64 * (q.ridx % 2 ^ q.log2n)
        let ws := (s.ctxWords physCtx addr 8).getD []
        let s := (s.setQueue 0 { q with ridx := q.ridx + 1 }).putDesc 0
        s.takeRequest .host addr physCtx (bits (schWord ws 7) 31 0) ws none)

/-- Serve request `k`, where it is of this kind and, from the host, the oldest (R383). -/
def State.serve (s : State) (k kind : Nat) (f : Request → State) : State :=
  let r := s.req k
  if !s.reqs.has k || bits (schWord r.words 0) 15 0 != kind || s.iss.granted ||
      (r.src == .host && s.reqs.any fun p => p.2.src == .host && decide (p.1 < k)) then s
  else f r

/-! ## Queues (R384) -/

/-- A process owns a range of its memory: it is mapped in its context with PRIV = 0 (log 36). -/
def State.owns (s : State) (ctx va n : Nat) : Bool := s.mapped ctx va n fun _ => true

/-- A page of a process's address space at which nothing is mapped or loaded; the first 64 KiB never are mapped (R403). -/
def State.pageFree (s : State) (ctx va : Nat) : Bool :=
  decide (2 ^ 16 ≤ va) && decide (va + 2 ^ 16 ≤ 2 ^ 56) && (s.ctxPa ctx (va / 2 ^ 16 * 2 ^ 16)).isNone &&
    !((s.context ctx).used.any fun u => decide (u.1 < va / 2 ^ 16 * 2 ^ 16 + 2 ^ 16) && decide (va / 2 ^ 16 * 2 ^ 16 < u.1 + u.2))

/-- A leaf of a queue descriptor's page: V, R, W and C (R209). -/
def descLeaf (pa : Nat) : Nat := 2 ^ 56 + pa / 2 ^ 16 * 2 ^ 16 + 7

/-- CREATE_QUEUE (R382, R384): the executive's choice of a descriptor address at which nothing is mapped, and of a window; it
maps the descriptor's page to the process (log 25). -/
def execCreateQueue (req : Nat) (desc : BitVec 64) (window : Nat) (s : State) : Host.Outcome State Fault Refusal :=
  .next (s.serve req 1 fun r =>
    let x := s.contextFor r.pid
    let ctx := x.2
    let s := x.1
    let n := r.arg 1
    let v := r.arg 2
    if r.arg 0 % 4096 != 0 || n < 4 || 16 < n || (2048 ≤ v && v != 0xFFFF) || r.arg 3 % 64 != 0 || 1 < r.arg 4 then
      s.endRequest req 2 0
    else if !s.owns ctx (r.arg 0) (64 * 2 ^ n) || !s.owns ctx (r.arg 3) 2048 then s.endRequest req 1 0
    else
      let taken (w : Nat) : Bool := s.queues.any fun p => p.2.used && p.2.state != 2 && p.2.window == w
      if r.arg 4 == 1 && (List.range 8191).all (fun i => taken (i + 1)) then s.endRequest req 3 0
      else if r.arg 4 == 1 && (window == 0 || 8191 < window || taken window) then s
      else if desc.toNat % 64 != 0 || !s.pageFree ctx desc.toNat then s
      else
        let s := s.mapOwn (s.context ctx).root desc.toNat 8 descLeaf
        let qid := s.nextOp
        let s := s.fresh.setQueue qid { Queue.absent with
          used := true, desc := desc.toNat, ctx := ctx, pid := r.pid, base := r.arg 0, log2n := n, vector := v
          state := 0, sigring := r.arg 3, window := if r.arg 4 == 1 then window else 0xFFFFFFFF }
        ((s.ctxWrite ctx (desc.toNat + 16) (leBytes 8 0)).putDesc qid).endRequest req 0 desc.toNat)

/-- A process owns a queue. -/
def State.ownsQueue (s : State) (pid qid : Nat) : Bool :=
  let q := s.queue qid
  q.used && q.state != 2 && q.pid == pid && qid != 0

/-- DESTROY_QUEUE (R384): no packet is accepted any more; it completes when the accepted ones have. -/
def execDestroyQueue (req : Nat) (s : State) : Host.Outcome State Fault Refusal :=
  .next (s.serve req 2 fun r =>
    let qid := r.arg 0
    let q := s.queue qid
    if !s.ownsQueue r.pid qid then s.endRequest req 1 0
    else if q.packets.all fun p => p.done then
      ((s.setQueue qid { q with state := 2, closing := true }).putDesc qid).endRequest req 0 0
    else s.setQueue qid { q with closing := true })

/-- RESTART_QUEUE (R379, R384). -/
def execRestartQueue (req : Nat) (s : State) : Host.Outcome State Fault Refusal :=
  .next (s.serve req 3 fun r =>
    let qid := r.arg 0
    let q := s.queue qid
    if 1 < r.arg 1 then s.endRequest req 2 0
    else if !s.ownsQueue r.pid qid || q.state != 1 then s.endRequest req 1 0
    else (((s.setQueue qid { q with state := 0, ridx := q.ridx + r.arg 1 }).putDesc qid).accept qid).endRequest req 0 0)

/-! ## Communicators (R366, R384) -/

/-- The member list of a request: two words for each rank. -/
def State.memberList (s : State) (ctx va n : Nat) : Option (List (BitVec 64 × BitVec 64)) :=
  (List.range n).mapM fun i => match s.ctxWords ctx (va + 16 * i) 2 with
    | some [a, b] => some (a, b)
    | _ => none

/-- The block of a wave, which stands in an image while its gang is saved. -/
def State.blockOfWave (s : State) (k : Nat) : Block :=
  if s.waves.has k then s.block (s.wave k).block
  else (s.images.reverse.findSome? fun i => (i.waves.find? fun p => p.1 == k).bind fun p =>
    (i.blocks.find? fun q => q.1 == p.2.block).map Prod.snd).getD .absent

/-- A member of a list is a block of this device. -/
def memberHere (m : BitVec 64 × BitVec 64) : Bool := bits m.1.toNat 63 56 == Config.device.toNat

/-- A request speaks for a member of a list: a wave for its block, the host for the blocks of the process's launches. -/
def State.speaksFor (s : State) (r : Request) (m : BitVec 64 × BitVec 64) : Bool :=
  memberHere m && match r.src with
    | .wave w =>
      let b := s.blockOfWave w
      let g := s.gang b.gang
      bits m.1.toNat 47 0 == (s.launch g.launch).id && bits m.2.toNat 33 32 == b.index && bits m.2.toNat 31 0 == g.index
    | .host => s.launches.any fun p => p.2.used && !p.2.ended && p.2.pid == r.pid && p.2.id == bits m.1.toNat 47 0

/-- The ranks that a request may speak for. -/
def State.ranksFor (s : State) (r : Request) (ms : List (BitVec 64 × BitVec 64)) : List Nat :=
  (List.range ms.length).filter fun i => s.speaksFor r (ms.getD i (0, 0))

/-- The member list of a request for a communicator (R384), as its process's memory holds it. -/
def State.askedList (s : State) (r : Request) : Option (List (BitVec 64 × BitVec 64)) :=
  s.memberList (s.contextFor r.pid).2 (r.arg 0) (r.arg 1)

/-- The open requests for one communicator: those with the member list or the key of this one (log 84). -/
def State.askers (s : State) (r : Request) : List (Nat × Request) :=
  s.reqs.filter fun p => bits (schWord p.2.words 0) 15 0 == 6 && !requestBad (p.2.src == .host) p.2.words &&
    (p.2.arg 2 == r.arg 2 || s.askedList p.2 == s.askedList r)

/-- Every one of these requests ends so. -/
def State.endAll (s : State) (ps : List (Nat × Request)) (status result : Nat) : State :=
  ps.foldl (fun s p => s.endRequest p.1 status result) s

/-- The ranks that the requests speak for, in their order, each for the first that no earlier one has. -/
def State.ranksOf (s : State) (ps : List (Nat × Request)) (ms : List (BitVec 64 × BitVec 64)) : List (Nat × Nat) :=
  ps.foldl (fun t p => match (s.ranksFor p.2 ms).find? fun i => !(t.any fun q => q.1 == i) with
    | some i => t ++ [(i, p.2.pid)]
    | none => t) []

/-- A member of a communicator. -/
def commOf (handle : BitVec 64) (key : Nat) (ms : List (BitVec 64 × BitVec 64)) (rank pid : Nat) : Comm :=
  let m := ms.getD rank (0, 0)
  { handle := handle, pid := pid, members := ms, key := BitVec.ofNat 64 key, rank := rank
    launch := bits m.1.toNat 47 0, gang := bits m.2.toNat 31 0, block := bits m.2.toNat 33 32, issued := 0 }

/-- CREATE_COMMUNICATOR (R384): every member has requested, those of other devices with the same list, P and key or not, and
the executives have settled the handle. While a member of this device has not requested, nothing ends. -/
def execCreateCommunicator (req handle : Nat) (agree : Bool) (s : State) : Host.Outcome State Fault Refusal :=
  .next (s.serve req 6 fun r =>
    match s.askedList r with
    | none => s.endRequest req 2 0
    | some ms =>
      let ps := s.askers r
      let h := BitVec.ofNat 64 handle
      let ranks := s.ranksOf ps ms
      if (s.ranksFor r ms).isEmpty then s.endRequest req 1 0
      else if !agree || !(ps.all fun p => p.2.arg 2 == r.arg 2 && s.askedList p.2 == some ms) then s.endAll ps 2 0
      else if s.comms.any (fun c => c.handle == h) ||
          !((List.range ms.length).all fun i => !memberHere (ms.getD i (0, 0)) || ranks.any fun q => q.1 == i) then s
      else { s with comms := s.comms ++ ranks.map fun (q : Nat × Nat) => commOf h (r.arg 2) ms q.1 q.2 }.endAll ps 0 handle)

/-- COMMUNICATOR_TIMEOUT (R384): 1 s after the first request, at 2.25 GHz, every request for the communicator ends. -/
def execCommunicatorTimeout (req : Nat) (s : State) : Host.Outcome State Fault Refusal :=
  .next (s.serve req 6 fun r =>
    let ps := s.askers r
    if ps.any fun p => decide (2250000000 ≤ s.time - p.2.since) then s.endAll ps 4 0 else s)

/-- A request speaks for this member of a communicator. -/
def State.speaksOf (s : State) (r : Request) (c : Comm) : Bool := s.speaksFor r (c.members.getD c.rank (0, 0))

/-- DESTROY_COMMUNICATOR (R384): a member asks. -/
def execDestroyCommunicator (req : Nat) (s : State) : Host.Outcome State Fault Refusal :=
  .next (s.serve req 7 fun r =>
    let h := BitVec.ofNat 64 (r.arg 0)
    if !(s.comms.any fun c => c.handle == h && s.speaksOf r c) || s.colls.any fun p => p.2.handle == h then
      s.endRequest req 1 0
    else { s with comms := s.comms.filter fun c => c.handle != h }.endRequest req 0 0)

/-! ## Debugging (R331, R384, R389, R390) -/

/-- The running launch with an id. -/
def State.launchById (s : State) (id : Nat) : Option Nat :=
  (s.launches.find? fun p => p.2.used && !p.2.ended && p.2.id == id).map Prod.fst

/-- The launch that a request names, where its process holds the debug right. -/
def State.debugged (s : State) (r : Request) : Option Nat :=
  match s.launchById (r.arg 0) with
  | some n =>
    if (s.launch n).pid == r.pid || (s.launch n).debuggers.contains r.pid then some n else none
  | none => none

/-- SET_WATCHPOINT (R390). -/
def execSetWatchpoint (req : Nat) (s : State) : Host.Outcome State Fault Refusal :=
  .next (s.serve req 8 fun r =>
    let size := r.arg 3
    let kind := r.arg 4
    match s.debugged r with
    | none => s.endRequest req 1 0
    | some n =>
      if 3 < r.arg 1 || kind == 0 || 3 < kind || !((List.range 28).any fun i => size == 2 ^ (3 + i)) ||
          r.arg 2 % max size 1 != 0 then s.endRequest req 2 0
      else
        let l := s.launch n
        (s.setLaunch n { l with
          watches := (l.watches.filter fun w => w.slot != r.arg 1) ++
            [⟨r.arg 1, r.arg 2, size, bit kind 0, bit kind 1⟩] }).endRequest req 0 0)

/-- CLEAR_WATCHPOINT (R384). -/
def execClearWatchpoint (req : Nat) (s : State) : Host.Outcome State Fault Refusal :=
  .next (s.serve req 9 fun r =>
    match s.debugged r with
    | none => s.endRequest req 1 0
    | some n =>
      if 3 < r.arg 1 then s.endRequest req 2 0
      else
        let l := s.launch n
        (s.setLaunch n { l with watches := l.watches.filter fun w => w.slot != r.arg 1 }).endRequest req 0 0)

/-- ATTACH (R384): the launch permits a debugger, and the process holds the executive's debug privilege. -/
def execAttach (req : Nat) (s : State) : Host.Outcome State Fault Refusal :=
  .next (s.serve req 10 fun r =>
    match s.launchById (r.arg 0) with
    | some n =>
      let l := s.launch n
      if l.dbg && Config.debugPrivilege r.pid then
        (s.setLaunch n { l with debuggers := r.pid :: l.debuggers.filter (· != r.pid) }).endRequest req 0 0
      else s.endRequest req 1 0
    | none => s.endRequest req 1 0)

/-- The gang of a launch with an index. -/
def State.gangByIndex (s : State) (n i : Nat) : Option Nat :=
  (s.launch n).gangs.find? fun g => (s.gang g).index == i && !(s.gang g).retired

/-- The block of a gang, and its wave, that an argument names (R384). -/
def State.blockByIndex (s : State) (g i : Nat) : Option Nat := (s.gang g).blocks.find? fun b => (s.block b).index == i
def State.waveByArg (s : State) (g a : Nat) : Option Nat :=
  (s.blockByIndex g (bits a 9 8)).bind fun b => (s.wavesOf b).find? fun k => (s.wave k).index == bits a 4 0

/-- Every wave of the gang is named. -/
def everyWave : Nat := 2 ^ 64 - 1

/-- RESUME (R384): the leaf controller is told to let the halted gang or wave go on. -/
def execResume (req : Nat) (s : State) : Host.Outcome State Fault Refusal :=
  .next (s.serve req 11 fun r =>
    match (s.debugged r).bind fun n => s.gangByIndex n (r.arg 1) with
    | none => s.endRequest req 1 0
    | some g =>
      let go (w : Option Nat) : State :=
        let t := s.endRequest req 0 0
        { t with agenda := (0, .debuggerResume g w) :: t.agenda }
      if r.arg 2 == everyWave then
        if (s.gang g).halted || (s.gangWaves g).any fun k => (s.wave k).stopped then go none
        else s.endRequest req 1 0
      else match s.waveByArg g (r.arg 2) with
        | some k => if (s.wave k).stopped then go (some k) else s.endRequest req 1 0
        | none => s.endRequest req 1 0)

/-- A wave is halted. -/
def State.waveHalted (s : State) (k : Nat) : Bool := (s.wave k).stopped || (s.gang (s.gangOf (s.wave k))).halted

/-- SET_OR_CLEAR_STEP (R384, R389). -/
def execSetOrClearStep (req : Nat) (s : State) : Host.Outcome State Fault Refusal :=
  .next (s.serve req 12 fun r =>
    match (s.debugged r).bind fun n => s.gangByIndex n (r.arg 1) with
    | none => s.endRequest req 1 0
    | some g =>
      let ks := if r.arg 2 == everyWave then s.gangWaves g else (s.waveByArg g (r.arg 2)).toList
      if 1 < r.arg 3 then s.endRequest req 2 0
      else if ks.isEmpty || !(ks.all fun k => s.waveHalted k) then s.endRequest req 1 0
      else (ks.foldl (fun s k => s.onWave k fun w => { w with single := r.arg 3 == 1 }) s).endRequest req 0 0)

/-- The block that a request for names addresses, where the debug right and R331 allow it. -/
def State.viewed (s : State) (r : Request) (block : Nat) : Option Nat :=
  match (s.debugged r).bind fun n => s.gangByIndex n (r.arg 1) with
  | none => none
  | some g => match s.blockByIndex g block with
    | some b => if (s.gang g).halted || (s.wavesOf b).any fun k => (s.wave k).single then some b else none
    | none => none

/-- A class's sigil (R8). -/
def sigil (cls : Nat) : Char :=
  match cls with
  | 0 => '%'
  | 1 => '$'
  | 2 => '&'
  | 3 => '!'
  | 4 => '~'
  | _ => '^'

/-- A name as the view shows it: its debug name, else its sigil and number (R401). -/
def Kernel.shownName (k : Kernel) (n : NameInfo) : List Byte :=
  match k.dbg.find? fun d => d.1 == n.cls && d.2.1 == n.name with
  | some d => d.2.2
  | .none => (sigil n.cls :: (toString n.name).toList).map fun c => BitVec.ofNat 8 c.toNat

/-- Bytes as words: their number, then eight to a word, zeros after the last. -/
def textWords (bs : List Byte) : List (BitVec 64) :=
  BitVec.ofNat 64 bs.length :: (List.range ((bs.length + 7) / 8)).map fun i => BitVec.ofNat 64 (ofLe ((bs.drop (8 * i)).take 8))

/-- A name's values in the view of a block (R331): of a lane name every lane's and the mask of its live lanes, wave by
wave; of a uniform name each wave's; else the block's. -/
def State.viewValues (s : State) (b : Nat) (n : NameInfo) : List (BitVec 64) :=
  let ks := s.wavesOf b
  match n.cls with
  | 0 => ks.flatMap fun j =>
      let w := s.wave j
      ((List.range w.width).map fun l => s.shown j l 0 n.name) ++
        [maskOf ((List.range w.width).filter fun l => !(w.lane l).exited && n.liveAt (w.lane l).pc.toNat)]
  | 1 => ks.map fun j => s.shown j 0 1 n.name
  | c => [s.shown (ks.headD 0) 0 c n.name]

/-- The view of a block (R331): each name's string, its word 0 of R330, its place and its values. The manual does not lay
it out (log 19). -/
def State.viewWords (s : State) (b : Nat) : List (BitVec 64) :=
  let k := s.kernelOfBlock b
  k.names.flatMap fun n =>
    textWords (k.shownName n) ++
      [s.entryHead ((s.wavesOf b).headD 0) { role := 0, cls := n.cls, name := n.name, kill := false, read := true } false,
        s.placeWord b n.cls n.name] ++ s.viewValues b n

/-- READ_VIEW (R331, R384): the view goes to the buffer, as far as it reaches. -/
def execReadView (req : Nat) (s : State) : Host.Outcome State Fault Refusal :=
  .next (s.serve req 13 fun r =>
    match s.viewed r (r.arg 2) with
    | none => s.endRequest req 1 0
    | some b =>
      let x := s.contextFor r.pid
      let bs := ((x.1.viewWords b).flatMap fun w => leBytes 8 w.toNat).take (r.arg 4)
      (x.1.ctxWrite x.2 (r.arg 3) bs).endRequest req 0 bs.length)

/-- A word of the lane-register store is written: the name that is live in the word's lane there takes it in. -/
def State.writeRowWord (s : State) (k x : Nat) (v : Nat) : State :=
  let w := s.wave k
  (s.wordNames k x).foldl (fun s n => match n.wordAt (s.block w.block).places with
    | none => s
    | some a =>
      let l := (x - a) % w.width
      let lo := 32 * ((x - a) / w.width)
      let t := w.lane l
      if t.exited || !n.liveAt t.pc.toNat then s
      else
        let old := (t.names.get 0 n.name).toNat
        s.writeLanesOf k n.name [(l, BitVec.ofNat 64 (old - bits old (lo + 31) lo * 2 ^ lo + v * 2 ^ lo))]) s

/-- A debugger's write of a lane name (R331): it goes to the name's place, so where the name is dead a live one that stands
there has it too. -/
def State.debugLane (s : State) (k name : Nat) (vs : List (Nat × BitVec 64)) : State :=
  let w := s.wave k
  let t := vs.foldl (fun s p => match (s.kernelOf w).info 0 name with
    | none => s
    | some n => match n.wordAt (s.block w.block).places with
      | none => s
      | some a =>
        if n.liveAt (w.lane p.1).pc.toNat then s
        else (List.range (n.size / 32)).foldl (fun s j =>
          s.writeRowWord k (a + w.width * j + p.1) (bits p.2.toNat (32 * j + 31) (32 * j))) s) s
  t.writeLanesOf k name vs

/-- The names of a class that stand in a name's place: itself, and, where it is dead, those that are live there. -/
def State.placeNames (s : State) (k cls name : Nat) (live : NameInfo → Bool) : List Nat :=
  let ker := s.kernelOf (s.wave k)
  match ker.info cls name with
  | none => [name]
  | some n =>
    if live n then [name]
    else (ker.names.filter fun m => m.name != name && n.sharesWith m (s.block (s.wave k).block).places && live m).map (·.name) ++
      [name]

/-- A debugger's write of 64 values under a mask to a name (R331): a lane name in the lanes of the mask of every wave of
the block, a uniform name in every wave, and words of a buffer or elements of a tile, those of the mask; a barrier's
count and phase and a register's count as VALUE shows them (R330, log 19). -/
def State.debugWrite (s : State) (b cls name : Nat) (mask : Nat) (vs : List (BitVec 64)) : State :=
  let ks := s.wavesOf b
  let picked (n : Nat) : List (Nat × BitVec 64) := ((List.range n).filter fun l => bit mask l).map fun l => (l, vs.getD l 0)
  let v := (vs.headD 0).toNat
  match cls with
  | 0 => ks.foldl (fun s k => s.debugLane k name (picked (s.wave k).width)) s
  | 1 => ks.foldl (fun s k =>
      (s.placeNames k 1 name (s.liveIn k)).foldl (fun s m => s.writeUnifOf k [] m (vs.headD 0)) s) s
  | 2 => (picked (min 64 (s.scratchSize b name / 8))).foldl (fun s p =>
      (s.writeScratch b name (8 * p.1) (leBytes 8 p.2.toNat) none).unmarkScratch b name (8 * p.1) 8) s
  | 3 => s.setBar b name ⟨bits v 11 0, bit v 12⟩
  | 4 => s.setConv b name { s.conv b name with count := bits v 7 0 }
  | _ => (s.placeNames (ks.headD 0) 5 name fun n => ks.any fun k => s.liveIn k n).foldl (fun s m =>
      (picked 64).foldl (fun s p =>
        let bs := leBytes 8 p.2.toNat
        (bs.zipIdx.foldl (fun s x => s.setSlotByte b 0 5 m (8 * p.1 + x.2) x.1) s).unmarkSlot b 0 5 m (8 * p.1) 8) s) s

/-- WRITE_NAME (R331, R384). -/
def execWriteName (req : Nat) (s : State) : Host.Outcome State Fault Refusal :=
  .next (s.serve req 14 fun r =>
    match s.viewed r (bits (r.arg 2) 9 8) with
    | none => s.endRequest req 1 0
    | some b =>
      let x := s.contextFor r.pid
      let cls := bits (r.arg 2) 15 12
      let name := bits (r.arg 2) 31 16
      match x.1.ctxWords x.2 (r.arg 4) 64 with
      | none => x.1.endRequest req 2 0
      | some vs =>
        if !declaredIn (x.1.kernelOfBlock b).decl cls name || 5 < cls then x.1.endRequest req 2 0
        else (x.1.debugWrite b cls name (r.arg 3) vs).endRequest req 0 0)

/-- END_LAUNCH_REQUEST (R384, R388). -/
def execEndLaunchRequest (req : Nat) (s : State) : Host.Outcome State Fault Refusal :=
  .next (s.serve req 15 fun r =>
    match s.launchById (r.arg 0) with
    | some n =>
      if (s.launch n).pid == r.pid then
        let t := (s.setLaunch n { s.launch n with status := 5 }).endRequest req 0 0
        { t with agenda := (0, .endLaunch n) :: t.agenda }
      else s.endRequest req 1 0
    | none => s.endRequest req 1 0)

end Sys2Proof.Machine
end

