-- ==== Sys2Proof/Machine/Load.lean ====
section
/-! DEFINITION. Loading and unloading code objects (R397-R405). -/

namespace Sys2Proof.Machine

/-! ## The object file (R397-R402) -/

/-- A relocation entry, its segments by number. -/
structure Reloc where
  type : Nat
  seg  : Nat
  kidx : Nat
  ofs  : Nat
  sseg : Nat
  sofs : Nat
  deriving DecidableEq, Repr

/-- A kernel of an object file: the words of its descriptor image, its name table with its intervals, its resource
table, and its debug names with their strings. -/
structure KernelFile where
  words : List (BitVec 64)
  names : List Byte
  res   : List Byte
  dbg   : List Byte
  deriving DecidableEq, Repr

/-- An object file. -/
structure ObjectFile where
  pref    : Nat
  datava  : Nat
  code    : List Byte
  data    : List Byte
  kernels : List KernelFile
  relocs  : List Reloc
  deriving DecidableEq, Repr

/-- A descriptor image obeys R398: its entries lie in a code segment of `code` bytes. -/
def descOk (ws : List (BitVec 64)) (code : Nat) : Bool :=
  let w := schWord ws
  let inCode (a : Nat) : Bool := a % 16 == 0 && decide (a < code)
  let counts := [bits (w 3) 63 47, bits (w 3) 46 34, bits (w 3) 33 25, bits (w 3) 24 18, bits (w 3) 17 13, bits (w 3) 12 8]
  bits (w 0) 63 32 == 0x4B445343 && [16, 32, 64].contains (bits (w 0) 31 24) && decide (1 ≤ bits (w 0) 23 16) &&
    decide (bits (w 0) 23 16 ≤ 32) && decide (1 ≤ bits (w 0) 15 0) && decide (bits (w 0) 15 0 ≤ 1024) && inCode (w 1) && (w 2 == 0 || inCode (w 2)) &&
    bits (w 3) 7 0 == 0 && (counts.zip [65536, 4096, 256, 64, 16, 16]).all (fun p => decide (p.1 ≤ p.2)) &&
    counts.sum == bits (w 4) 31 0 && w 5 % 64 == 0 && w 6 % 64 == 0 && w 7 % 64 == 0 && (List.range 8).all fun i => w (8 + i) == 0

/-- Bytes of a kernel's name table with its intervals. -/
def namesLen (t : List Byte) (n : Nat) : Nat :=
  (List.range n).foldl (fun m i =>
    let a := ofLe ((t.drop (16 * i)).take 8)
    let b := ofLe ((t.drop (16 * i + 8)).take 8)
    max m (bits b 31 0 + 8 * bits a 15 0)) (16 * n)

/-- Bytes of a kernel's debug names (R401), which have an entry for each of its `n` names (log 58): up to the end of the
last string. -/
def dbgLen (ds : List (Nat × Nat × Nat × List Byte)) (n : Nat) : Nat :=
  ds.foldl (fun m d => max m (d.2.2.1 + d.2.2.2.length + 1)) (8 * n)

/-- The debug names of a kernel of a file, where it has them; none where a string does not end (R401). -/
def State.readDbg (s : State) (ctx va at0 n : Nat) : Option (List Byte) :=
  if at0 == 0 then some []
  else (s.dbgNames ctx (va + at0) n).bind fun ds => s.ctxRead ctx (va + at0) (dbgLen ds n)

/-- Read a kernel of an object at `va`. -/
def State.readKernelFile (s : State) (ctx va at0 code : Nat) : Option KernelFile :=
  match s.ctxWords ctx (va + at0) 32 with
  | none => none
  | some ws =>
    if !descOk ws code then none
    else
      let n := bits (schWord ws 4) 31 0
      match s.ctxRead ctx (va + schWord ws 5) (16 * n), s.ctxRead ctx (va + schWord ws 6) (64 * bits (schWord ws 4) 47 32),
        s.readDbg ctx va (schWord ws 7) n with
      | some heads, some res, some dbg =>
        (s.ctxRead ctx (va + schWord ws 5) (namesLen heads n)).map fun names => ⟨ws, names, res, dbg⟩
      | _, _, _ => none

/-- A relocation entry from its two words. -/
def relocOf (a b : Nat) : Reloc :=
  ⟨bits a 63 56, bits a 55 48, bits a 47 32, bits a 31 0, bits b 63 32, bits b 31 0⟩

/-- The bytes of a relocation's segment or table. -/
def ObjectFile.part (o : ObjectFile) (r : Reloc) : List Byte :=
  match r.seg with
  | 0 => o.code
  | 1 => o.data
  | 2 => ((o.kernels[r.kidx]?).map fun k => k.res).getD []
  | _ => []

/-- The word at the place of a DREL relocation is the instruction that its type asks for, in code (R402). -/
def ObjectFile.drelOk (o : ObjectFile) (r : Reloc) : Bool :=
  r.seg == 0 && match r.type, decodeSingle .limits (ofLe ((o.code.drop r.ofs).take 4)) with
    | 3, .ok (.slui _ _ _) | 4, .ok (.saddi _ _ _) => true
    | _, _ => false

/-- A relocation entry is well formed: a known type, and an aligned place of its kind inside its segment or table (R402). -/
def ObjectFile.relocOk (o : ObjectFile) (r : Reloc) : Bool :=
  let size := if r.type == 1 then 8 else 4
  decide (1 ≤ r.type) && decide (r.type ≤ 4) && decide (r.ofs + size ≤ (o.part r).length) && r.ofs % size == 0 &&
    decide (r.sseg ≤ 1) && (r.seg == 2 || r.kidx == 0) && (r.type ≤ 2 || o.drelOk r)

/-- The debug names of an object lie where its header says, in the file; a stripped one has none (R397). -/
def State.dbgOk (s : State) (ctx va dbg : Nat) (ks : List KernelFile) : Bool :=
  if dbg == 0 then ks.all fun k => schWord k.words 7 == 0 else (s.ctxRead ctx (va + dbg) 1).isSome

/-- The object at an address; none where it is malformed. -/
def State.readObject (s : State) (ctx va : Nat) : Option ObjectFile := do
  let ws ← s.ctxWords ctx va 16
  let w := schWord ws
  let n := bits (w 0) 15 0
  let code := bits (w 2) 63 32
  if bits (w 0) 63 32 != 0x4C4D434F || bits (w 0) 31 16 != 1 || n == 0 || 4096 < n || w 1 % 2 ^ 16 != 0 ||
      code % 16 != 0 || bits (w 2) 31 0 % 2 ^ 16 != 0 || bits (w 2) 31 0 < code ||
      !((List.range 7).all fun i => w (9 + i) == 0) then none
  else
    let c ← s.ctxRead ctx (va + w 4) code
    let d ← s.ctxRead ctx (va + w 5) (bits (w 3) 63 32)
    let ks ← (List.range n).mapM fun i => s.readKernelFile ctx va (w 6 + 256 * i) code
    let rs ← (List.range (bits (w 3) 31 0)).mapM fun i => (s.ctxWords ctx (va + w 7 + 16 * i) 2).map fun x =>
      relocOf (schWord x 0) (schWord x 1)
    let o : ObjectFile := ⟨w 1, bits (w 2) 31 0, c, d, ks, rs⟩
    if rs.all o.relocOk && s.dbgOk ctx va (w 8) ks then some o else none

/-! ## Relocation (R402) -/

/-- S - D or S, and whether it overflows its place. -/
def ObjectFile.value (o : ObjectFile) (base : Nat) (r : Reloc) : Int × Bool :=
  let sv : Int := (base + (if r.sseg == 1 then o.datava else 0) + r.sofs : Nat)
  let v : Int := sv - (base + o.datava : Nat)
  match r.type with
  | 1 => (sv, false)
  | 2 => (sv, decide ((2 ^ 32 - 1 : Int) < sv))
  | 3 => (v, decide (v + 0x800 < -(2 ^ 31)) || decide ((2 ^ 31 - 1 : Int) < v + 0x800))
  | _ => (v, false)

/-- The first relocation that overflows, with its index and value. -/
def ObjectFile.overflow (o : ObjectFile) (base : Nat) : Option (Nat × Int) :=
  (o.relocs.zipIdx.find? fun r => (o.value base r.1).2).map fun r => (r.2, (o.value base r.1).1)

/-- Bytes with others written over them from an offset. -/
def patch (bs : List Byte) (ofs : Nat) (new : List Byte) : List Byte :=
  bs.take ofs ++ new ++ bs.drop (ofs + new.length)

/-- A place with a relocation written: the fields of the instruction words keep their other bits. -/
def applyReloc (type : Nat) (v : Int) (bs : List Byte) (ofs : Nat) : List Byte :=
  let old := ofLe ((bs.drop ofs).take 4)
  match type with
  | 1 => patch bs ofs (leBytes 8 (wrap 64 v))
  | 2 => patch bs ofs (leBytes 4 (wrap 32 v))
  | 3 => patch bs ofs (leBytes 4 (old / 2 ^ 20 * 2 ^ 20 + bits (wrap 64 (v + 0x800)) 31 12))
  | _ => patch bs ofs (leBytes 4 (old / 2 ^ 12 * 2 ^ 12 + bits (wrap 64 v) 11 0))

/-- The object with every relocation applied. -/
def ObjectFile.relocate (o : ObjectFile) (base : Nat) : ObjectFile :=
  o.relocs.foldl (fun o r =>
    let v := (o.value base r).1
    match r.seg with
    | 0 => { o with code := applyReloc r.type v o.code r.ofs }
    | 1 => { o with data := applyReloc r.type v o.data r.ofs }
    | _ => { o with kernels := o.kernels.zipIdx.map fun k =>
        if k.2 == r.kidx then { k.1 with res := applyReloc r.type v k.1.res r.ofs } else k.1 }) o

/-! ## The place (R403) -/

/-- The bytes of an object's range. -/
def ObjectFile.span (o : ObjectFile) : Nat := upTo (o.datava + o.data.length) (2 ^ 16)

/-- A range of a process's address space is free: nothing is mapped there, and nothing loaded. -/
def State.rangeFree (s : State) (ctx base size : Nat) : Bool :=
  decide (2 ^ 16 ≤ base) && decide (base + size ≤ 2 ^ 56) &&
    !((s.context ctx).used.any fun u => decide (u.1 < base + size) && decide (base < u.1 + u.2)) &&
    (List.range (size / 2 ^ 16)).all fun i => (s.ctxPa ctx (base + i * 2 ^ 16)).isNone

/-- The base that the executive chooses: PREF, or the lowest that is free. -/
def State.baseFor (s : State) (ctx : Nat) (o : ObjectFile) : Option Nat :=
  if s.rangeFree ctx o.pref o.span then some o.pref
  else (findFrom (fun i => s.rangeFree ctx (i * 2 ^ 16) o.span) (2 ^ 40) 1).map fun i => i * 2 ^ 16

/-- Where the tables of the kernels lie: after the descriptors, each at a multiple of 64: names, then
resources, then debug names (log 37). -/
def ObjectFile.tablesAt (o : ObjectFile) (kdesc : Nat) : List (Nat × Nat × Nat) × Nat :=
  o.kernels.foldl (fun r k =>
    let n := r.2
    let m := upTo (n + k.names.length) 64
    let d := upTo (m + k.res.length) 64
    (r.1 ++ [(n, m, d)], upTo (d + k.dbg.length) 64)) ([], kdesc + 256 * o.kernels.length)

/-- The pages of 64 KiB on which the descriptors and their tables lie. -/
def ObjectFile.descPages (o : ObjectFile) (kdesc : Nat) : Nat × Nat :=
  let lo := kdesc / 2 ^ 16 * 2 ^ 16
  (lo, upTo ((o.tablesAt kdesc).2 - lo) (2 ^ 16))

/-- The executive's plan leaves its own memory and the stack regions as they are, and puts the descriptors and their tables
on pages that were free and hold nothing else (R403). -/
def State.planFree (s t : State) (ctx base : Nat) (o : ObjectFile) (plan : LoadPlan) : Bool :=
  let d := o.descPages plan.kdesc.toNat
  plan.tables.all s.tableWordOk && s.stacksKept t && s.rangeFree ctx d.1 d.2 &&
    !(decide (d.1 < base + o.span) && decide (base < d.1 + d.2))

/-- The pages are mapped as R403 says. -/
def State.planOk (s : State) (ctx base : Nat) (o : ObjectFile) (kdesc : Nat) : Bool :=
  let d := o.descPages kdesc
  kdesc % 64 == 0 &&
    (o.code.isEmpty || s.mapped ctx base o.code.length fun e => leafR e && leafX e && !leafW e && leafC e) &&
    (o.data.isEmpty || s.mapped ctx (base + o.datava) o.data.length fun e => leafR e && leafW e && !leafX e && leafC e) &&
    s.mapped ctx d.1 d.2 fun e => leafR e && !leafW e && !leafX e && leafC e && bits e 15 14 == 0

/-- A descriptor as loaded: ENTRY and TRAP are addresses, and so are those of its tables. -/
def loadedDesc (ws : List (BitVec 64)) (base names res dbg : Nat) : List Byte :=
  let w := schWord ws
  ws.zipIdx.flatMap fun x => leBytes 8 (match x.2 with
    | 1 => base + w 1
    | 2 => if w 2 == 0 then 0 else base + w 2
    | 5 => names
    | 6 => res
    | 7 => if w 7 == 0 then 0 else dbg
    | _ => x.1.toNat)

/-- Write an object at its base, its descriptors and their tables. -/
def State.writeObject (s : State) (ctx base : Nat) (o : ObjectFile) (kdesc : Nat) : State :=
  let s := (s.ctxWrite ctx base o.code).ctxWrite ctx (base + o.datava) o.data
  ((o.kernels.zip (o.tablesAt kdesc).1).zipIdx).foldl (fun s x =>
    let k := x.1.1
    let t := x.1.2
    (((s.ctxWrite ctx (kdesc + 256 * x.2) (loadedDesc k.words base t.1 t.2.1 t.2.2)).ctxWrite ctx t.1 k.names).ctxWrite
      ctx t.2.1 k.res).ctxWrite ctx t.2.2 k.dbg) s

/-- The load result, and the end of the request. -/
def State.loadResult (s : State) (req ctx at0 status index base kdesc value : Nat) : State :=
  (s.ctxWrite ctx at0 (leBytes 8 (status * 2 ^ 56 + index % 2 ^ 32) ++ leBytes 8 base ++ leBytes 8 kdesc ++
    leBytes 8 value)).endRequest req 0 status

/-- LOAD_CODE_OBJECT (R403): a load that stops changes nothing but the result. The executive's table words and
the place of the descriptors are its choice; a plan that does not map the object as R403 says is none. -/
def execLoadCodeObject (req : Nat) (plan : LoadPlan) (s : State) : Host.Outcome State Fault Refusal :=
  .next (s.serve req 4 fun r =>
    let x := s.contextFor r.pid
    let ctx := x.2
    let s := x.1
    let va := r.arg 0
    let out := r.arg 1
    if !s.owns ctx va 128 || !s.owns ctx out 32 then s.endRequest req 1 0
    else match s.readObject ctx va with
      | none => s.loadResult req ctx out 1 0 0 0 0
      | some o => match s.baseFor ctx o with
        | none => s.loadResult req ctx out 2 0 0 0 0
        | some base => match o.overflow base with
          | some (i, v) => s.loadResult req ctx out 3 i base 0 (wrap 64 v)
          | none =>
            let kdesc := plan.kdesc.toNat
            let t := plan.tables.foldl (fun s p => s.sysWrite p.1 (leBytes 8 p.2.toNat)) s
            if !s.planFree t ctx base o plan || !t.planOk ctx base o kdesc then s
            else
              let t := t.writeObject ctx base (o.relocate base) kdesc
              let c := t.context ctx
              { t with
                contexts := t.contexts.put ctx { c with
                  used := c.used ++ [(base, o.span), o.descPages kdesc] }
                objects := t.objects ++ [(⟨ctx, r.pid, base, o.span, kdesc, o.kernels.length, false⟩ : CodeObj)] }.loadResult
                req ctx out 0 0 base kdesc 0)

/-- A launch of one of an object's kernels runs. -/
def State.objectBusy (s : State) (o : CodeObj) : Bool :=
  s.launches.any fun p => p.2.used && !p.2.ended && p.2.ctx == o.ctx && decide (o.kdesc ≤ p.2.packet) &&
    decide (p.2.packet < o.kdesc + 256 * o.kernels)

/-- UNLOAD_CODE_OBJECT (R404): LAUNCH packets are refused since the request (`State.shutObject`); it completes when the launches of its
kernels have ended. -/
def execUnloadCodeObject (req : Nat) (s : State) : Host.Outcome State Fault Refusal :=
  .next (s.serve req 5 fun r =>
    match s.objects.find? fun o => o.pid == r.pid && o.base == r.arg 0 with
    | none => s.endRequest req 1 0
    | some o =>
      if s.objectBusy o then
        { s with objects := s.objects.map fun x => if x == o then { x with unloading := true } else x }
      else
        let c := s.context o.ctx
        { s with
          objects := s.objects.filter fun x => x != o
          contexts := s.contexts.put o.ctx { c with
            used := c.used.filter fun u => u.1 != o.base && u.1 != o.kdesc / 2 ^ 16 * 2 ^ 16 } }.endRequest req 0 0)

end Sys2Proof.Machine
end

