-- ==== Sys2Proof/Machine/Host.lean ====
section
/-! DEFINITION. The host's accesses, boot and ownership, sensors, power and soft errors (R216, R372, R386,
R387, R407-R411). -/

namespace Sys2Proof.Machine

/-! ## Host accesses (R372) -/

/-- Of `len` bytes that a host access asks for from offset `a` of BAR2 on, those in the aperture of 64 GiB. -/
def barLen (a len : Nat) : Nat := min len (2 ^ 36 - a)

/-- The byte of home memory that an offset of the aperture stands for, by a mapping that the executive has installed, and its
leaf; internal regions and other devices are none. -/
def State.barPa (s : State) (a : Nat) : Option (Nat × Nat) :=
  (s.ctxPa barCtx a).filter fun p => !bit p.1 55 && bits p.1 46 39 == 0

/-- HOST_READ (R372): home memory as published at .SYS scope, and what a CFLUSH has brought home. What an offset without a
mapping reads as is left open (log 35). -/
def execHostRead (addr : BitVec 64) (len : Nat) (s : State) : Host.Outcome State Fault Refusal :=
  .next { s with hostData := (List.range (barLen addr.toNat len)).map fun i => match s.barPa (addr.toNat + i) with
    | some (pa, _) => s.homeByte 3 pa
    | none => (s.undef (tagMisc i)).setWidth 8 }

/-- HOST_WRITE (R372): performed at home, on a replicated page in both copies; the next .SYS acquire of a block takes it in.
Nothing is written where nothing is mapped. -/
def execHostWrite (addr : BitVec 64) (data : List (BitVec 8)) (s : State) : Host.Outcome State Fault Refusal :=
  .next ((pieces addr.toNat (data.take (barLen addr.toNat data.length))).foldl (fun s p => match s.barPa p.1 with
    | some (pa, leaf) => (copiesFor leaf pa).foldl (fun s a => s.hostWrite a p.2) s
    | none => s) s)

/-! ## Boot (R373, R374, R386, R387) -/

/-- Fields of an image. -/
def imgField (img : List (BitVec 8)) (off n : Nat) : List (BitVec 8) := (img.drop off).take n
def imgWord (img : List (BitVec 8)) (off n : Nat) : Nat := ofLe (imgField img off n)

/-- What both signatures sign. -/
def imgSigned (img : List (BitVec 8)) : List (BitVec 8) := imgField img 0 96 ++ imgField img 324 57

/-- The key that the owner signature must verify with: the installed one; on an unowned device the image's
enrollment key, which must not be zero. -/
def BootState.ownerKey (b : BootState) (img : List (BitVec 8)) : Option (List Byte) :=
  match b.owner with
  | some k => some k
  | none => let e := imgField img 324 57
    if e.all fun x => x == 0#8 then none else some e

/-- An image passes every check of R386 and R387. -/
def BootState.accepts (b : BootState) (img : List (BitVec 8)) : Bool :=
  imgWord img 0 4 == 0x4C4D5048 && imgWord img 4 4 == 1 && img.length == 512 + imgWord img 16 8 &&
    (imgField img 381 131).all (fun x => x == 0#8) &&
    Config.shake256 (img.drop 512) == imgField img 32 64 &&
    Config.ed448Verify Config.makerKey (imgSigned img) (imgField img 96 114) &&
    (match b.ownerKey img with
     | some k => Config.ed448Verify k (imgSigned img) (imgField img 210 114)
     | none => false) &&
    decide (b.fused ≤ imgWord img 8 8)

/-- The nonce of 32 bytes that the device issues for the next request (R387). -/
def BootState.nonce (b : BootState) : List Byte := leBytes 32 (Config.nonce b.nonces).toNat

/-- Lane 0 of a control core's wave, at the image's load address; the others have exited (R373). -/
def controlLanes (pc : BitVec 64) : Tab Lane :=
  (List.range 16).map fun l => (l, { Lane.absent with pc := pc, exited := l != 0 })

/-- A control core starts: its registers at reset, its wave at an address (R373, R374, log 38). -/
def State.startControl (s : State) (c : Nat) (pc : BitVec 64) : State :=
  let k := s.nextOp
  (s.fresh.setWave k { Wave.absent with
    used := true, block := 1000000 + c, control := some c, lanes := controlLanes pc, retired := false }).setCtl c
    { CtlCore.start with wave := k }

/-- The executive makes its request queue (R382, R383), whose descriptor stands after its ring, and the table of the host's
aperture (R372), in its own memory. -/
def State.startExecutive (s : State) : State :=
  let n := 4 + Config.execPlace 4 0 % 13
  let size := 64 * 2 ^ n
  let a := s.site 3 0 4096 (size + 64)
  let s := s.keep 1 a (size + 64)
  let t := s.site 2 barCtx 256 4096
  let s := (s.keep 0 t 4096).clearTable t
  let s := { s with contexts := s.contexts.put barCtx ⟨t, 2 ^ 32, []⟩, beat := s.time }
  (s.setQueue 0 { Queue.absent with
    used := true, state := 0, ctx := physCtx, window := 0, vector := 0, desc := a + size, base := a, log2n := n }).putDesc 0

/-- The body of an image is loaded at its address. -/
def State.loadImage (s : State) (image : List (BitVec 8)) : State :=
  let a := bits (imgWord image 24 8) 38 0
  (s.keep 1 a (image.length - 512)).sysWrite a (image.drop 512)

/-- HBM and every vault are cleared (R387). -/
def State.cleared (s : State) : State :=
  { s with mem := [], hist := [], vault := [], vlines := [], bad := [], badNames := [], flushed := [], loose := [], pubs := [] }

/-- BOOT (R386, R387): the ROM verifies the image. One that fails is not run, and the failure is reported;
one that passes is loaded, installs the owner it enrolls, and starts on the control cores. The executive verifies each
further image so before it loads it. -/
def execBoot (image : List (BitVec 8)) (s : State) : Host.Outcome State Fault Refusal :=
  .next (
    if s.boot.booted then (if s.boot.accepts image then s.loadImage image else s.countErrors 4 1)
    else
      let s := { s with power := { s.power with on := true } }
      let s := if s.boot.clear then { s.cleared with boot := { s.boot with clear := false } } else s
      if s.boot.accepts image then
        let pc := BitVec.ofNat 64 (imgWord image 24 8)
        let s := (List.range 16).foldl (fun s c => s.startControl c pc) (s.loadImage image)
        { s.startExecutive with
          boot := { s.boot with booted := true, failed := false, owner := s.boot.ownerKey image, sealing := true } }
      else { s with boot := { s.boot with failed := true } }.countErrors 4 1)

/-- OWNERSHIP_TRANSFER (R387, R409): a request reaches the ROM, before the executive runs; a verified one erases the owner's
keys, one that fails changes nothing. -/
def execOwnershipTransfer (nonce request signature : List (BitVec 8)) (s : State) :
    Host.Outcome State Fault Refusal :=
  .next (match s.boot.owner with
    | some k =>
      if !s.boot.booted && nonce == s.boot.nonce && request == Config.serial ++ nonce &&
          Config.ed448Verify k request signature then
        { s with boot := { s.boot with owner := none, sealing := false, clear := true, nonces := s.boot.nonces + 1 } }
      else s
    | none => s)

/-! ## Sensors, throttling, the management port (R407-R409) -/

/-- A further stage of throttling is due: the samples have asked for it for longer than stages are in force (R407). -/
def Power.rises (p : Power) : Bool := decide (p.throttle.length ≤ 2) && decide (p.throttle.length < p.excess)

/-- The last stage of throttling ends: the last sample has not asked for any (R407, R408). -/
def Power.falls (p : Power) : Bool := !p.throttle.isEmpty && p.excess == 0

/-- THROTTLE (R407): stages 0 matrix engines, 1 palp queues and 2 vector pipes come into force in that order while an excess
is measured, and go in the reverse once none is. It lengthens time only. -/
def execThrottle (stage : Nat) (on : Bool) (s : State) : Host.Outcome State Fault Refusal :=
  .next (
    let t := s.power.throttle
    if on && t.length == stage && s.power.rises then
      { s with power := { s.power with throttle := List.range (stage + 1) } }
    else if !on && t.length == stage + 1 && s.power.falls then
      { s with power := { s.power with throttle := List.range stage } }
    else s)

/-- The power limit in mW at a temperature (R407, R408): 2,400 W, lowered in proportion from 95 °C on (log 80). -/
def limitAt (milliC : Nat) : Nat := 2400000 - Config.limitSlope * (milliC - 95000)

/-- SENSOR_SAMPLE (R407-R409): each core die's temperature, the power over 1 ms and the coolant state; from 95 °C, or above
the limit, throttling is in force. -/
def execSensorSample (milliC : DieTemps) (power : PowerSample) (s : State) : Host.Outcome State Fault Refusal :=
  .next (
    let p := s.power
    let top := max milliC.die0 milliC.die1
    let asked := decide (95000 ≤ top) || decide (limitAt top < power.milliW)
    { s with power := { p with
        milliC := milliC.die0, milliC1 := milliC.die1, milliW := power.milliW, coolant := power.coolant
        cycles := p.counts.get 0 3, sampled := s.time
        hot := if 105000 ≤ top then p.hot.or (some s.time) else none
        excess := if asked then p.excess + 1 else 0
        throttle := if asked && p.throttle.isEmpty then [0] else p.throttle } })

/-- What the management port answers (R409): power, temperatures, coolant state and throttle cycles as last sampled, the
error counts and the boot failures. -/
def State.readings (s : State) : List Nat :=
  let p := s.power
  let c (i : Nat) := p.counts.get 0 i
  [p.milliW, p.milliC, p.milliC1, p.coolant, p.cycles, c 0, c 1, c 2, c 4]

/-- MANAGEMENT_PORT_REQUEST (R409): answered while the executive runs. -/
def execManagementPortRequest (s : State) : Host.Outcome State Fault Refusal :=
  .next (if s.boot.booted then { s with power := { s.power with answer := s.readings } } else s)

/-! ## Power (R410, R411) -/

/-- What is left when power goes: the package's non-volatile store; the counter of free values runs on (log 3). -/
def State.powerOff (s : State) : State :=
  { State.reset with
    free := s.free, agenda := s.agenda
    power := { State.reset.power with on := false }
    boot := { State.reset.boot with
      owner := s.boot.owner, sealing := s.boot.sealing, fused := s.boot.fused, clear := s.boot.clear
      nonces := s.boot.nonces } }

/-- POWER_REMOVAL (R410, R411). -/
def execPowerRemoval (s : State) : Host.Outcome State Fault Refusal := .next s.powerOff

/-- The thermal trip is due: samples over 1 ms, at 2.25 GHz, have shown 105 °C or more. -/
def State.tripDue (s : State) : Bool := s.power.hot.any fun t => decide (t + 2250000 ≤ s.power.sampled)

/-- THERMAL_TRIP (R408, R411): power goes. -/
def execThermalTrip (s : State) : Host.Outcome State Fault Refusal :=
  .next (if s.tripDue then s.powerOff else s)

/-! ## Soft errors (R216, R332) -/

/-- Words of loads and atomics in flight: the wave, the number of the result and the lane. -/
def State.wordsInFlight (s : State) : List (Nat × Nat × Nat) :=
  s.waves.flatMap fun p => p.2.flights.zipIdx.flatMap fun f =>
    if f.1.uniform || f.1.src == 0 then [] else f.1.vals.map fun v => (p.1, f.2, v.1)

/-- A word in flight reads as zero, and its wave's CR.ERRS shows it. -/
def State.dropWord (s : State) (k i l : Nat) : State :=
  match (s.wave k).flights[i]? with
  | some f =>
    let g := { f with vals := f.vals.map fun v => if v.1 == l then (l, 0) else v }
    (s.onWave k fun w => { w with flights := w.flights.set i g }).noteErrs k f.src 0 f.name 1
  | none => s

/-- SOFT_ERROR (R216, R332): a correctable error is corrected and counted; an uncorrectable one is counted and
its word reads as zero: once in transit, until written whole where it is stored. Which word in transit is
left open. -/
def execSoftError (place : ErrPlace) (correctable : Bool) (s : State) : Host.Outcome State Fault Refusal :=
  .next (
    if correctable then s.countErrors 0 1
    else
      let t := s.countErrors 1 1
      match place with
      | .home pa =>
        let a := pa / 8 * 8
        if t.bad.contains a then t else { t with bad := a :: t.bad }
      | .path =>
        let ws := s.wordsInFlight
        match ws[s.choose (tagMisc 0) ws.length]? with
        | some x => t.dropWord x.1 x.2.1 x.2.2
        | none => t
      | e => if t.badNames.contains e then t else { t with badNames := e :: t.badNames })

end Sys2Proof.Machine
end

