-- ==== Sys2Proof/Machine/Clock.lean ====
section
/-! DEFINITION. The passing of a cycle: CR.TIME, the launches' time records, throttle cycles (R32, R388,
R407). -/

namespace Sys2Proof.Machine

/-- A wave, or an operation that it issued, belongs to a launch. -/
def State.ofLaunch (s : State) (n k : Nat) : Bool := !(s.wave k).priv && s.launchOf (s.wave k) == n

/-- A page that an operation of wave `k` waits for is not yet serviced. -/
def State.unserviced (s : State) (k va : Nat) : Bool := (s.servedAt (s.ctxOf (s.wave k)) va).isNone

/-- A translation fault raised by an access of the launch awaits service (R388). -/
def State.awaitsService (s : State) (n : Nat) : Bool :=
  s.waves.any (fun p => s.ofLaunch n p.1 && !p.2.retired && p.2.live.any fun l => !(p.2.lane l).wait.parkedOn.isEmpty) ||
    s.copies.any (fun p => s.ofLaunch n p.2.wave && p.2.parked.any (s.unserviced p.2.wave)) ||
    s.mats.any (fun p => s.ofLaunch n p.2.wave && p.2.parts.any fun q => q.parked.any (s.unserviced p.2.wave)) ||
    s.palps.any fun p => s.ofLaunch n p.2.wave && p.2.parked.any (s.unserviced p.2.wave)

/-- A wave has a SYSC storage request without a reply. -/
def State.storageOpen (s : State) (w : Wave) : Bool :=
  w.service.any fun c => (c.num == 1 || c.num == 2) && !s.replies.has c.id

/-- A SYSC storage request of the launch is outstanding; one of a saved gang stands in its image (R339). -/
def State.awaitsStorage (s : State) (n : Nat) : Bool :=
  s.waves.any (fun p => s.ofLaunch n p.1 && s.storageOpen p.2) ||
    s.gangs.any fun p => p.2.used && p.2.launch == n && p.2.preempt == .saved &&
      ((s.imageAt p.1 p.2.base.toNat).map fun i => i.waves.any fun w => s.storageOpen w.2).getD false

/-- A gang of the launch is placed or saved, or an operation of it is in flight. -/
def State.executes (s : State) (n : Nat) : Bool :=
  s.gangs.any (fun p => p.2.used && p.2.launch == n && (p.2.placed || p.2.preempt == .saved)) ||
    s.copies.any (fun p => s.ofLaunch n p.2.wave) || s.palps.any (fun p => s.ofLaunch n p.2.wave) ||
    s.colls.any (fun p => s.ofLaunch n p.2.wave) || s.mats.any fun p => s.ofLaunch n p.2.wave && !p.2.complete

/-- The class of the present cycle for an accepted launch (R388), as its place in the time record: 0 SUBMIT,
1 QUEUE, 2 EXEC, 3 FAULT, 4 IO. -/
def State.timeClass (s : State) (n : Nat) : Nat :=
  if s.awaitsService n then 3 else if s.awaitsStorage n then 4 else if s.executes n then 2 else 1

/-- A cycle more in one class. -/
def Launch.charge (l : Launch) (c : Nat) : Launch := { l with spent := l.spent.set c (l.spent.getD c 0 + 1) }

/-- The cores that waves are on. -/
def State.busyCores (s : State) : List Nat := ((s.waves.filter fun p => p.2.used).map fun p => s.coreOf p.2).eraseDups

/-- The cores' issue cycles under throttling (R407); in the cycle that a granted lane set takes there is none. -/
def State.throttled (s : State) : Tab Nat :=
  if !s.power.throttle.contains 2 then []
  else if s.iss.granted then s.starved
  else s.busyCores.foldl (fun t c => t.put c (s.withhold c)) []

/-- A cycle passes (CR.TIME, R32): launches that have been accepted and have not ended are charged, throttle
cycles are counted, the free values of the next step are fresh (log 3), and waiting waves see the barriers' flips (R175). -/
def State.tick (s : State) : State :=
  { s.seeFlips with
    time := s.time + 1
    free := s.free + 1
    starved := s.throttled
    launches := s.launches.map fun p => if p.2.used && !p.2.ended then (p.1, p.2.charge (s.timeClass p.1)) else p
    power := if s.power.throttle.isEmpty then s.power
      else { s.power with counts := s.power.counts.put 3 (s.power.counts.get 0 3 + 1) } }

end Sys2Proof.Machine
end

