-- ==== Sys2Proof/Machine/Watch.lean ====
section
/-! DEFINITION. Reports of watchpoints that engines have hit (R390): the accesses themselves note the hits. -/

namespace Sys2Proof.Machine

/-- A hit as its event names it. -/
def EngineHit.event (h : EngineHit) : Instr := .engineWatchpointHit h.engine h.slot h.addr

/-- Hits that wait for their reports. -/
def State.engineHits (s : State) : List Instr := s.hits.map EngineHit.event

/-- The record of a hit goes to the fault ring of the launch, and is delivered as a signal of KIND 3. -/
def State.reportHit (s : State) (h : EngineHit) : State :=
  let n := s.launchOf (s.wave h.wave)
  let t : Trap := ⟨causeWatch, h.addr, h.lanes.headD 0, h.lanes, h.pc, h.iex⟩
  let r := s.putRecord n (s.clusterOf (s.wave h.wave)) (s.record h.wave t (s.wordsAt h.wave h.pc) false false false)
  r.1.signalRecord (s.launch n).queue 3 0 ((s.launch n).recordVa r.2) (s.launch n).id

/-- ENGINE_WATCHPOINT_HIT (R390): the first hit of an operation on a watchpoint gives a record; the operation runs on. -/
def execEngineWatchpointHit (engine : EngineRef) (slot : Nat) (addr : BitVec 64) (s : State) :
    Host.Outcome State Fault Refusal :=
  .next (match s.hits.find? fun h => h.event == .engineWatchpointHit engine slot addr with
    | some h => { s with hits := s.hits.erase h }.reportHit h
    | none => s)

end Sys2Proof.Machine
end

