-- ==== Sys2Proof/Machine/Auto.lean ====
section
/-! DEFINITION. The events of the device that are due when the surroundings bring none and no lane set has been
granted issue; where several are, which comes first is left open (R10, log 3). What the executive decides, and
what comes from outside the device, stands in the agenda (log 39). -/

namespace Sys2Proof.Machine

/-- An event, if it is due. -/
def due (c : Bool) (e : Instr) : List Instr := if c then [e] else []

/-! ## Waves and blocks -/

/-- What a SYSC asks for, where nothing outside the device decides the reply (R352, R381). -/
def State.callEvents (s : State) (k : Nat) : List Instr :=
  due (s.replyReady k).isSome (.syscReply k allOnes) ++
  match s.openCall k with
  | .none => []
  | .some c => match c.num with
    | 0 => [.queueDoorbell k]
    | 3 => [.debuggerLog k]
    | 4 => due (!(s.reqs.any fun p => p.2.call == c.id)) (.executiveRequest (.wave k))
    | n => due (decide (4 < n)) (.syscReply k allOnes)

/-- Events of a wave. -/
def State.waveEvents (s : State) (k : Nat) (w : Wave) : List Instr :=
  if !w.used || w.retired then []
  else
    due ((w.awaiting.map (s.deliverable k)).getD false) (.trapDelivery k) ++
    due (s.deadlocked k) (.memberWaitDeadlock k) ++
    due ((w.atBarrier.map fun b => s.barPasses k b).getD false && !s.frozen k) (.barrierPass k) ++
    due (!(w.waiting Wait.isMolt).isEmpty) (.moltPerformed k) ++
    due ((w.control.map fun c => (s.ctl c).event != 0).getD false && !(w.due fun x => x == .halt).isEmpty)
      (.haltWake k) ++
    s.callEvents k ++
    w.flights.zipIdx.filterMap fun f => if f.1.remote.isNone then some (.longLatencyResultArrival k f.2) else none

/-- Events of a block. -/
def State.blockEvents (s : State) (k : Nat) (b : Block) : List Instr :=
  if !b.used || b.ended then []
  else
    due (s.orphaned k) (.transferOrphaned k) ++
    ((((b.waves.filterMap fun j => (s.wave j).atBarrier).eraseDups).filter fun n => s.barOrphan k n).map fun n =>
      .barrierOrphaned k n) ++
    due (if b.rebind.isEmpty then s.overDone k else (s.stopped k).all s.atPoint) (.rebind k) ++
    due (s.blockOver k) (.blockEnd k)

/-! ## Gangs and launches -/

/-- Where the image of a gang goes (log 25): it is as long as the gang's state now gives, and what engines that stop for it
add. -/
def State.imagePlace (s : State) (g kind : Nat) : BitVec 64 :=
  BitVec.ofNat 64 (s.site 5 (g * 2 ^ 32 + (s.gang g).seq) 128 (2 * (s.nextImage g kind).length + 2 ^ 20))

/-- An event that writes an image, if it is due. -/
def State.imageDue (s : State) (c : Bool) (g kind : Nat) (e : BitVec 64 → Instr) : List Instr :=
  if c then [e (s.imagePlace g kind)] else []

/-- A drain is over (R336). -/
def State.drainOver (s : State) (g : Nat) (q : Gang) : Bool :=
  q.preempt == .draining && (q.retired || (q.grants.isEmpty && s.drainQuiet g) || decide (q.due ≤ s.time))

/-- Events of a gang. -/
def State.gangEvents (s : State) (g : Nat) (q : Gang) : List Instr :=
  let kind := q.saveKind false
  due (s.reports.any fun r => r.gang == g) (.preemptionReport g) ++
  s.imageDue (s.drainOver g q) g kind (.drainEnd g) ++
  due (q.used && q.retired && q.placed && q.preempt == .none) (.gangRetired g) ++
  if !q.used || q.retired || !q.placed then []
  else
    due (q.preempt == .asked && !s.requestWaits g) (.preemptionRequest g (q.due - s.time) q.allow) ++
    due (q.preempt == .discarding && s.gangAtPoint g) (.discard g) ++
    s.imageDue (q.preempt == .saving && s.gangQuiet g) g kind (.save g false) ++
    s.imageDue (s.checkpointing g && s.gangQuiet g) g 2 (.checkpointImage g)

/-- Events of a launch. -/
def State.launchEvents (s : State) (n : Nat) (l : Launch) : List Instr :=
  due (l.gangs.any fun g => !(s.gang g).record.isEmpty) (.faultRecordWritten n) ++
  due (s.launchOver n) (.launchEnd n)

/-- The event by which a packet starts. -/
def packetEvent (q : Nat) (p : Packet64) : Instr :=
  match pkType p.words with
  | 1 => .launch q
  | 2 => .wait q
  | 3 => .signal q
  | _ => .marker q

/-- Events of a queue. -/
def State.queueEvents (s : State) (k : Nat) (q : Queue) : List Instr :=
  due (k == 0 && q.used && decide (q.ridx < q.widx)) (.executiveRequest .host) ++
  (match q.waiting with
   | some (_, p) => due (s.waitMet q p) (.waitPoll k)
   | none => []) ++
  match q.nextPacket with
  | some (_, p) => [packetEvent k p]
  | none => []

/-! ## Engines -/

/-- Events of a copy. -/
def State.copyEvents (s : State) (k : Nat) (c : CopyOp) : List Instr :=
  match c.parked with
  | some va =>
    if c.cancel then [.copyCompletion k]
    else due (s.pageReady c.wave (c.kind == 2) va && s.replayTurn (s.coreOf (s.wave c.wave)) c.wave c.held va) (.copyFaultResume k)
  | none => due (c.cancel || s.gaveUp c.away) (.copyCompletion k)

/-- Events of a matrix operation. -/
def State.matEvents (s : State) (k : Nat) (m : MatOp) : List Instr :=
  (m.parts.zipIdx.flatMap fun p =>
    due (s.partReady k p.2) (.matrixIntegrationStep k p.2) ++
    due ((p.1.parked.map fun va => s.pageReady m.wave false va &&
      s.replayTurn (s.block p.1.block).core m.wave p.1.held va).getD false) (.matrixFaultReplay k p.2)) ++
  due (m.posted.isSome && !m.complete && m.parts.all fun p => decide (mmaK m.ops / 16 ≤ p.steps))
    (.matrixOperationCompletion k)

/-- Events of a palp command. -/
def State.palpEvents (s : State) (k : Nat) (p : PalpOp) : List Instr :=
  if p.parked.isEmpty then due (!s.assignWaits p) (.palpCompletion k)
  else due (p.parked.any fun va => s.palpFreed p va &&
    s.replayTurn (s.coreOf (s.wave p.wave)) p.wave (p.held != 0) va) (.palpPartResume k)

/-- Events of a COLL. -/
def State.collEvents (s : State) (k : Nat) (o : CollOp) : List Instr :=
  match o.src, s.memberOf o with
  | none, _ => [.collCapture k]
  | some _, some m => due (s.matched o m.rank m.members.length).isSome (.collCompletion k)
  | some _, none => []

/-- Events of the engines. -/
def State.engineEvents (s : State) : List Instr :=
  (s.copies.flatMap fun p => s.copyEvents p.1 p.2) ++ (s.mats.flatMap fun p => s.matEvents p.1 p.2) ++
    (s.palps.flatMap fun p => s.palpEvents p.1 p.2) ++ s.colls.flatMap fun p => s.collEvents p.1 p.2

/-! ## The device -/

/-- 10 µs at 2.25 GHz (R1). -/
def beatEvery : Nat := 22500

/-- Events of power and temperature, and of the scheduler and its standby (R376, R407, R408). -/
def State.boardEvents (s : State) : List Instr :=
  let n := s.power.throttle.length
  let beats := s.boot.booted && s.sched == 0
  due s.tripDue .thermalTrip ++ due s.power.rises (.throttle n true) ++ due s.power.falls (.throttle (n - 1) false) ++
    due (beats && decide (s.beat + beatEvery ≤ s.time)) .heartbeat ++
    due (beats && decide (s.beat + beatLimit ≤ s.time)) .schedulerTakeover

/-- Events of command links, control cores, Ghedy links and memory. -/
def State.deviceEvents (s : State) : List Instr :=
  s.boardEvents ++
  ((s.faulting.filter fun p => !s.notices.contains p).map fun p => .faultNotice p.1 (BitVec.ofNat 64 (p.2 * 2 ^ 16))) ++
  (s.ctls.flatMap fun p => due (p.2.armed && decide (p.2.timer.toNat ≤ s.coreTime (256 + p.1))) (.timerExpiry p.1)) ++
  (s.clinks.flatMap fun p => due (!p.2.up.isEmpty) (.commandLinkMessage p.1 true) ++
    due (!p.2.down.isEmpty) (.commandLinkMessage p.1 false)) ++
  (s.glinks.flatMap fun p => due (decide (16 ≤ p.2.replays)) (.linkRetrain p.1)) ++
  (List.range s.access.length).map .accessPerformed

/-- Cores on which a wave is eligible, or a lane set that yielded has rested. -/
def State.grantEvents (s : State) : List Instr :=
  (((s.waves.filter fun p => (s.offer p.1).isSome || (p.2.used && p.2.live.any fun l => (p.2.lane l).rest)).map fun p =>
    s.coreOf p.2).eraseDups).map .issueGrant

/-- Vault-cache lines, which may be written back at any time (R224). -/
def State.lineEvents (s : State) : List Instr := s.vlines.map fun v => .vaultCacheWriteback v.cluster v.line

/-- Lines of a context that its vault-cache partition on a cluster has room for: one may pass through an empty partition
(R205). -/
def State.lineRoom (s : State) (ctx cluster : Nat) : Nat :=
  max 1 (512 * (s.parts.get (0, 0) (64 * ctx + cluster)).2)

/-- Write-backs of lines of contexts that have more on a cluster than their vault-cache partitions there have room for
(R205, R224). -/
def State.lineOverflow (s : State) : List Instr :=
  (s.vlines.filter fun v => s.parts.has (64 * v.ctx + v.cluster) && decide (s.lineRoom v.ctx v.cluster <
    (s.vlines.filter fun x => x.ctx == v.ctx && x.cluster == v.cluster).length)).map fun v =>
      .vaultCacheWriteback v.cluster v.line

/-- Every event that is due. A watchpoint that an operation has hit is reported before anything else happens, and lines
without room are written back before anything else happens. -/
def State.events (s : State) : List Instr :=
  match s.engineHits ++ s.lineOverflow with
  | [] =>
    (s.waves.flatMap fun p => s.waveEvents p.1 p.2) ++ (s.blocks.flatMap fun p => s.blockEvents p.1 p.2) ++
      (s.gangs.flatMap fun p => s.gangEvents p.1 p.2) ++ (s.launches.flatMap fun p => s.launchEvents p.1 p.2) ++
      (s.queues.flatMap fun p => s.queueEvents p.1 p.2) ++
      s.engineEvents ++ s.deviceEvents ++ s.grantEvents ++ s.lineEvents
  | hits => hits

/-- The event that comes next. -/
def State.auto (s : State) : Option Instr :=
  match s.events with
  | [] => none
  | [e] => some e
  | es => es[s.choose (tagMisc 0) es.length]?

/-- A lane set has been held at a MOLT for so long that nothing else comes first: MOLTs are performed within 2,000 cycles
(R195, log 49). -/
def State.overdue (s : State) : Option Instr :=
  (s.waves.find? fun p => p.2.used && !p.2.retired && p.2.live.any fun l => match (p.2.lane l).wait with
    | .molt _ t => decide (t + 500 ≤ s.time)
    | _ => false).map fun p => .moltPerformed p.1

/-! ## The surroundings -/

/-- An event is a boot. -/
def Instr.isBoot : Instr → Bool
  | .boot _ => true
  | _ => false

/-- Without power: the first boot that the surroundings bring, and what follows it (R410). -/
def State.bootDue (s : State) : Option (Instr × List (Nat × Instr)) :=
  match s.agenda.dropWhile fun e => !Instr.isBoot e.2 with
  | e :: rest => some (e.2, rest)
  | [] => none

/-- The first event of the agenda, once it is due, and what follows it. -/
def State.agendaDue (s : State) : Option (Instr × List (Nat × Instr)) :=
  match s.agenda with
  | e :: rest => if e.1 ≤ s.time then some (e.2, rest) else none
  | [] => none

end Sys2Proof.Machine
end

