-- ==== Sys2Proof/Machine/FloatOps.lean ====
section
/-! DEFINITION. Floating-point and special-function instructions (R113-R132). -/

namespace Sys2Proof.Machine

/-- A float operation of one, two or three FP32 lane sources. -/
def State.float1 (s : State) (i : Instr) (o : Ops) (f : Nat → Nat × Flags) : State :=
  s.issue i fun s act => s.floatEff o.dst.toNat act fun l => f (s.rd 32 l o.s0.toNat)

def State.float2 (s : State) (i : Instr) (o : Ops) (f : Nat → Nat → Nat × Flags) : State :=
  s.issue i fun s act => s.floatEff o.dst.toNat act fun l => f (s.rd 32 l o.s0.toNat) (s.rd 32 l o.s1.toNat)

def State.float3 (s : State) (i : Instr) (o : Ops) (f : Nat → Nat → Nat → Nat × Flags) : State :=
  s.issue i fun s act => s.floatEff o.dst.toNat act fun l =>
    f (s.rd 32 l o.s0.toNat) (s.rd 32 l o.s1.toNat) (s.rd 32 l o.s2.toNat)

/-- A special function of one source: long-latency, on the special-function unit (R128). -/
def State.special1 (s : State) (i : Instr) (o : Ops) (f : Nat → Nat × Flags) : State :=
  s.issue i fun s act => s.specialEff o.dst.toNat act fun l => f (s.rd 32 l o.s0.toNat)

/-- The element that a selector names in a lane name (R123). -/
def selElem (sel x : Nat) : Nat :=
  let w := fmtWidth (bits sel 5 0)
  x / 2 ^ (w * bits sel 7 6) % 2 ^ w

/-- The destination with the selected element replaced, its other bits kept (R124). -/
def mergeElem (sel old v : Nat) : Nat :=
  let w := fmtWidth (bits sel 5 0)
  let p := w * bits sel 7 6
  old - old / 2 ^ p % 2 ^ w * 2 ^ p + v % 2 ^ w * 2 ^ p

/-- VFADD (R115). -/
def execVfadd (o : Ops) (s : State) : Host.Outcome State Fault Refusal :=
  .next (s.float2 (.vfadd o) o (fadd (s.mode o)))

/-- VFSUB (R115). -/
def execVfsub (o : Ops) (s : State) : Host.Outcome State Fault Refusal :=
  .next (s.float2 (.vfsub o) o (fsub (s.mode o)))

/-- VFMUL (R115). -/
def execVfmul (o : Ops) (s : State) : Host.Outcome State Fault Refusal :=
  .next (s.float2 (.vfmul o) o (fmul (s.mode o)))

/-- VFFMA (R115). -/
def execVffma (o : Ops) (s : State) : Host.Outcome State Fault Refusal :=
  .next (s.float3 (.vffma o) o (ffma (s.mode o)))

/-- VFMIN (R116). -/
def execVfmin (o : Ops) (s : State) : Host.Outcome State Fault Refusal :=
  .next (s.float2 (.vfmin o) o fmin)

/-- VFMAX (R116). -/
def execVfmax (o : Ops) (s : State) : Host.Outcome State Fault Refusal :=
  .next (s.float2 (.vfmax o) o fmax)

/-- VFRINT (R117). -/
def execVfrint (o : Ops) (s : State) : Host.Outcome State Fault Refusal :=
  .next (s.float1 (.vfrint o) o (frint (s.mode o)))

/-- VFEXP2F (R128). -/
def execVfexp2f (o : Ops) (s : State) : Host.Outcome State Fault Refusal :=
  .next (s.special1 (.vfexp2f o) o (fexp2f (s.mode o)))

/-- VFLOG2 (R128). -/
def execVflog2 (o : Ops) (s : State) : Host.Outcome State Fault Refusal :=
  .next (s.special1 (.vflog2 o) o (flog2 (s.mode o)))

/-- VFRCP (R128). -/
def execVfrcp (o : Ops) (s : State) : Host.Outcome State Fault Refusal :=
  .next (s.special1 (.vfrcp o) o (frcp (s.mode o)))

/-- VFRSQ (R128). -/
def execVfrsq (o : Ops) (s : State) : Host.Outcome State Fault Refusal :=
  .next (s.special1 (.vfrsq o) o (frsq (s.mode o)))

/-- VFSQRT (R128). -/
def execVfsqrt (o : Ops) (s : State) : Host.Outcome State Fault Refusal :=
  .next (s.special1 (.vfsqrt o) o (fsqrt (s.mode o)))

/-- VFSIN (R128). -/
def execVfsin (o : Ops) (s : State) : Host.Outcome State Fault Refusal :=
  .next (s.special1 (.vfsin o) o (fsin (s.mode o)))

/-- VFCOS (R128). -/
def execVfcos (o : Ops) (s : State) : Host.Outcome State Fault Refusal :=
  .next (s.special1 (.vfcos o) o (fcos (s.mode o)))

/-- VFLDEXP (R121). -/
def execVfldexp (o : Ops) (s : State) : Host.Outcome State Fault Refusal :=
  .next (s.float2 (.vfldexp o) o (fldexp (s.mode o)))

/-- VFFREXP (R122). -/
def execVffrexp (o : Ops) (s : State) : Host.Outcome State Fault Refusal :=
  .next (s.float1 (.vffrexp o) o (ffrexp (bit o.s2.toNat 0)))

/-- VFCLASS (R120). -/
def execVfclass (o : Ops) (s : State) : Host.Outcome State Fault Refusal :=
  .next (s.float1 (.vfclass o) o fun a => (fclass a, 0))

/-- VFCVT (R124). -/
def execVfcvt (o : Ops) (s : State) : Host.Outcome State Fault Refusal :=
  .next (s.issue (.vfcvt o) fun s act => s.floatEff o.dst.toNat act fun l =>
    let r := cvtFloat (fmtOf (bits o.s1.toNat 5 0)) (fmtOf (bits o.s2.toNat 5 0)) (s.mode o)
      (bit o.s2.toNat 8) (selElem o.s1.toNat (s.rd 32 l o.s0.toNat))
    (mergeElem o.s2.toNat (s.rd 32 l o.dst.toNat) r.1, r.2))

/-- VFTOI (R125). -/
def execVftoi (o : Ops) (s : State) : Host.Outcome State Fault Refusal :=
  .next (s.issue (.vftoi o) fun s act => s.floatEff o.dst.toNat act fun l =>
    let w := fmtWidth (bits o.s2.toNat 5 0)
    let r := cvtToInt (fmtOf (bits o.s1.toNat 5 0)) w (bit o.s2.toNat 2) (s.mode o) (bit o.s2.toNat 8)
      (selElem o.s1.toNat (s.rd 32 l o.s0.toNat))
    (wrap 64 r.1, r.2))

/-- VITOF (R126). -/
def execVitof (o : Ops) (s : State) : Host.Outcome State Fault Refusal :=
  .next (s.issue (.vitof o) fun s act => s.floatEff o.dst.toNat act fun l =>
    let r := cvtFromInt (fmtOf (bits o.s2.toNat 5 0)) (s.mode o) (bit o.s2.toNat 8)
      (intVal (bits o.s1.toNat 5 0) (selElem o.s1.toNat (s.rd 64 l o.s0.toNat)))
    (mergeElem o.s2.toNat (s.rd 32 l o.dst.toNat) r.1, r.2))

/-- VFROPE (R132). -/
def execVfrope (o : Ops) (s : State) : Host.Outcome State Fault Refusal :=
  .next (s.issue (.vfrope o) fun s act => s.specialEff o.dst.toNat act fun l =>
    frope (s.mode o) (s.rd 64 l o.s0.toNat) (s.rd 32 l o.s1.toNat) (s.rd 32 l o.s2.toNat))

/-- VFDOT2 (R118). -/
def execVfdot2 (o : Ops) (s : State) : Host.Outcome State Fault Refusal :=
  .next (s.issue (.vfdot2 o) fun s act => s.floatEff o.dst.toNat act fun l =>
    fdot2 (s.mode o) (bit o.s2.toNat 0) (s.rd 32 l o.s0.toNat) (s.rd 32 l o.s1.toNat) (s.rd 32 l o.dst.toNat))

/-- VFCMP (R119): it pushes, and contributes its flags only when no lane overflows. -/
def execVfcmp (o : Ops) (s : State) : Host.Outcome State Fault Refusal :=
  .next (s.issue (.vfcmp o) fun s act =>
    let f := fun l => fcmp o.dst.toNat (s.rd 32 l o.s0.toNat) (s.rd 32 l o.s1.toNat)
    match s.pushEff act fun l => (f l).1 with
    | .done t => .done (t.raise (orFlags (act.map fun l => (f l).2)))
    | e => e)

end Sys2Proof.Machine
end

