-- ==== Sys2Proof/Machine/Pred.lean ====
section
/-! DEFINITION. Predicate instructions (R102). -/

namespace Sys2Proof.Machine

/-- A trap when some active lane's stack is too short: depth `a`, or `b` (R102). CR.TRAPA holds the count and
the depth that failed (R327). DESIGN CHOICE (log 63): where both fail, `a`. -/
def State.underEff (s : State) (act : List Nat) (a b : Nat) (f : Lane → Lane) : Eff :=
  match act.find? fun l => decide ((s.cur.lane l).count ≤ a) || decide ((s.cur.lane l).count ≤ b) with
  | some l =>
    let c := (s.cur.lane l).count
    .trap causePredUnder (BitVec.ofNat 64 ((if c ≤ a then a else b) * 16 + c)) l
  | none => .done (s.onWave s.iss.wave fun w => act.foldl (fun w l => w.setLane l (f (w.lane l))) w)

/-- Pa := Pa op Pb. -/
def State.predOp (s : State) (i : Instr) (p : POps) (f : Bool → Bool → Bool) : State :=
  s.issue i fun s act => s.underEff act p.a.toNat p.a.toNat fun t =>
    t.setPred p.a.toNat (f (t.pred p.a.toNat) (t.pred p.b.toNat))

/-- PNOT (R102). -/
def execPnot (p : POps) (s : State) : Host.Outcome State Fault Refusal :=
  .next (s.predOp (.pnot p) p fun x _ => !x)

/-- PAND (R102). -/
def execPand (p : POps) (s : State) : Host.Outcome State Fault Refusal :=
  .next (s.predOp (.pand p) p fun x y => x && y)

/-- POR (R102). -/
def execPor (p : POps) (s : State) : Host.Outcome State Fault Refusal :=
  .next (s.predOp (.por p) p fun x y => x || y)

/-- PXOR (R102). -/
def execPxor (p : POps) (s : State) : Host.Outcome State Fault Refusal :=
  .next (s.predOp (.pxor p) p fun x y => x != y)

/-- PDROP (R102). -/
def execPdrop (p : POps) (s : State) : Host.Outcome State Fault Refusal :=
  .next (s.issue (.pdrop p) fun s act => s.underEff act 0 0 Lane.pop)

/-- PDUP (R102). -/
def execPdup (p : POps) (s : State) : Host.Outcome State Fault Refusal :=
  .next (s.issue (.pdup p) fun s act => s.pushEff act fun l => (s.cur.lane l).pred p.a.toNat)

/-- PSWAP (R102). -/
def execPswap (p : POps) (s : State) : Host.Outcome State Fault Refusal :=
  .next (s.issue (.pswap p) fun s act => s.underEff act p.a.toNat p.b.toNat fun t =>
    (t.setPred p.a.toNat (t.pred p.b.toNat)).setPred p.b.toNat (t.pred p.a.toNat))

/-- PSETM (R102). -/
def execPsetm (p : POps) (s : State) : Host.Outcome State Fault Refusal :=
  .next (s.issue (.psetm p) fun s act => s.pushEff act fun l =>
    bit (s.readUnif l p.name.toNat).toNat l)

end Sys2Proof.Machine
end

