-- ==== Sys2Proof/Machine/Uniform.lean ====
section
/-! DEFINITION. Uniform integer instructions (R86-R94). -/

namespace Sys2Proof.Machine

/-- A single-word uniform instruction (R90): modifier bits are 0. -/
def State.unifU (s : State) (i : Instr) (u : UOps) (f : Nat → Nat → Nat) : State :=
  s.issue i fun s act => s.unifEff u.d.toNat (f (s.ru act u.a.toNat) (s.ru act u.b.toNat))

/-- `OP $d, $a, $b` in two or three words. -/
def State.unif2 (s : State) (i : Instr) (o : Ops) (f : Nat → Nat → Nat) : State :=
  s.issue i fun s act => s.unifEff o.dst.toNat (f (s.ru act o.s0.toNat) (s.ru act o.s1.toNat))

/-- `OP $d, $a, imm`. -/
def State.unifI (s : State) (i : Instr) (o : Ops) (f : Nat → Nat → Nat) : State :=
  s.issue i fun s act => s.unifEff o.dst.toNat (f (s.ru act o.s0.toNat) (wrap 64 (immOf o)))

/-- SADD in one word (R90). -/
def execSaddSingleWord (u : UOps) (s : State) : Host.Outcome State Fault Refusal :=
  .next (s.unifU (.saddSingleWord u) u (addI 64 false false))

/-- SSUB in one word (R90). -/
def execSsubSingleWord (u : UOps) (s : State) : Host.Outcome State Fault Refusal :=
  .next (s.unifU (.ssubSingleWord u) u (subI 64 false false))

/-- SMUL in one word (R90). -/
def execSmulSingleWord (u : UOps) (s : State) : Host.Outcome State Fault Refusal :=
  .next (s.unifU (.smulSingleWord u) u (mulI 64 false false))

/-- SMULH in one word (R90). -/
def execSmulhSingleWord (u : UOps) (s : State) : Host.Outcome State Fault Refusal :=
  .next (s.unifU (.smulhSingleWord u) u (mulhI 64 false))

/-- SAND in one word (R90). -/
def execSandSingleWord (u : UOps) (s : State) : Host.Outcome State Fault Refusal :=
  .next (s.unifU (.sandSingleWord u) u (fun a b => a &&& b))

/-- SOR in one word (R90). -/
def execSorSingleWord (u : UOps) (s : State) : Host.Outcome State Fault Refusal :=
  .next (s.unifU (.sorSingleWord u) u (fun a b => a ||| b))

/-- SXOR in one word (R90). -/
def execSxorSingleWord (u : UOps) (s : State) : Host.Outcome State Fault Refusal :=
  .next (s.unifU (.sxorSingleWord u) u (fun a b => a ^^^ b))

/-- SSHL in one word (R90). -/
def execSshlSingleWord (u : UOps) (s : State) : Host.Outcome State Fault Refusal :=
  .next (s.unifU (.sshlSingleWord u) u (shlI 64))

/-- SSHR in one word (R90). -/
def execSshrSingleWord (u : UOps) (s : State) : Host.Outcome State Fault Refusal :=
  .next (s.unifU (.sshrSingleWord u) u (shrI 64))

/-- SSAR in one word (R90). -/
def execSsarSingleWord (u : UOps) (s : State) : Host.Outcome State Fault Refusal :=
  .next (s.unifU (.ssarSingleWord u) u (sarI 64))

/-- SMIN in one word (R90). -/
def execSminSingleWord (u : UOps) (s : State) : Host.Outcome State Fault Refusal :=
  .next (s.unifU (.sminSingleWord u) u (minI 64 false))

/-- SMAX in one word (R90). -/
def execSmaxSingleWord (u : UOps) (s : State) : Host.Outcome State Fault Refusal :=
  .next (s.unifU (.smaxSingleWord u) u (maxI 64 false))

/-- SMOV in one word (R90). -/
def execSmovSingleWord (u : UOps) (s : State) : Host.Outcome State Fault Refusal :=
  .next (s.issue (.smovSingleWord u) fun s act => s.unifEff u.d.toNat (s.ru act u.a.toNat))

/-- SCMP in one word (R92). -/
def execScmpSingleWord (k : KOps) (s : State) : Host.Outcome State Fault Refusal :=
  .next (s.issue (.scmpSingleWord k) fun s act => s.pushEff act fun _ =>
    condI k.cond.toNat (valOf 64 k.uns (s.ru act k.a.toNat))
      (valOf 64 k.uns (if k.imm then wrap 64 (sext 7 k.b.toNat) else s.ru act k.b.toNat)))

/-- SLI in one word (R91). -/
def execSliSingleWord (c : Bool) (d : BitVec 7) (imm : BitVec 16) (s : State) : Host.Outcome State Fault Refusal :=
  .next (s.issue (.sliSingleWord c d imm) fun s _ => s.unifEff d.toNat (wrap 64 (sext 16 imm.toNat)))

/-- SLUI (R91). -/
def execSlui (c : Bool) (d : BitVec 3) (imm : BitVec 20) (s : State) : Host.Outcome State Fault Refusal :=
  .next (s.issue (.slui c d imm) fun s _ => s.unifEff d.toNat (wrap 64 (sext 32 (imm.toNat * 2 ^ 12))))

/-- SADDI (R91). -/
def execSaddi (c : Bool) (d : BitVec 7) (imm : BitVec 12) (s : State) : Host.Outcome State Fault Refusal :=
  .next (s.issue (.saddi c d imm) fun s act =>
    s.unifEff d.toNat (wrap 64 ((s.ru act d.toNat : Nat) + sext 12 imm.toNat)))

/-- SADD (R90). -/
def execSadd (o : Ops) (s : State) : Host.Outcome State Fault Refusal :=
  .next (s.unif2 (.sadd o) o (addI 64 (unsOf o) (satOf o)))

/-- SSUB (R90). -/
def execSsub (o : Ops) (s : State) : Host.Outcome State Fault Refusal :=
  .next (s.unif2 (.ssub o) o (subI 64 (unsOf o) (satOf o)))

/-- SMUL (R90). -/
def execSmul (o : Ops) (s : State) : Host.Outcome State Fault Refusal :=
  .next (s.unif2 (.smul o) o (mulI 64 (unsOf o) (satOf o)))

/-- SMULH (R90). -/
def execSmulh (o : Ops) (s : State) : Host.Outcome State Fault Refusal :=
  .next (s.unif2 (.smulh o) o (mulhI 64 (unsOf o)))

/-- SAND (R90). -/
def execSand (o : Ops) (s : State) : Host.Outcome State Fault Refusal :=
  .next (s.unif2 (.sand o) o (fun a b => a &&& b))

/-- SOR (R90). -/
def execSor (o : Ops) (s : State) : Host.Outcome State Fault Refusal :=
  .next (s.unif2 (.sor o) o (fun a b => a ||| b))

/-- SXOR (R90). -/
def execSxor (o : Ops) (s : State) : Host.Outcome State Fault Refusal :=
  .next (s.unif2 (.sxor o) o (fun a b => a ^^^ b))

/-- SSHL (R90). -/
def execSshl (o : Ops) (s : State) : Host.Outcome State Fault Refusal :=
  .next (s.unif2 (.sshl o) o (shlI 64))

/-- SSHR (R90). -/
def execSshr (o : Ops) (s : State) : Host.Outcome State Fault Refusal :=
  .next (s.unif2 (.sshr o) o (shrI 64))

/-- SSAR (R90). -/
def execSsar (o : Ops) (s : State) : Host.Outcome State Fault Refusal :=
  .next (s.unif2 (.ssar o) o (sarI 64))

/-- SMIN (R90). -/
def execSmin (o : Ops) (s : State) : Host.Outcome State Fault Refusal :=
  .next (s.unif2 (.smin o) o (minI 64 (unsOf o)))

/-- SMAX (R90). -/
def execSmax (o : Ops) (s : State) : Host.Outcome State Fault Refusal :=
  .next (s.unif2 (.smax o) o (maxI 64 (unsOf o)))

/-- SMOV (R90). -/
def execSmov (o : Ops) (s : State) : Host.Outcome State Fault Refusal :=
  .next (s.issue (.smov o) fun s act => s.unifEff o.dst.toNat (s.ru act o.s0.toNat))

/-- SSEL (R90). -/
def execSsel (o : Ops) (s : State) : Host.Outcome State Fault Refusal :=
  .next (s.issue (.ssel o) fun s act => s.unifEff o.dst.toNat
    (if s.ru act o.s2.toNat != 0 then s.ru act o.s0.toNat else s.ru act o.s1.toNat))

/-- SLDR (R93): the resource entry as it stood at launch, long-latency. -/
def execSldr (o : Ops) (s : State) : Host.Outcome State Fault Refusal :=
  .next (s.issue (.sldr o) fun s act => .done (s.flyUnif act o.dst.toNat
    (((s.kernelOf s.cur).res.getD o.s0.toNat []).getD (o.s2.toNat % 8) 0)))

/-- SCMP (R92). -/
def execScmp (o : Ops) (s : State) : Host.Outcome State Fault Refusal :=
  .next (s.issue (.scmp o) fun s act => s.pushEff act fun _ =>
    condI o.dst.toNat (valOf 64 (unsOf o) (s.ru act o.s0.toNat)) (valOf 64 (unsOf o) (s.ru act o.s1.toNat)))

/-- SADD with an immediate (R89, R90). -/
def execSaddImmediate (o : Ops) (s : State) : Host.Outcome State Fault Refusal :=
  .next (s.unifI (.saddImmediate o) o (addI 64 (unsOf o) (satOf o)))

/-- SSUB with an immediate (R89, R90). -/
def execSsubImmediate (o : Ops) (s : State) : Host.Outcome State Fault Refusal :=
  .next (s.unifI (.ssubImmediate o) o (subI 64 (unsOf o) (satOf o)))

/-- SMUL with an immediate (R89, R90). -/
def execSmulImmediate (o : Ops) (s : State) : Host.Outcome State Fault Refusal :=
  .next (s.unifI (.smulImmediate o) o (mulI 64 (unsOf o) (satOf o)))

/-- SMULH with an immediate (R89, R90). -/
def execSmulhImmediate (o : Ops) (s : State) : Host.Outcome State Fault Refusal :=
  .next (s.unifI (.smulhImmediate o) o (mulhI 64 (unsOf o)))

/-- SAND with an immediate (R89, R90). -/
def execSandImmediate (o : Ops) (s : State) : Host.Outcome State Fault Refusal :=
  .next (s.unifI (.sandImmediate o) o (fun a b => a &&& b))

/-- SOR with an immediate (R89, R90). -/
def execSorImmediate (o : Ops) (s : State) : Host.Outcome State Fault Refusal :=
  .next (s.unifI (.sorImmediate o) o (fun a b => a ||| b))

/-- SXOR with an immediate (R89, R90). -/
def execSxorImmediate (o : Ops) (s : State) : Host.Outcome State Fault Refusal :=
  .next (s.unifI (.sxorImmediate o) o (fun a b => a ^^^ b))

/-- SSHL with an immediate (R89, R90). -/
def execSshlImmediate (o : Ops) (s : State) : Host.Outcome State Fault Refusal :=
  .next (s.unifI (.sshlImmediate o) o (shlI 64))

/-- SSHR with an immediate (R89, R90). -/
def execSshrImmediate (o : Ops) (s : State) : Host.Outcome State Fault Refusal :=
  .next (s.unifI (.sshrImmediate o) o (shrI 64))

/-- SSAR with an immediate (R89, R90). -/
def execSsarImmediate (o : Ops) (s : State) : Host.Outcome State Fault Refusal :=
  .next (s.unifI (.ssarImmediate o) o (sarI 64))

/-- SMIN with an immediate (R89, R90). -/
def execSminImmediate (o : Ops) (s : State) : Host.Outcome State Fault Refusal :=
  .next (s.unifI (.sminImmediate o) o (minI 64 (unsOf o)))

/-- SMAX with an immediate (R89, R90). -/
def execSmaxImmediate (o : Ops) (s : State) : Host.Outcome State Fault Refusal :=
  .next (s.unifI (.smaxImmediate o) o (maxI 64 (unsOf o)))

/-- SLI (R91). -/
def execSli (o : Ops) (s : State) : Host.Outcome State Fault Refusal :=
  .next (s.issue (.sli o) fun s _ => s.unifEff o.dst.toNat (wrap 64 (immOf o)))

/-- SCMP with an immediate (R92). -/
def execScmpImmediate (o : Ops) (s : State) : Host.Outcome State Fault Refusal :=
  .next (s.issue (.scmpImmediate o) fun s act => s.pushEff act fun _ =>
    condI o.dst.toNat (valOf 64 (unsOf o) (s.ru act o.s0.toNat))
      (valOf 64 (unsOf o) (wrap 64 (immOf o))))

end Sys2Proof.Machine
end

