-- ==== Sys2Proof/Machine/Dispatch.lean ====
section
/-! DEFINITION. The dispatcher: one arm per row of the opcode table. -/

namespace Sys2Proof.Machine

def exec (i : Instr) (s : State) : Host.Outcome State Fault Refusal :=
  match i with
  | .nop => Sys2Proof.Machine.execNop s
  | .exit c g => Sys2Proof.Machine.execExit c g s
  | .yield c => Sys2Proof.Machine.execYield c s
  | .ret c g => Sys2Proof.Machine.execRet c g s
  | .bra c g hint off slot => Sys2Proof.Machine.execBra c g hint off slot s
  | .call c g off slot => Sys2Proof.Machine.execCall c g off slot s
  | .jmp c off slot => Sys2Proof.Machine.execJmp c off slot s
  | .pnot p => Sys2Proof.Machine.execPnot p s
  | .pand p => Sys2Proof.Machine.execPand p s
  | .por p => Sys2Proof.Machine.execPor p s
  | .pxor p => Sys2Proof.Machine.execPxor p s
  | .pdrop p => Sys2Proof.Machine.execPdrop p s
  | .pdup p => Sys2Proof.Machine.execPdup p s
  | .pswap p => Sys2Proof.Machine.execPswap p s
  | .psetm p => Sys2Proof.Machine.execPsetm p s
  | .saddSingleWord u => Sys2Proof.Machine.execSaddSingleWord u s
  | .ssubSingleWord u => Sys2Proof.Machine.execSsubSingleWord u s
  | .smulSingleWord u => Sys2Proof.Machine.execSmulSingleWord u s
  | .smulhSingleWord u => Sys2Proof.Machine.execSmulhSingleWord u s
  | .sandSingleWord u => Sys2Proof.Machine.execSandSingleWord u s
  | .sorSingleWord u => Sys2Proof.Machine.execSorSingleWord u s
  | .sxorSingleWord u => Sys2Proof.Machine.execSxorSingleWord u s
  | .sshlSingleWord u => Sys2Proof.Machine.execSshlSingleWord u s
  | .sshrSingleWord u => Sys2Proof.Machine.execSshrSingleWord u s
  | .ssarSingleWord u => Sys2Proof.Machine.execSsarSingleWord u s
  | .sminSingleWord u => Sys2Proof.Machine.execSminSingleWord u s
  | .smaxSingleWord u => Sys2Proof.Machine.execSmaxSingleWord u s
  | .smovSingleWord u => Sys2Proof.Machine.execSmovSingleWord u s
  | .scmpSingleWord k => Sys2Proof.Machine.execScmpSingleWord k s
  | .sliSingleWord c d imm => Sys2Proof.Machine.execSliSingleWord c d imm s
  | .slui c d imm => Sys2Proof.Machine.execSlui c d imm s
  | .saddi c d imm => Sys2Proof.Machine.execSaddi c d imm s
  | .viadd o => Sys2Proof.Machine.execViadd o s
  | .visub o => Sys2Proof.Machine.execVisub o s
  | .vimul o => Sys2Proof.Machine.execVimul o s
  | .vimulh o => Sys2Proof.Machine.execVimulh o s
  | .vimad o => Sys2Proof.Machine.execVimad o s
  | .vimin o => Sys2Proof.Machine.execVimin o s
  | .vimax o => Sys2Proof.Machine.execVimax o s
  | .viabs o => Sys2Proof.Machine.execViabs o s
  | .vand o => Sys2Proof.Machine.execVand o s
  | .vor o => Sys2Proof.Machine.execVor o s
  | .vxor o => Sys2Proof.Machine.execVxor o s
  | .vnot o => Sys2Proof.Machine.execVnot o s
  | .vshl o => Sys2Proof.Machine.execVshl o s
  | .vshr o => Sys2Proof.Machine.execVshr o s
  | .vsar o => Sys2Proof.Machine.execVsar o s
  | .vclz o => Sys2Proof.Machine.execVclz o s
  | .vffs o => Sys2Proof.Machine.execVffs o s
  | .vpopc o => Sys2Proof.Machine.execVpopc o s
  | .vbrev o => Sys2Proof.Machine.execVbrev o s
  | .vbfe o => Sys2Proof.Machine.execVbfe o s
  | .vbfi o => Sys2Proof.Machine.execVbfi o s
  | .vsel o => Sys2Proof.Machine.execVsel o s
  | .vmov o => Sys2Proof.Machine.execVmov o s
  | .vbcast o => Sys2Proof.Machine.execVbcast o s
  | .vpadd o => Sys2Proof.Machine.execVpadd o s
  | .vdot4 o => Sys2Proof.Machine.execVdot4 o s
  | .vcmp o => Sys2Proof.Machine.execVcmp o s
  | .viaddImmediate o => Sys2Proof.Machine.execViaddImmediate o s
  | .visubImmediate o => Sys2Proof.Machine.execVisubImmediate o s
  | .vimulImmediate o => Sys2Proof.Machine.execVimulImmediate o s
  | .vimulhImmediate o => Sys2Proof.Machine.execVimulhImmediate o s
  | .viminImmediate o => Sys2Proof.Machine.execViminImmediate o s
  | .vimaxImmediate o => Sys2Proof.Machine.execVimaxImmediate o s
  | .vandImmediate o => Sys2Proof.Machine.execVandImmediate o s
  | .vorImmediate o => Sys2Proof.Machine.execVorImmediate o s
  | .vxorImmediate o => Sys2Proof.Machine.execVxorImmediate o s
  | .vshlImmediate o => Sys2Proof.Machine.execVshlImmediate o s
  | .vshrImmediate o => Sys2Proof.Machine.execVshrImmediate o s
  | .vsarImmediate o => Sys2Proof.Machine.execVsarImmediate o s
  | .vbfeImmediate o => Sys2Proof.Machine.execVbfeImmediate o s
  | .vmovImmediate o => Sys2Proof.Machine.execVmovImmediate o s
  | .vcmpImmediate o => Sys2Proof.Machine.execVcmpImmediate o s
  | .vfadd o => Sys2Proof.Machine.execVfadd o s
  | .vfsub o => Sys2Proof.Machine.execVfsub o s
  | .vfmul o => Sys2Proof.Machine.execVfmul o s
  | .vffma o => Sys2Proof.Machine.execVffma o s
  | .vfmin o => Sys2Proof.Machine.execVfmin o s
  | .vfmax o => Sys2Proof.Machine.execVfmax o s
  | .vfrint o => Sys2Proof.Machine.execVfrint o s
  | .vfexp2f o => Sys2Proof.Machine.execVfexp2f o s
  | .vflog2 o => Sys2Proof.Machine.execVflog2 o s
  | .vfrcp o => Sys2Proof.Machine.execVfrcp o s
  | .vfrsq o => Sys2Proof.Machine.execVfrsq o s
  | .vfsqrt o => Sys2Proof.Machine.execVfsqrt o s
  | .vfsin o => Sys2Proof.Machine.execVfsin o s
  | .vfcos o => Sys2Proof.Machine.execVfcos o s
  | .vfldexp o => Sys2Proof.Machine.execVfldexp o s
  | .vffrexp o => Sys2Proof.Machine.execVffrexp o s
  | .vfclass o => Sys2Proof.Machine.execVfclass o s
  | .vfcvt o => Sys2Proof.Machine.execVfcvt o s
  | .vftoi o => Sys2Proof.Machine.execVftoi o s
  | .vitof o => Sys2Proof.Machine.execVitof o s
  | .vfrope o => Sys2Proof.Machine.execVfrope o s
  | .vfdot2 o => Sys2Proof.Machine.execVfdot2 o s
  | .vfcmp o => Sys2Proof.Machine.execVfcmp o s
  | .sadd o => Sys2Proof.Machine.execSadd o s
  | .ssub o => Sys2Proof.Machine.execSsub o s
  | .smul o => Sys2Proof.Machine.execSmul o s
  | .smulh o => Sys2Proof.Machine.execSmulh o s
  | .sand o => Sys2Proof.Machine.execSand o s
  | .sor o => Sys2Proof.Machine.execSor o s
  | .sxor o => Sys2Proof.Machine.execSxor o s
  | .sshl o => Sys2Proof.Machine.execSshl o s
  | .sshr o => Sys2Proof.Machine.execSshr o s
  | .ssar o => Sys2Proof.Machine.execSsar o s
  | .smin o => Sys2Proof.Machine.execSmin o s
  | .smax o => Sys2Proof.Machine.execSmax o s
  | .smov o => Sys2Proof.Machine.execSmov o s
  | .ssel o => Sys2Proof.Machine.execSsel o s
  | .sldr o => Sys2Proof.Machine.execSldr o s
  | .scmp o => Sys2Proof.Machine.execScmp o s
  | .saddImmediate o => Sys2Proof.Machine.execSaddImmediate o s
  | .ssubImmediate o => Sys2Proof.Machine.execSsubImmediate o s
  | .smulImmediate o => Sys2Proof.Machine.execSmulImmediate o s
  | .smulhImmediate o => Sys2Proof.Machine.execSmulhImmediate o s
  | .sandImmediate o => Sys2Proof.Machine.execSandImmediate o s
  | .sorImmediate o => Sys2Proof.Machine.execSorImmediate o s
  | .sxorImmediate o => Sys2Proof.Machine.execSxorImmediate o s
  | .sshlImmediate o => Sys2Proof.Machine.execSshlImmediate o s
  | .sshrImmediate o => Sys2Proof.Machine.execSshrImmediate o s
  | .ssarImmediate o => Sys2Proof.Machine.execSsarImmediate o s
  | .sminImmediate o => Sys2Proof.Machine.execSminImmediate o s
  | .smaxImmediate o => Sys2Proof.Machine.execSmaxImmediate o s
  | .sli o => Sys2Proof.Machine.execSli o s
  | .scmpImmediate o => Sys2Proof.Machine.execScmpImmediate o s
  | .braWide o => Sys2Proof.Machine.execBraWide o s
  | .jmpWide o => Sys2Proof.Machine.execJmpWide o s
  | .callWide o => Sys2Proof.Machine.execCallWide o s
  | .calli o => Sys2Proof.Machine.execCalli o s
  | .jmpi o => Sys2Proof.Machine.execJmpi o s
  | .vote o => Sys2Proof.Machine.execVote o s
  | .shfl o => Sys2Proof.Machine.execShfl o s
  | .wred o => Sys2Proof.Machine.execWred o s
  | .wscan o => Sys2Proof.Machine.execWscan o s
  | .part o => Sys2Proof.Machine.execPart o s
  | .actm o => Sys2Proof.Machine.execActm o s
  | .xmovS o => Sys2Proof.Machine.execXmovS o s
  | .xmovR o => Sys2Proof.Machine.execXmovR o s
  | .ld o => Sys2Proof.Machine.execLd o s
  | .st o => Sys2Proof.Machine.execSt o s
  | .lds o => Sys2Proof.Machine.execLds o s
  | .sts o => Sys2Proof.Machine.execSts o s
  | .atom o => Sys2Proof.Machine.execAtom o s
  | .atoms o => Sys2Proof.Machine.execAtoms o s
  | .pref o => Sys2Proof.Machine.execPref o s
  | .cflush o => Sys2Proof.Machine.execCflush o s
  | .phase o => Sys2Proof.Machine.execPhase o s
  | .fopnd o => Sys2Proof.Machine.execFopnd o s
  | .bara o => Sys2Proof.Machine.execBara o s
  | .barw o => Sys2Proof.Machine.execBarw o s
  | .bars o => Sys2Proof.Machine.execBars o s
  | .csign o => Sys2Proof.Machine.execCsign o s
  | .snext o => Sys2Proof.Machine.execSnext o s
  | .sdone o => Sys2Proof.Machine.execSdone o s
  | .sgive o => Sys2Proof.Machine.execSgive o s
  | .swr o => Sys2Proof.Machine.execSwr o s
  | .molt o => Sys2Proof.Machine.execMolt o s
  | .srd o => Sys2Proof.Machine.execSrd o s
  | .cpy e => Sys2Proof.Machine.execCpy e s
  | .cpyx e => Sys2Proof.Machine.execCpyx e s
  | .cpyo e => Sys2Proof.Machine.execCpyo e s
  | .cpyc e => Sys2Proof.Machine.execCpyc e s
  | .mma e => Sys2Proof.Machine.execMma e s
  | .mmag e => Sys2Proof.Machine.execMmag e s
  | .accz o => Sys2Proof.Machine.execAccz o s
  | .acctest o => Sys2Proof.Machine.execAcctest o s
  | .epi e => Sys2Proof.Machine.execEpi e s
  | .nmsel e => Sys2Proof.Machine.execNmsel e s
  | .nmtopk e => Sys2Proof.Machine.execNmtopk e s
  | .nmscore e => Sys2Proof.Machine.execNmscore e s
  | .nmassign e => Sys2Proof.Machine.execNmassign e s
  | .nmattn e => Sys2Proof.Machine.execNmattn e s
  | .tmerge o => Sys2Proof.Machine.execTmerge o s
  | .coll e => Sys2Proof.Machine.execColl e s
  | .crr o => Sys2Proof.Machine.execCrr o s
  | .crw o => Sys2Proof.Machine.execCrw o s
  | .trap o => Sys2Proof.Machine.execTrap o s
  | .rtt o => Sys2Proof.Machine.execRtt o s
  | .sysc o => Sys2Proof.Machine.execSysc o s
  | .brk o => Sys2Proof.Machine.execBrk o s
  | .tlbiPage o => Sys2Proof.Machine.execTlbiPage o s
  | .tlbiCtx o => Sys2Proof.Machine.execTlbiCtx o s
  | .tlbiAll o => Sys2Proof.Machine.execTlbiAll o s
  | .halt o => Sys2Proof.Machine.execHalt o s
  | .ckpt o => Sys2Proof.Machine.execCkpt o s
  | .fencei o => Sys2Proof.Machine.execFencei o s
  | .issueGrant core => Sys2Proof.Machine.execIssueGrant core s
  | .longLatencyResultArrival wave k => Sys2Proof.Machine.execLongLatencyResultArrival wave k s
  | .faultNotice ctx va => Sys2Proof.Machine.execFaultNotice ctx va s
  | .trapDelivery wave => Sys2Proof.Machine.execTrapDelivery wave s
  | .memberWaitDeadlock wave => Sys2Proof.Machine.execMemberWaitDeadlock wave s
  | .transferOrphaned block => Sys2Proof.Machine.execTransferOrphaned block s
  | .barrierOrphaned block name => Sys2Proof.Machine.execBarrierOrphaned block name s
  | .blockEnd block => Sys2Proof.Machine.execBlockEnd block s
  | .gangRetired gang => Sys2Proof.Machine.execGangRetired gang s
  | .barrierPass wave => Sys2Proof.Machine.execBarrierPass wave s
  | .copyCompletion k => Sys2Proof.Machine.execCopyCompletion k s
  | .copyFaultResume k => Sys2Proof.Machine.execCopyFaultResume k s
  | .copyRefusal k prot => Sys2Proof.Machine.execCopyRefusal k prot s
  | .matrixIntegrationStep k part => Sys2Proof.Machine.execMatrixIntegrationStep k part s
  | .matrixOperationCompletion k => Sys2Proof.Machine.execMatrixOperationCompletion k s
  | .matrixFaultReplay k part => Sys2Proof.Machine.execMatrixFaultReplay k part s
  | .streamedPageRefusal k part va => Sys2Proof.Machine.execStreamedPageRefusal k part va s
  | .palpPartResume k => Sys2Proof.Machine.execPalpPartResume k s
  | .palpCompletion k => Sys2Proof.Machine.execPalpCompletion k s
  | .collCapture k => Sys2Proof.Machine.execCollCapture k s
  | .collCompletion k => Sys2Proof.Machine.execCollCompletion k s
  | .engineWatchpointHit engine slot addr => Sys2Proof.Machine.execEngineWatchpointHit engine slot addr s
  | .moltPerformed wave => Sys2Proof.Machine.execMoltPerformed wave s
  | .syscReply wave reply => Sys2Proof.Machine.execSyscReply wave reply s
  | .checkpointImage gang addr => Sys2Proof.Machine.execCheckpointImage gang addr s
  | .haltWake wave => Sys2Proof.Machine.execHaltWake wave s
  | .timerExpiry cc => Sys2Proof.Machine.execTimerExpiry cc s
  | .vaultCacheWriteback cluster line => Sys2Proof.Machine.execVaultCacheWriteback cluster line s
  | .rebind block => Sys2Proof.Machine.execRebind block s
  | .preemptionRequest gang deadline allow => Sys2Proof.Machine.execPreemptionRequest gang deadline allow s
  | .drainEnd gang addr => Sys2Proof.Machine.execDrainEnd gang addr s
  | .discard gang => Sys2Proof.Machine.execDiscard gang s
  | .save gang full addr => Sys2Proof.Machine.execSave gang full addr s
  | .preemptionReport gang => Sys2Proof.Machine.execPreemptionReport gang s
  | .endLaunch launch => Sys2Proof.Machine.execEndLaunch launch s
  | .debuggerResume gang wave => Sys2Proof.Machine.execDebuggerResume gang wave s
  | .faultRecordWritten launch => Sys2Proof.Machine.execFaultRecordWritten launch s
  | .commandLinkMessage link up => Sys2Proof.Machine.execCommandLinkMessage link up s
  | .heartbeat => Sys2Proof.Machine.execHeartbeat s
  | .schedulerTakeover => Sys2Proof.Machine.execSchedulerTakeover s
  | .launch queue => Sys2Proof.Machine.execLaunch queue s
  | .wait queue => Sys2Proof.Machine.execWait queue s
  | .waitPoll queue => Sys2Proof.Machine.execWaitPoll queue s
  | .signal queue => Sys2Proof.Machine.execSignal queue s
  | .marker queue => Sys2Proof.Machine.execMarker queue s
  | .launchEnd launch => Sys2Proof.Machine.execLaunchEnd launch s
  | .queueDoorbell wave => Sys2Proof.Machine.execQueueDoorbell wave s
  | .debuggerLog wave => Sys2Proof.Machine.execDebuggerLog wave s
  | .executiveRequest src => Sys2Proof.Machine.execExecutiveRequest src s
  | .linkRetrain link => Sys2Proof.Machine.execLinkRetrain link s
  | .throttle stage on => Sys2Proof.Machine.execThrottle stage on s
  | .thermalTrip => Sys2Proof.Machine.execThermalTrip s
  | .accessPerformed k => Sys2Proof.Machine.execAccessPerformed k s
  | .clsend cc v => Sys2Proof.Machine.execClsend cc v s
  | .laneSetAged wave pc => Sys2Proof.Machine.execLaneSetAged wave pc s
  | .translationFaultService ctx va res => Sys2Proof.Machine.execTranslationFaultService ctx va res s
  | .placeGang gang cluster c0 shares sb => Sys2Proof.Machine.execPlaceGang gang cluster c0 shares sb s
  | .shareChange block share => Sys2Proof.Machine.execShareChange block share s
  | .restore gang image cluster c0 shares => Sys2Proof.Machine.execRestore gang image cluster c0 shares s
  | .hostDoorbell window value => Sys2Proof.Machine.execHostDoorbell window value s
  | .storageRead wave data => Sys2Proof.Machine.execStorageRead wave data s
  | .storageWrite wave accepted => Sys2Proof.Machine.execStorageWrite wave accepted s
  | .createQueue req desc window => Sys2Proof.Machine.execCreateQueue req desc window s
  | .destroyQueue req => Sys2Proof.Machine.execDestroyQueue req s
  | .restartQueue req => Sys2Proof.Machine.execRestartQueue req s
  | .loadCodeObject req plan => Sys2Proof.Machine.execLoadCodeObject req plan s
  | .unloadCodeObject req => Sys2Proof.Machine.execUnloadCodeObject req s
  | .createCommunicator req handle agree => Sys2Proof.Machine.execCreateCommunicator req handle agree s
  | .communicatorTimeout req => Sys2Proof.Machine.execCommunicatorTimeout req s
  | .destroyCommunicator req => Sys2Proof.Machine.execDestroyCommunicator req s
  | .setWatchpoint req => Sys2Proof.Machine.execSetWatchpoint req s
  | .clearWatchpoint req => Sys2Proof.Machine.execClearWatchpoint req s
  | .attach req => Sys2Proof.Machine.execAttach req s
  | .resume req => Sys2Proof.Machine.execResume req s
  | .setOrClearStep req => Sys2Proof.Machine.execSetOrClearStep req s
  | .readView req => Sys2Proof.Machine.execReadView req s
  | .writeName req => Sys2Proof.Machine.execWriteName req s
  | .endLaunchRequest req => Sys2Proof.Machine.execEndLaunchRequest req s
  | .hostRead addr len => Sys2Proof.Machine.execHostRead addr len s
  | .hostWrite addr data => Sys2Proof.Machine.execHostWrite addr data s
  | .remoteRequest link msg => Sys2Proof.Machine.execRemoteRequest link msg s
  | .remoteResponse id data => Sys2Proof.Machine.execRemoteResponse id data s
  | .collectiveMessage link handle rank seq cmd => Sys2Proof.Machine.execCollectiveMessage link handle rank seq cmd s
  | .acknowledge link seq => Sys2Proof.Machine.execAcknowledge link seq s
  | .replayRequest link seq => Sys2Proof.Machine.execReplayRequest link seq s
  | .remoteAccessTimeout id => Sys2Proof.Machine.execRemoteAccessTimeout id s
  | .boot image => Sys2Proof.Machine.execBoot image s
  | .ownershipTransfer nonce request signature => Sys2Proof.Machine.execOwnershipTransfer nonce request signature s
  | .sensorSample milliC power => Sys2Proof.Machine.execSensorSample milliC power s
  | .powerRemoval => Sys2Proof.Machine.execPowerRemoval s
  | .managementPortRequest => Sys2Proof.Machine.execManagementPortRequest s
  | .softError place correctable => Sys2Proof.Machine.execSoftError place correctable s
  | .vectorUnmask v => Sys2Proof.Machine.execVectorUnmask v s
  | .flitCrcFailure link flit => Sys2Proof.Machine.execFlitCrcFailure link flit s
  | .linkRetrained link => Sys2Proof.Machine.execLinkRetrained link s
  | .collMemberUnreachable k => Sys2Proof.Machine.execCollMemberUnreachable k s

end Sys2Proof.Machine
end

