-- ==== Sys2Proof/Machine/Place.lean ====
section
/-! DEFINITION. A smallest running program: what `State.withFetchWord` installs (log 30). -/

namespace Sys2Proof.Machine

/-- A kernel of one wave16 that declares every name. -/
def probeKernel : Kernel :=
  { Kernel.none with entry := 0x10000, width := 16, waves := 1, depth := 8, decl := .limits }

/-- A lane at the probe's entry. -/
def probeLane : Lane := { Lane.absent with pc := 0x10000, exited := false }

/-- The probe's wave. -/
def probeWave : Wave :=
  { Wave.absent with
    used := true, block := 1, retired := false
    lanes := (List.range 16).map fun l => (l, probeLane) }

/-- A launch with one gang of one block of one wave16 at the entry of its kernel, its lane set granted issue,
a translation of its code page, and a packet at the entry. -/
def State.placeCode (s : State) (p : Packet) : State :=
  { s with
    agenda := []
    nextOp := max 2 s.nextOp
    power := { s.power with on := true }
    iss := .of 1 (List.range 16)
    launches := s.launches.put 1 { Launch.absent with
      used := true, id := 1, kernel := probeKernel, count := 1, gangs := [1], ended := false, dbg := false }
    gangs := s.gangs.put 1 { Gang.absent with
      used := true, launch := 1, placed := true, blocks := [1], retired := false }
    blocks := s.blocks.put 1 { Block.absent with used := true, gang := 1, waves := [1], ended := false }
    waves := s.waves.put 1 probeWave
    tlb := ⟨0, 0, 0x10000, 16, 0x1000B⟩ :: s.tlb
    tlb1 := ⟨0, 0, 0x10000, 16, 0x1000B⟩ :: s.tlb1
    mem := s.mem.write 0x10000 p.bytes
    hist := (List.range 16).foldl (fun h i => h.del (0x10000 + i)) s.hist }

end Sys2Proof.Machine
end

