-- ==== Sys2Proof/Machine/Step.lean ====
section
/-! DEFINITION. One step of the machine. -/

namespace Sys2Proof.Machine

/-- What the surroundings bring happens; what they have the scheduler ask of leaf controllers leaves as messages (R375). -/
def State.bring (s : State) (i : Instr) : Host.Outcome State Fault Refusal :=
  match s.orderLinks i with
  | some links => .next (s.sendOrder i links)
  | none => exec i s

/-- One step, a cycle: without power only a boot happens; else the instruction of the lane set that was granted
issue; else a MOLT that has been held for long; else what a leaf controller has been asked to do; else an event that the
surroundings bring; else an event of the device; else only time passes. -/
def step (s : State) : Host.Outcome State Fault Refusal :=
  if !s.power.on then
    match s.bootDue with
    | some (i, rest) => exec i { s.tick with agenda := rest }
    | none => .fault .poweredOff
  else if s.iss.granted then
    match (if s.iss.late then { s with free := s.free + 1 } else s.tick).fetchIssue with
    | .run t i => exec i t
    | .stop t => .next t
  else match s.overdue with
    | some i => exec i s.tick
    | none => match s.orders with
      | i :: rest => exec i { s.tick with orders := rest }
      | [] => match s.agendaDue with
        | some (i, rest) => { s.tick with agenda := rest }.bring i
        | none => match s.tick.auto with
          | some i => exec i s.tick
          | none => .next s.tick

/-- `s` with an instruction at the place where step fetches its next one (log 30): a wave whose one lane set
has been granted issue, its code page, and the instruction's words there. -/
def State.withFetchWord (s : State) (nbits w : Nat) : State := s.placeCode (tablePacket nbits w)

end Sys2Proof.Machine
end

