-- ==== Sys2Proof/Safety.lean ====
section
/-! DEFINITION. The terms in which claims speak of the machine: safe runs, what an instruction answers, when a
Sirgen instruction is ready to have its effect, and what of a lane, a wave and the state is architectural. -/

namespace Sys2Proof

/-- The machine runs `n` steps from `s` without a stop. -/
def Safe (n : Nat) (s : Machine.State) : Prop :=
  match core.run n s with
  | .next _ => True
  | _ => False

namespace Machine

/-- Instruction `i` answers a next state at `s`, of which `P` holds. -/
def Answers (i : Instr) (s : State) (P : State → Prop) : Prop := ∃ t, exec i s = .next t ∧ P t

/-- The granted lane set is ready to have instruction `i`'s effect (R38, R143): some lane is active, the lane set does
not stand at the end of a wait (R324), every source is available, no write of EPI or TMERGE to a buffer it names is under
way, no word is marked by a soft error, and the wave is not stepped by a debugger. -/
def State.ready (s : State) (i : Instr) : Bool :=
  s.iss.granted && !(s.active i).isEmpty && !s.pending i (s.active i) && !s.unitBusy (buffersOf i) &&
    !s.resumes && s.badNames.isEmpty && !s.cur.single

/-- The architectural part of a thread (R17): its PC, call depth, predicate stack, CR.EPC, whether it has exited,
and its names. -/
def Lane.arch (t : Lane) : Lane :=
  { Lane.absent with
    pc := t.pc, depth := t.depth, preds := t.preds, count := t.count, epc := t.epc, exited := t.exited
    names := t.names }

/-- The architectural part of a wave but for its lanes: uniform names, control registers, trap mode, barrier
phases, work in flight. Its count of instructions, its forwarding window (R333) and the order in which its names were last
written (R330) are not. -/
def Wave.arch (w : Wave) : Wave :=
  { w with lanes := [], udead := [], urecent := [], since := 0, dirty := [], issued := 0, fwd := [] }

/-- Everything outside waves, gangs, blocks and the issue in progress is as before: memory, its history and its
publications, translations, engines, queues, links, power, boot. -/
def State.sameDevice (s t : State) : Prop :=
  { t with waves := s.waves, gangs := s.gangs, blocks := s.blocks, iss := s.iss } = s

/-- The PC that an instruction which leads its lanes to `dest` leaves at lane `l`: the next instruction's for lanes
without a destination (R19). -/
def State.pcAfter (s : State) (dest : List (Nat × BitVec 64)) (l : Nat) : BitVec 64 :=
  ((dest.find? fun p => p.1 == l).map Prod.snd).getD s.iss.next

/-- `r` is the state `t` with the instruction retired: the lane set at its PCs (R19), tiles that kill marks end
undefined (R52), one instruction more counted for the gang (R335), and nothing else of `t` changed but marks of the
issue order, which are not architectural (R147, R148). -/
structure Retired (s t : State) (i : Instr) (act : List Nat) (dest : List (Nat × BitVec 64)) (r : State) : Prop where
  device : { r with waves := t.waves, gangs := t.gangs, blocks := t.blocks, iss := t.iss } = t
  blocks : r.blocks = (t.killTiles s.cur.block (endedNames i act)).blocks
  gangs : ∀ g, r.gang g = { t.gang g with ir := (r.gang g).ir }
  waves : ∀ j, j ≠ s.iss.wave → r.wave j = t.wave j
  wave : (r.wave s.iss.wave).arch = (t.wave s.iss.wave).arch
  lanes : ∀ l, ((r.wave s.iss.wave).lane l).arch =
    if l ∈ s.issuing then { ((t.wave s.iss.wave).lane l).arch with pc := s.pcAfter dest l }
    else ((t.wave s.iss.wave).lane l).arch

/-- The instruction has the effect `t` on its active lanes and completes, its lanes at `dest` or the next
instruction. -/
def Completes (i : Instr) (s t : State) (dest : List (Nat × BitVec 64)) : Prop :=
  Answers i s fun r => Retired s t i (s.active i) dest r

/-- The lane set is not ready: it keeps its PC with a wait, its effect `t` so far stands, and another instruction may
have the turn (R143). -/
structure Held (s t : State) (w : Wait) (r : State) : Prop where
  device : { r with waves := t.waves, iss := t.iss } = t
  waves : ∀ j, j ≠ s.iss.wave → r.wave j = t.wave j
  wave : (r.wave s.iss.wave).arch = (t.wave s.iss.wave).arch
  lanes : ∀ l, ((r.wave s.iss.wave).lane l).arch = ((t.wave s.iss.wave).lane l).arch
  waits : ∀ l ∈ s.issuing, ((r.wave s.iss.wave).lane l).wait = w

/-- The frame of a Sirgen instruction that changes no more than threads of its own lane set and its wave's
registers: the device, every byte of memory, other waves, lanes of other lane sets, blocks but for killed tiles
(R52), and gangs but for their count of instructions (R335) are as before. -/
structure ThreadFrame (i : Instr) (s t : State) : Prop where
  device : s.sameDevice t
  memory : ∀ a, t.mem.get a = s.mem.get a
  blocks : t.blocks = (s.killTiles s.cur.block (killedNames i)).blocks
  gangs : ∀ g, t.gang g = { s.gang g with ir := (t.gang g).ir }
  waves : ∀ j, j ≠ s.iss.wave → t.wave j = s.wave j
  lanes : ∀ l, l ∉ s.issuing → ((t.wave s.iss.wave).lane l).arch = (s.cur.lane l).arch

/-- A value as lane name `d` holds it (R25). -/
def State.atWidth (s : State) (d x : Nat) : BitVec 64 := BitVec.ofNat 64 (x % 2 ^ s.laneWidth s.cur d)

/-- A lane set's next threads: each active lane as `f` makes it, and every lane of the set at the next instruction
(R19). -/
def State.toNext (s : State) (i : Instr) (f : Nat → Lane → Lane) (l : Nat) (a : Lane) : Lane :=
  { (if l ∈ s.active i then f l a else a) with pc := s.iss.next }

/-- An instruction's result on its own threads and its wave's registers, all else framed: `lane` makes each lane of
the issuing set, `wave` the wave's registers. -/
structure ThreadResult (i : Instr) (s t : State) (lane : Nat → Lane → Lane) (wave : Wave → Wave) : Prop
    extends ThreadFrame i s t where
  set : ∀ l ∈ s.issuing, ((t.wave s.iss.wave).lane l).arch = lane l (s.cur.lane l).arch
  regs : (t.wave s.iss.wave).arch = wave s.cur.arch

end Machine

end Sys2Proof
end

