-- ==== Sys2Proof/Claims/Lanes.lean ====
section
/-! DEFINITION. The results that the manual's instruction tables give, as claims state them: the value that each
lane, uniform, float and predicate instruction has at each active lane, read off the rules' own formulas. -/

namespace Sys2Proof.Claims

open Sys2Proof.Machine

/-! ## Lane integers (R86-R89, R95-R100) -/

/-- N, U and S of an instruction (R87, R88), and its sources at a lane. -/
structure Scope where
  n : Nat
  u : Bool
  s : Bool
  a : Nat
  b : Nat
  c : Nat
  imm : Nat

/-- val and sval of R88, and fit, at an instruction's own N, U and S. -/
def Scope.val (k : Scope) (x : Nat) : Int := valOf k.n k.u x
def Scope.sval (k : Scope) (x : Nat) : Int := valOf k.n false x
def Scope.fit (k : Scope) (v : Int) : Nat := Machine.fit k.n k.u k.s v
/-- 2 to the power of N. -/
def Scope.top (k : Scope) : Nat := 2 ^ k.n

/-- What lane `l` reads for an instruction: its sources at N bits, and its immediate. -/
def scope (s : State) (o : Ops) (l : Nat) : Scope :=
  let n := widthOf o
  { n := n, u := unsOf o, s := satOf o
    a := s.rd n l o.s0.toNat, b := s.rd n l o.s1.toNat, c := s.rd n l o.s2.toNat, imm := wrap n (immOf o) }

/-- Destination and value of a lane instruction that has its result at once (R95-R100). -/
abbrev LaneValue := Nat × (Nat → Nat)

/-- A result written from the scope of each lane. -/
def laneBy (s : State) (o : Ops) (f : Scope → Nat) : Option LaneValue :=
  some (o.dst.toNat, fun l => f (scope s o l))

/-- The table of R95. -/
def arithmetic (s : State) : Instr → Option LaneValue
  | .viadd o => laneBy s o fun k => k.fit (k.val k.a + k.val k.b)
  | .visub o => laneBy s o fun k => k.fit (k.val k.a - k.val k.b)
  | .vimul o => laneBy s o fun k => k.fit (k.val k.a * k.val k.b)
  | .vimulh o => laneBy s o fun k => wrap k.n (k.val k.a * k.val k.b / k.top)
  | .vimad o => laneBy s o fun k => k.fit (k.val k.a * k.val k.b + k.val k.c)
  | .vimin o => laneBy s o fun k => wrap k.n (min (k.val k.a) (k.val k.b))
  | .vimax o => laneBy s o fun k => wrap k.n (max (k.val k.a) (k.val k.b))
  | .viabs o => laneBy s o fun k => Machine.fit k.n false k.s ((k.sval k.a).natAbs : Nat)
  | .vand o => laneBy s o fun k => k.a &&& k.b
  | .vor o => laneBy s o fun k => k.a ||| k.b
  | .vxor o => laneBy s o fun k => k.a ^^^ k.b
  | .vnot o => laneBy s o fun k => k.top - 1 - k.a % k.top
  | .vshl o => laneBy s o fun k => k.a % k.top * 2 ^ cnt k.b % k.top
  | .vshr o => laneBy s o fun k => k.a % k.top / 2 ^ cnt k.b
  | .vsar o => laneBy s o fun k => wrap k.n (k.sval k.a / (2 ^ cnt k.b : Nat))
  | .viaddImmediate o => laneBy s o fun k => k.fit (k.val k.a + k.val k.imm)
  | .visubImmediate o => laneBy s o fun k => k.fit (k.val k.a - k.val k.imm)
  | .vimulImmediate o => laneBy s o fun k => k.fit (k.val k.a * k.val k.imm)
  | .vimulhImmediate o => laneBy s o fun k => wrap k.n (k.val k.a * k.val k.imm / k.top)
  | .viminImmediate o => laneBy s o fun k => wrap k.n (min (k.val k.a) (k.val k.imm))
  | .vimaxImmediate o => laneBy s o fun k => wrap k.n (max (k.val k.a) (k.val k.imm))
  | .vandImmediate o => laneBy s o fun k => k.a &&& k.imm
  | .vorImmediate o => laneBy s o fun k => k.a ||| k.imm
  | .vxorImmediate o => laneBy s o fun k => k.a ^^^ k.imm
  | .vshlImmediate o => laneBy s o fun k => k.a % k.top * 2 ^ cnt k.imm % k.top
  | .vshrImmediate o => laneBy s o fun k => k.a % k.top / 2 ^ cnt k.imm
  | .vsarImmediate o => laneBy s o fun k => wrap k.n (k.sval k.a / (2 ^ cnt k.imm : Nat))
  | _ => none

/-- Element-wise results of R96: element `k` of the result is `f w` of element `k` of the source. -/
def byElement (s : State) (o : Ops) (f : Nat → Nat → Nat) : Option LaneValue :=
  laneBy s o fun k =>
    let w := match bits o.s2.toNat 1 0 with | 1 => 8 | 2 => 16 | 3 => 32 | _ => k.n
    elements w (fun j => f w (bits k.a (w * j + w - 1) (w * j))) (k.n / w)

/-- The tables of R96 to R100. -/
def bitsAndMoves (s : State) : Instr → Option LaneValue
  | .vclz o => byElement s o fun w e => if e = 0 then w else w - Nat.log2 e - 1
  | .vffs o => byElement s o fun w e =>
      ((List.range w).find? fun i => bit e i).getD (2 ^ w - 1)
  | .vpopc o => byElement s o fun w e => ((List.range w).filter fun i => bit e i).length
  | .vbrev o => byElement s o fun w e => ((List.range w).map fun i => (bit e i).toNat * 2 ^ (w - 1 - i)).sum
  | .vbfe o => laneBy s o fun k =>
      let p := cnt k.b
      let len := if k.n ≤ p then 0 else min (cnt k.c) (k.n - p)
      let f := k.a % k.top / 2 ^ p % 2 ^ len
      if k.u || len == 0 then f else wrap k.n (sext len f)
  | .vbfeImmediate o => laneBy s o fun k =>
      let p := cnt k.b
      let len := if k.n ≤ p then 0 else min (cnt (wrap 64 (imm16Of o))) (k.n - p)
      let f := k.a % k.top / 2 ^ p % 2 ^ len
      if k.u || len == 0 then f else wrap k.n (sext len f)
  | .vbfi o => laneBy s o fun k =>
      let p := bits k.c 7 0
      let len := if k.n ≤ p then 0 else min (bits k.c 15 8) (k.n - p)
      k.a % k.top - k.a % k.top / 2 ^ p % 2 ^ len * 2 ^ p + k.b % 2 ^ len * 2 ^ p
  | .vsel o => some (o.dst.toNat, fun l =>
      if (s.cur.lane l).pred o.mod.toNat then s.rd 64 l o.s0.toNat else s.rd 64 l o.s1.toNat)
  | .vmov o => laneBy s o fun k => k.a
  | .vmovImmediate o => laneBy s o fun k => k.imm
  | .vbcast o => some (o.dst.toNat, fun l => (s.readUnif l o.s0.toNat).toNat % 2 ^ widthOf o)
  | .vpadd o => some (o.dst.toNat, fun l =>
      let w := if bit o.mod.toNat 2 then 16 else 8
      let a := s.rd 32 l o.s0.toNat
      let b := s.rd 32 l o.s1.toNat
      elements w (fun k => Machine.fit w (unsOf o) (satOf o)
        (valOf w (unsOf o) (a / 2 ^ (w * k) % 2 ^ w) + valOf w (unsOf o) (b / 2 ^ (w * k) % 2 ^ w))) (32 / w))
  | .vdot4 o => some (o.dst.toNat, fun l =>
      let m := o.mod.toNat
      let t := bit m 1 && bit m 0
      let a := s.rd 32 l o.s0.toNat
      let b := s.rd 32 l o.s1.toNat
      let prod (k : Nat) : Int :=
        valOf 8 (bit m 1) (a / 2 ^ (8 * k) % 2 ^ 8) * valOf 8 (bit m 0) (b / 2 ^ (8 * k) % 2 ^ 8)
      let v := valOf 32 t (s.rd 32 l o.s2.toNat) + prod 0 + prod 1 + prod 2 + prod 3
      if bit m 2 then (if t then satN 32 v else satI 32 v) else wrap 32 v)
  | .actm o => some (o.dst.toNat, fun _ =>
      (maskOf (if bit o.mod.toNat 0 then s.cur.live else s.active (.actm o))).toNat)
  | _ => none

/-! ## Lane floats (R113-R126) -/

/-- A float result from the pattern that each lane's sources have. -/
abbrev FloatValue := Nat × (Nat → Nat × Flags)

/-- Destination, value and flags of a float instruction that has its result at once (R115-R126). -/
def floatTable (s : State) : Instr → Option FloatValue
  | .vfadd o => some (o.dst.toNat, fun l => fadd (s.mode o) (s.rd 32 l o.s0.toNat) (s.rd 32 l o.s1.toNat))
  | .vfsub o => some (o.dst.toNat, fun l => fsub (s.mode o) (s.rd 32 l o.s0.toNat) (s.rd 32 l o.s1.toNat))
  | .vfmul o => some (o.dst.toNat, fun l => fmul (s.mode o) (s.rd 32 l o.s0.toNat) (s.rd 32 l o.s1.toNat))
  | .vffma o => some (o.dst.toNat, fun l =>
      ffma (s.mode o) (s.rd 32 l o.s0.toNat) (s.rd 32 l o.s1.toNat) (s.rd 32 l o.s2.toNat))
  | .vfmin o => some (o.dst.toNat, fun l => fmin (s.rd 32 l o.s0.toNat) (s.rd 32 l o.s1.toNat))
  | .vfmax o => some (o.dst.toNat, fun l => fmax (s.rd 32 l o.s0.toNat) (s.rd 32 l o.s1.toNat))
  | .vfrint o => some (o.dst.toNat, fun l => frint (s.mode o) (s.rd 32 l o.s0.toNat))
  | .vfldexp o => some (o.dst.toNat, fun l => fldexp (s.mode o) (s.rd 32 l o.s0.toNat) (s.rd 32 l o.s1.toNat))
  | .vffrexp o => some (o.dst.toNat, fun l => ffrexp (bit o.s2.toNat 0) (s.rd 32 l o.s0.toNat))
  | .vfclass o => some (o.dst.toNat, fun l => (fclass (s.rd 32 l o.s0.toNat), 0))
  | .vfdot2 o => some (o.dst.toNat, fun l =>
      fdot2 (s.mode o) (bit o.s2.toNat 0) (s.rd 32 l o.s0.toNat) (s.rd 32 l o.s1.toNat) (s.rd 32 l o.dst.toNat))
  | .vfcvt o => some (o.dst.toNat, fun l =>
      let r := cvtFloat (fmtOf (bits o.s1.toNat 5 0)) (fmtOf (bits o.s2.toNat 5 0)) (s.mode o) (bit o.s2.toNat 8)
        (selElem o.s1.toNat (s.rd 32 l o.s0.toNat))
      (mergeElem o.s2.toNat (s.rd 32 l o.dst.toNat) r.1, r.2))
  | .vftoi o => some (o.dst.toNat, fun l =>
      let r := cvtToInt (fmtOf (bits o.s1.toNat 5 0)) (fmtWidth (bits o.s2.toNat 5 0)) (bit o.s2.toNat 2) (s.mode o)
        (bit o.s2.toNat 8) (selElem o.s1.toNat (s.rd 32 l o.s0.toNat))
      (wrap 64 r.1, r.2))
  | .vitof o => some (o.dst.toNat, fun l =>
      let r := cvtFromInt (fmtOf (bits o.s2.toNat 5 0)) (s.mode o) (bit o.s2.toNat 8)
        (intVal (bits o.s1.toNat 5 0) (selElem o.s1.toNat (s.rd 64 l o.s0.toNat)))
      (mergeElem o.s2.toNat (s.rd 32 l o.dst.toNat) r.1, r.2))
  | _ => none

/-- Destination, value and flags of a special function, which arrive later (R128, R132). -/
def specialTable (s : State) : Instr → Option FloatValue
  | .vfexp2f o => some (o.dst.toNat, fun l => fexp2f (s.mode o) (s.rd 32 l o.s0.toNat))
  | .vflog2 o => some (o.dst.toNat, fun l => flog2 (s.mode o) (s.rd 32 l o.s0.toNat))
  | .vfrcp o => some (o.dst.toNat, fun l => frcp (s.mode o) (s.rd 32 l o.s0.toNat))
  | .vfrsq o => some (o.dst.toNat, fun l => frsq (s.mode o) (s.rd 32 l o.s0.toNat))
  | .vfsqrt o => some (o.dst.toNat, fun l => fsqrt (s.mode o) (s.rd 32 l o.s0.toNat))
  | .vfsin o => some (o.dst.toNat, fun l => fsin (s.mode o) (s.rd 32 l o.s0.toNat))
  | .vfcos o => some (o.dst.toNat, fun l => fcos (s.mode o) (s.rd 32 l o.s0.toNat))
  | .vfrope o => some (o.dst.toNat, fun l =>
      frope (s.mode o) (s.rd 64 l o.s0.toNat) (s.rd 32 l o.s1.toNat) (s.rd 32 l o.s2.toNat))
  | _ => none

/-! ## Uniform integers (R86-R94) -/

/-- The table of R90 on 64-bit patterns: U and S, a and b. -/
def uniformBy (u sat : Bool) (a b : Nat) (name : String) : Nat :=
  let v := valOf 64 u
  match name with
  | "SADD" => Machine.fit 64 u sat (v a + v b)
  | "SSUB" => Machine.fit 64 u sat (v a - v b)
  | "SMUL" => Machine.fit 64 u sat (v a * v b)
  | "SMULH" => wrap 64 (v a * v b / (2 ^ 64 : Nat))
  | "SAND" => a &&& b
  | "SOR" => a ||| b
  | "SXOR" => a ^^^ b
  | "SSHL" => a % 2 ^ 64 * 2 ^ cnt b % 2 ^ 64
  | "SSHR" => a % 2 ^ 64 / 2 ^ cnt b
  | "SSAR" => wrap 64 (valOf 64 false a / (2 ^ cnt b : Nat))
  | "SMIN" => wrap 64 (min (v a) (v b))
  | _ => wrap 64 (max (v a) (v b))

/-- A one-word form: modifier bits are 0. -/
def uniform1 (s : State) (i : Instr) (u : UOps) (name : String) : Option (Nat × Nat) :=
  let act := s.active i
  some (u.d.toNat, uniformBy false false (s.ru act u.a.toNat) (s.ru act u.b.toNat) name)

/-- A form with names, and one with an immediate. -/
def uniform2 (s : State) (i : Instr) (o : Ops) (name : String) : Option (Nat × Nat) :=
  let act := s.active i
  some (o.dst.toNat, uniformBy (unsOf o) (satOf o) (s.ru act o.s0.toNat) (s.ru act o.s1.toNat) name)
def uniformImm (s : State) (i : Instr) (o : Ops) (name : String) : Option (Nat × Nat) :=
  some (o.dst.toNat, uniformBy (unsOf o) (satOf o) (s.ru (s.active i) o.s0.toNat) (wrap 64 (immOf o)) name)

/-- Destination and value of a uniform instruction (R90, R91). -/
def uniformTable (s : State) (i : Instr) : Option (Nat × Nat) :=
  match i with
  | .saddSingleWord u => uniform1 s i u "SADD"
  | .ssubSingleWord u => uniform1 s i u "SSUB"
  | .smulSingleWord u => uniform1 s i u "SMUL"
  | .smulhSingleWord u => uniform1 s i u "SMULH"
  | .sandSingleWord u => uniform1 s i u "SAND"
  | .sorSingleWord u => uniform1 s i u "SOR"
  | .sxorSingleWord u => uniform1 s i u "SXOR"
  | .sshlSingleWord u => uniform1 s i u "SSHL"
  | .sshrSingleWord u => uniform1 s i u "SSHR"
  | .ssarSingleWord u => uniform1 s i u "SSAR"
  | .sminSingleWord u => uniform1 s i u "SMIN"
  | .smaxSingleWord u => uniform1 s i u "SMAX"
  | .smovSingleWord u => some (u.d.toNat, s.ru (s.active i) u.a.toNat)
  | .sadd o => uniform2 s i o "SADD"
  | .ssub o => uniform2 s i o "SSUB"
  | .smul o => uniform2 s i o "SMUL"
  | .smulh o => uniform2 s i o "SMULH"
  | .sand o => uniform2 s i o "SAND"
  | .sor o => uniform2 s i o "SOR"
  | .sxor o => uniform2 s i o "SXOR"
  | .sshl o => uniform2 s i o "SSHL"
  | .sshr o => uniform2 s i o "SSHR"
  | .ssar o => uniform2 s i o "SSAR"
  | .smin o => uniform2 s i o "SMIN"
  | .smax o => uniform2 s i o "SMAX"
  | .smov o => some (o.dst.toNat, s.ru (s.active i) o.s0.toNat)
  | .ssel o =>
    let act := s.active i
    some (o.dst.toNat, if s.ru act o.s2.toNat ≠ 0 then s.ru act o.s0.toNat else s.ru act o.s1.toNat)
  | .saddImmediate o => uniformImm s i o "SADD"
  | .ssubImmediate o => uniformImm s i o "SSUB"
  | .smulImmediate o => uniformImm s i o "SMUL"
  | .smulhImmediate o => uniformImm s i o "SMULH"
  | .sandImmediate o => uniformImm s i o "SAND"
  | .sorImmediate o => uniformImm s i o "SOR"
  | .sxorImmediate o => uniformImm s i o "SXOR"
  | .sshlImmediate o => uniformImm s i o "SSHL"
  | .sshrImmediate o => uniformImm s i o "SSHR"
  | .ssarImmediate o => uniformImm s i o "SSAR"
  | .sminImmediate o => uniformImm s i o "SMIN"
  | .smaxImmediate o => uniformImm s i o "SMAX"
  | .sliSingleWord _ d imm => some (d.toNat, wrap 64 (sext 16 imm.toNat))
  | .slui _ d imm => some (d.toNat, wrap 64 (sext 32 (imm.toNat * 2 ^ 12)))
  | .saddi _ d imm => some (d.toNat, wrap 64 ((s.ru (s.active i) d.toNat : Nat) + sext 12 imm.toNat))
  | .sli o => some (o.dst.toNat, wrap 64 (immOf o))
  | _ => none

/-! ## Predicates (R29, R92, R101, R102, R119) -/

/-- cc of R48 on two integers. -/
def cc (c : Nat) (a b : Int) : Bool :=
  match c with
  | 0 => decide (a = b)
  | 1 => !decide (a = b)
  | 2 => decide (a < b)
  | 3 => decide (a < b) || decide (a = b)
  | 4 => decide (b < a)
  | _ => decide (b < a) || decide (a = b)

/-- What an instruction that pushes pushes at each active lane, and the flags it contributes. -/
def pushTable (s : State) (i : Instr) : Option ((Nat → Bool) × Flags) :=
  match i with
  | .vcmp o => some (fun l => let k := scope s o l; cc o.dst.toNat (k.val k.a) (k.val k.b), 0)
  | .vcmpImmediate o => some (fun l => let k := scope s o l; cc o.dst.toNat (k.val k.a) (k.val k.imm), 0)
  | .scmpSingleWord o => some (fun _ => cc o.cond.toNat (valOf 64 o.uns (s.ru (s.active i) o.a.toNat))
      (valOf 64 o.uns (if o.imm then wrap 64 (sext 7 o.b.toNat) else s.ru (s.active i) o.b.toNat)), 0)
  | .scmp o => some (fun _ => cc o.dst.toNat (valOf 64 (unsOf o) (s.ru (s.active i) o.s0.toNat))
      (valOf 64 (unsOf o) (s.ru (s.active i) o.s1.toNat)), 0)
  | .scmpImmediate o => some (fun _ => cc o.dst.toNat (valOf 64 (unsOf o) (s.ru (s.active i) o.s0.toNat))
      (valOf 64 (unsOf o) (wrap 64 (immOf o))), 0)
  | .vfcmp o =>
    let f (l : Nat) := fcmp o.dst.toNat (s.rd 32 l o.s0.toNat) (s.rd 32 l o.s1.toNat)
    some (fun l => (f l).1, orFlags ((s.active i).map fun l => (f l).2))
  | .pdup p => some (fun l => (s.cur.lane l).pred p.a.toNat, 0)
  | .psetm p => some (fun l => bit (s.readUnif l p.name.toNat).toNat l, 0)
  | _ => none

/-- The stack of a thread as its entries from the top, depth 0 first. -/
def entries (t : Lane) : List Bool := (List.range t.count).map t.pred

/-- What an instruction that works on the entries in place makes of them, and the deepest entry it needs
(R102). -/
def stackTable : Instr → Option (Nat × (List Bool → List Bool))
  | .pnot p => some (p.a.toNat, fun e => e.set p.a.toNat (!e.getD p.a.toNat false))
  | .pand p => some (p.a.toNat, fun e => e.set p.a.toNat (e.getD p.a.toNat false && e.getD p.b.toNat false))
  | .por p => some (p.a.toNat, fun e => e.set p.a.toNat (e.getD p.a.toNat false || e.getD p.b.toNat false))
  | .pxor p => some (p.a.toNat, fun e => e.set p.a.toNat (e.getD p.a.toNat false != e.getD p.b.toNat false))
  | .pdrop _ => some (0, List.tail)
  | .pswap p => some (max p.a.toNat p.b.toNat, fun e =>
      (e.set p.a.toNat (e.getD p.b.toNat false)).set p.b.toNat (e.getD p.a.toNat false))
  | _ => none

end Sys2Proof.Claims
end

