-- ==== Sys2Proof/Claims/Flow.lean ====
section
/-! DEFINITION. Control transfer, wave operations and memory accesses, as claims state them. -/

namespace Sys2Proof.Claims

open Sys2Proof.Machine

/-! ## Targets (R59, R103, R104) -/

/-- The target of R59: the packet `off` packets away, at a slot. -/
def packetTarget (pc : BitVec 64) (off : Int) (slot : Nat) : BitVec 64 :=
  BitVec.ofNat 64 (wrap 64 ((pc.toNat : Int) / 16 * 16 + 16 * off) + 4 * slot)

/-- Where a jump leads each lane, and whether it may set hold marks (R103, R104, R148). -/
def jumpTable (s : State) : Instr → Option ((Nat → BitVec 64) × Bool)
  | .bra _ _ hint off slot =>
    some (fun _ => packetTarget s.iss.pc (sext 15 off.toNat) slot.toNat, hint != 3#2)
  | .braWide o => some (fun _ => packetTarget s.iss.pc (immOf o) o.dst.toNat, bits o.mod.toNat 1 0 != 3)
  | .jmp _ off slot => some (fun _ => packetTarget s.iss.pc (sext 21 off.toNat) slot.toNat, true)
  | .jmpWide o => some (fun _ => packetTarget s.iss.pc (immOf o) o.dst.toNat, true)
  | .jmpi o => some (fun l => s.readLane l o.s0.toNat, false)
  | _ => none

/-- Where a call leads each lane. -/
def callTable (s : State) : Instr → Option (Nat → BitVec 64)
  | .call _ _ off slot => some fun _ => packetTarget s.iss.pc (sext 15 off.toNat) slot.toNat
  | .callWide o => some fun _ => packetTarget s.iss.pc (immOf o) o.dst.toNat
  | .calli o => some fun l => s.readLane l o.s0.toNat
  | _ => none

/-- A lane's target passes the checks of R104: canonical, at a slot of a packet, executable, and the start of an
instruction. -/
def targetOk (s : State) (t : BitVec 64) : Bool :=
  bits t.toNat 63 56 == 0 && bits t.toNat 1 0 == 0 && bits t.toNat 3 2 != 3 &&
    (match s.translate s.cur .fetch t.toNat with | .ok _ _ => true | _ => false) &&
    lengthField ((s.wordsAt s.iss.wave t).getD 0 0).toNat != 3

/-- The trap of the first check of R104 that some active lane's target fails, for the lowest such lane: canonical
form, then the slot, then (where every packet is mapped) the permission, then the word there. -/
def targetTrap (s : State) (ts : List (Nat × BitVec 64)) : Option (Nat × BitVec 64 × Nat) :=
  ((ts.find? fun t => bits t.2.toNat 63 56 != 0).map fun t => (causeCanonical, t.2, t.1)) <|>
  ((ts.find? fun t => bits t.2.toNat 1 0 != 0 || bits t.2.toNat 3 2 == 3).map fun t => (causeTarget, t.2, t.1)) <|>
  (if ts.any fun t => s.translate s.cur .fetch t.2.toNat == .fault then none
   else ((ts.find? fun t => s.translate s.cur .fetch t.2.toNat == .denied).map fun t =>
     (causeProtection, t.2, t.1)) <|>
    ((ts.find? fun t => lengthField ((s.wordsAt s.iss.wave t.2).getD 0 0).toNat == 3).map fun t =>
     (causeTarget, t.2, t.1)))

/-! ## Wave operations (R155-R166) -/

/-- The mask name of a wave operation. -/
def waveMask (s : State) (i : Instr) : Option Nat :=
  match i with
  | .vote o | .shfl o | .wred o | .wscan o => some (s.ru (s.active i) o.s1.toNat)
  | _ => none

/-- Lane `j` is in lane `l`'s tile and mask (R155, R156). -/
def memberOf (s : State) (m l j : Nat) : Prop := l / s.part = j / s.part ∧ j < s.cur.width ∧ bit m j = true

/-- Every member of every active lane that had not exited before the cycle is at the instruction, and each active lane is in its own
mask (R157, R158). -/
def Gathered (s : State) (i : Instr) (m : Nat) : Prop :=
  (∀ j ∈ s.seen.present, j ∉ s.issuing → ∀ l ∈ s.active i, ¬ memberOf s m l j) ∧ ∀ l ∈ s.active i, bit m l = true

/-- The active members of a lane. -/
def here (s : State) (i : Instr) (m l : Nat) : List Nat :=
  (s.active i).filter fun j => decide (l / s.part = j / s.part) && decide (j < s.cur.width) && bit m j

/-- SHFL's source lane (R162): none where it lies off the tile. -/
def shuffleFrom (mode part l b : Nat) : Option Nat :=
  let t0 := l / part * part
  let on (j : Int) : Option Nat := if (t0 : Int) ≤ j ∧ j < t0 + part then some j.toNat else none
  match mode with
  | 0 => some (t0 + b % 128 % part)
  | 1 => on ((l : Int) - (b % 128 : Nat))
  | 2 => on ((l : Int) + (b % 128 : Nat))
  | _ => some (t0 + ((l - t0) ^^^ (b % 128 % part)))

/-- Each active lane's result of a wave operation that writes a lane name, with its flags (R161-R164). -/
def waveTable (s : State) (i : Instr) (m : Nat) : Option FloatValue :=
  match i with
  | .shfl o => some (o.dst.toNat, fun l =>
      let n := widthOf o
      match shuffleFrom (bits o.mod.toNat 1 0) s.part l (s.rd n l o.s2.toNat) with
      | none => (s.rd n l o.s0.toNat, 0)
      | some j => (if j ∈ here s i m l then s.rd n j o.s0.toNat else 0, 0))
  | .vote o =>
    if bits o.mod.toNat 1 0 = 3 then some (o.dst.toNat, fun l =>
      ((maskOf ((here s i m l).filter fun j => (s.cur.lane j).pred (bits o.s2.toNat 2 0))).toNat, 0))
    else none
  | .wred o => some (o.dst.toNat, fun l =>
      let op := bits o.s2.toNat 3 0
      let n := widthOf o
      redResult op n (unsOf o) (satOf o) false ((List.range s.part).map fun x =>
        let j := l / s.part * s.part + x
        if j ∈ here s i m l then s.rd n j o.s0.toNat else redIdentity op n (unsOf o)))
  | .wscan o => some (o.dst.toNat, fun l =>
      let op := bits o.s2.toNat 3 0
      let n := widthOf o
      let x := l - l / s.part * s.part
      let vs := ((List.range s.part).map fun x =>
        let j := l / s.part * s.part + x
        if j ∈ here s i m l then s.rd n j o.s0.toNat else redIdentity op n (unsOf o)).take
          (if bit o.s2.toNat 4 then x else x + 1)
      if vs = [] then (redIdentity op n (unsOf o), 0) else redResult op n (unsOf o) (satOf o) true vs)
  | _ => none

/-- What a VOTE that pushes pushes at a lane (R161): any, all, or equal among its members. -/
def votePush (s : State) (o : Ops) (m l : Nat) : Bool :=
  let hs := here s (.vote o) m l
  let p (j : Nat) : Bool := (s.cur.lane j).pred (bits o.s2.toNat 2 0)
  match bits o.mod.toNat 1 0 with
  | 0 => hs.any p
  | 1 => hs.all p
  | _ => !hs.any p || hs.all p

/-! ## Memory (R108-R111, R203, R218-R223) -/

/-- The byte that the last of these stores to cover an address leaves there. -/
def lastStore (ss : List (Nat × List Byte)) (a : Nat) : Option Byte :=
  ss.foldl (fun r x => if x.1 ≤ a ∧ a < x.1 + x.2.length then x.2[a - x.1]? else r) none

/-- The result of an atomic's operation on N-bit patterns (R222): new value of the place, none where it keeps what
it holds. -/
def atomicResult (op n : Nat) (u : Bool) (old b c : Nat) : Option Nat :=
  match op with
  | 0 => some ((old + b) % 2 ^ n)
  | 1 => some (wrap n (min (valOf n u old) (valOf n u b)))
  | 2 => some (wrap n (max (valOf n u old) (valOf n u b)))
  | 3 => some (old &&& b)
  | 4 => some (old ||| b)
  | 5 => some (old ^^^ b)
  | 6 => some b
  | 7 => some (if old = c then b else old)
  | 8 => some (fadd 0 old b).1
  | _ => none

/-- Lanes perform one after another, each returning what it found (R223). -/
def performAll (f : State → Nat → State × Nat) : State → List Nat → State × List (Nat × BitVec 64)
  | s, [] => (s, [])
  | s, l :: ls =>
    let q := f s l
    let r := performAll f q.1 ls
    (r.1, (l, BitVec.ofNat 64 q.2) :: r.2)

/-- One lane's atomic at a global place: what it finds enters its wave's view (R234) with what it tells of publications
(R238), and the operation's result is stored there (R222). -/
def performAt (op n : Nat) (u : Bool) (pa leaf b c : Nat) (s : State) : State × Nat :=
  let k := s.iss.wave
  let old := s.atomOld k pa leaf (n / 8)
  let stamps := if bits pa 46 39 = 0 then s.atomStamps k pa leaf (n / 8) else []
  let heard := if s.carry = [] then [] else (stamps.flatMap fun x => s.carry.get [] x).eraseDups
  let t := (s.seeRead k pa stamps).hear k heard
  match atomicResult op n u old b c with
  | some v => ((t.atomNew k pa leaf (leBytes (n / 8) v)).tell k s.stamp heard, old)
  | none => (t, old)

/-- One lane's atomic in a scratch buffer. -/
def performIn (op n : Nat) (u : Bool) (buf off b c : Nat) (s : State) : State × Nat :=
  let k := s.iss.wave
  let old := s.scratchRead s.cur.block buf off (n / 8)
  let keys := (List.range (n / 8)).map fun i => 2 ^ 64 + s.scratchKey s.cur.block buf (off + i)
  let heard := if s.carry = [] then [] else (keys.flatMap fun x => s.carry.get [] x).eraseDups
  let t := s.hear k heard
  match atomicResult op n u old b c with
  | some v => (keys.foldl (fun t x => t.tell k x heard) (t.scratchWrite k buf off (leBytes (n / 8) v)), old)
  | none => (t, old)

/-- The lanes of an atomic between its release and, where no other device performs any, its acquire (R225); then its
values, from memory of the kind `src`, leave, or with NR the accesses to `addrs` stay unperformed (R230). -/
def atomicBetween (s : State) (o : Ops) (lanes : List Nat) (kind src : Nat) (addrs : List Nat) (far : Bool)
    (f : State → Nat → State × Nat) : State :=
  let k := s.iss.wave
  let r := performAll f (if atomRel o then s.release k (atomScope o) else s) lanes
  let t := if atomAcq o && !far then r.1.acquire k (atomScope o) else r.1
  if lanes = [] then t
  else if atomNR o then addrs.foldl (fun t a => t.access1 k kind a) t
  else (t.flyLanes lanes o.dst.toNat r.2 0).fromMem src

/-- The check of R109 and R203 that some active lane's address fails first, before translation. -/
def addressTrap (s : State) (z : Nat) (as : List (Nat × Nat)) : Option (Nat × BitVec 64 × Nat) :=
  let trap (c : Nat) (p : Nat → Bool) : Option (Nat × BitVec 64 × Nat) :=
    (as.find? fun a => p a.2).map fun a => (c, BitVec.ofNat 64 a.2, a.1)
  let ptr (a : Nat) : Bool := bits a 63 56 == 0xFE
  trap causeCanonical (fun a => bits a 63 56 != 0 && !ptr a) <|>
  trap causeAlign (fun a => a % z != 0) <|>
  trap causeCanonical (fun a => ptr a && bits a 47 32 != 0) <|>
  trap causeInvalid (fun a => ptr a && decide ((s.declared s.cur).scr ≤ bits a 55 48)) <|>
  trap causeBounds (fun a => ptr a && decide (s.scratchSize s.cur.block (bits a 55 48) < bits a 31 0 + z))

end Sys2Proof.Claims
end

