-- ==== Sys2Proof/Claims/Engines.lean ====
section
/-! DEFINITION. When an engine takes a command and what it fixes at issue, as claims state them (R244-R255,
R264-R267, R276-R280, R289-R292, R308-R309, R366-R370). -/

namespace Sys2Proof.Claims

open Sys2Proof.Machine

/-! ## Copies -/

/-- The kind of a copy command. -/
def copyKind : Instr → Option (Nat × CopyOps)
  | .cpy e => some (0, e)
  | .cpyx e => some (1, e)
  | .cpyo e => some (2, e)
  | _ => none

/-- What a copy command fixes at issue (R246): its address, control word, resource entry and indices; of a CPYO, the
bytes of its source that no FOPND has fenced (R229). -/
def copyOf (s : State) (i : Instr) (kind : Nat) (e : CopyOps) : CopyOp :=
  let act := s.active i
  { CopyOp.absent with
    wave := s.iss.wave, block := s.cur.block, pc := s.iss.pc, lanes := act, kind := kind
    addr := s.ru act e.g.toNat
    ctl := if kind = 1 ∨ e.h.mod = 1#3 then s.readUnif (act.headD 0) (e.g.toNat + 1) else 0
    entry := (s.kernelOf s.cur).res.getD e.rt.toNat []
    buf := e.buf.toNat
    idx := if kind = 1 then act.map fun l => (l, s.rd 32 l e.idx.toNat) else []
    token := e.tok.toNat, order := s.nextOp, told := s.cur.known
    stale := if kind = 2 then s.unfenced s.cur.block e.buf.toNat none else [] }

/-- The copy engine takes the command (R252, R259): a place is free, its token is not another copy's, the descriptor
and control word are usable, the address is canonical and aligned, and the image fits its buffer. -/
def copyTaken (s : State) (i : Instr) (kind : Nat) (e : CopyOps) : Prop :=
  let c := copyOf s i kind e
  let rows := if kind = 1 then (s.active i).length * tdRows c.entry else tdPlanes c.entry * tdRows c.entry
  s.copiesOn (s.coreOf s.cur) < 1024 ∧
  (s.copies.any fun p => p.2.wave == s.iss.wave && p.2.token == e.tok.toNat) = false ∧
  copyOk (s.declared s.cur) c.entry c.ctl (kind == 1) = true ∧ bits c.addr 63 56 = 0 ∧
  c.addr % elemSize (tdFmt c.entry) = 0 ∧
  128 * bits c.ctl.toNat 47 32 + rows * rowBytes c.entry c.ctl ≤ s.scratchSize s.cur.block e.buf.toNat

/-! ## Matrix operations -/

/-- MMA or MMAG. -/
def matrixForm : Instr → Option (Bool × MmaOps)
  | .mma e => some (false, e)
  | .mmag e => some (true, e)
  | _ => none

/-- The blocks in which an operation runs (R281). -/
def matrixBlocks (s : State) (ganged : Bool) : List Nat :=
  if ganged then (s.gang (s.gangOf s.cur)).blocks else [s.cur.block]

/-- What recording fixes (R266): the operands, W of CR.MMW, the streamed g and stride, and one part for each block. -/
def matrixOf (s : State) (i : Instr) (ganged : Bool) (e : MmaOps) : MatOp :=
  let act := s.active i
  let str := bit e.h.mod.toNat 0
  { MatOp.absent with
    wave := s.iss.wave, gang := s.gangOf s.cur, pc := s.iss.pc, lanes := act, ganged := ganged, ops := e
    told := s.cur.known
    window := (s.regs [.y]).mmw
    g := BitVec.ofNat 64 (if str then s.ru act e.bn.toNat else 0)
    stride := BitVec.ofNat 64 (if str then s.ru act (e.bn.toNat + 1) else 0)
    parts := (matrixBlocks s ganged).map fun b => ⟨b, 0, none, false, false, false⟩ }

/-- The operation can be recorded (R265, R267, R178): a FIFO place on each core, the wave has not signed the epoch,
slots inside their buffers, a canonical aligned streamed address, no other operation in the epoch. -/
def matrixTaken (s : State) (i : Instr) (ganged : Bool) (e : MmaOps) : Prop :=
  let b := s.cur.block
  let str := bit e.h.mod.toNat 0
  let g := if str then s.ru (s.active i) e.bn.toNat else 0
  let stride := if str then s.ru (s.active i) (e.bn.toNat + 1) else 0
  (∀ x ∈ matrixBlocks s ganged, s.fifoUsed (s.block x).core < 16) ∧
  s.iss.wave ∉ (s.conv b e.cv.toNat).signed ∧
  (e.ia.toNat + 1) * mmaSlotA e ≤ s.scratchSize b e.ab.toNat ∧
  (str = false → (e.ib.toNat + 1) * mmaSlotB e ≤ s.scratchSize b e.bn.toNat) ∧
  bits g 63 56 = 0 ∧ g % mmaWb e = 0 ∧ stride % mmaWb e = 0 ∧ (s.conv b e.cv.toNat).op = none

/-! ## The epilogue -/

/-- Bytes of an element of EPI's image, and where its image and vectors begin. -/
def epiWidth (e : EpiOps) : Nat := if e.h.mod = 1#3 then 1 else fmtWidth e.fmt.toNat / 8
def epiCtl (s : State) (i : Instr) (e : EpiOps) : BitVec 64 := s.readUnif ((s.active i).headD 0) e.cn.toNat
def epiVector (s : State) (i : Instr) (e : EpiOps) : Nat × Nat :=
  let c := (epiCtl s i e).toNat
  let flags := e.h.mod == 1#3
  let cols := dimOf e.nc
  (if flags then 0 else 128 * bits c 47 32,
   (if !flags && epiScl c == 2 then 4 * cols else 0) + if !flags && epiBias c then 4 * cols else 0)

/-- EPI's checks pass (R280). -/
def epiTaken (s : State) (i : Instr) (e : EpiOps) : Prop :=
  let c := (epiCtl s i e).toNat
  let p := dimOf e.nc * epiWidth e
  let v := epiVector s i e
  epiOk e c = true ∧ (epiPlain c = true ∨ p % 16 = 0) ∧
  128 * bits c 63 48 + dimOf e.mc * p ≤ s.scratchSize s.cur.block e.db.toNat ∧
  (v.2 = 0 ∨ v.1 + v.2 ≤ s.scratchSize s.cur.block e.vb.toNat)

/-- Element (i, j) of EPI's image is undefined: of a tile under a posted operation, or an undefined element (R242,
R274). -/
def epiOpen (s : State) (e : EpiOps) (r j : Nat) : Bool :=
  let b := s.cur.block
  s.tileOpen b e.tl.toNat || ((s.block b).tiles.get .zero e.tl.toNat).undefs.contains (64 * r + j)

/-- Element (i, j) of EPI's image (R278, R279): LOSS and SPEC with `.FLAGS`, else the element through the stages. -/
def epiElement (s : State) (i : Instr) (e : EpiOps) (r j : Nat) : Nat :=
  let b := s.cur.block
  let c := (epiCtl s i e).toNat
  let flags := e.h.mod == 1#3
  let cols := dimOf e.nc
  let t := (s.block b).tiles.get .zero e.tl.toNat
  let v := (epiVector s i e).1
  let scl := !flags && epiScl c == 2
  let word (off : Nat) : Nat := s.scratchPast.scratchRead b e.vb.toNat (v + off + 4 * j) 4
  let a := t.dense.getD (64 * r + j) .zero
  if flags then a.loss.toNat + 2 * a.spec.code
  else epiConvert e.fmt.toNat (bits c 31 30) (bit c 29)
    (epiStages c (if scl then word 0 else 0)
      (if !flags && epiBias c then word (if scl then 4 * cols else 0) else 0) (t.value a))

/-- EPI's write of element (i, j). -/
def epiPut (s : State) (i : Instr) (e : EpiOps) (t : State) (r j : Nat) : State :=
  let b := s.cur.block
  let c := (epiCtl s i e).toNat
  let wd := epiWidth e
  let off := 128 * bits c 63 48 + imageOff (epiPlain c) (dimOf e.nc * wd) wd r j
  if epiOpen s e r j then t.blurScratch b e.db.toNat off wd
  else t.writeScratch b e.db.toNat off (leBytes wd (epiElement s i e r j)) none

/-! ## Palp commands -/

/-- The kind of a palp command. -/
def palpKind : Instr → Option (Nat × PalpOps)
  | .nmsel e => some (0, e)
  | .nmtopk e => some (1, e)
  | .nmscore e => some (2, e)
  | .nmassign e => some (3, e)
  | .nmattn e => some (4, e)
  | _ => none

/-- A command's control word, and the parameter block and tables that it reads at issue (R290, R291). -/
def palpCtl (s : State) (i : Instr) (e : PalpOps) : BitVec 64 := s.readUnif ((s.active i).headD 0) (e.u.toNat + 1)
def palpBlock (s : State) (i : Instr) (e : PalpOps) : List Byte :=
  leBytes 64 (s.scratchPast.scratchRead s.cur.block e.pb.toNat (128 * bits (palpCtl s i e).toNat 47 32) 64)
def palpTables (s : State) (i : Instr) (kind : Nat) (e : PalpOps) : List Byte :=
  (planOf kind (palpBlock s i e)).tables.flatMap fun x =>
    leBytes x.2 (s.scratchPast.scratchRead s.cur.block e.pb.toNat x.1 x.2)

/-- The command is taken (R292, R294, R310): its token is not another's, a place is free, its control word and
parameter block are well formed, its tables and its result area fit, its addresses are canonical and aligned. -/
def palpTaken (s : State) (i : Instr) (kind : Nat) (e : PalpOps) : Prop :=
  let k := s.iss.wave
  let b := s.cur.block
  let c := (palpCtl s i e).toNat
  let q := planOf kind (palpBlock s i e)
  let u := s.ru (s.active i) e.u.toNat
  let r := word64 (palpBlock s i e) 4
  let size := s.scratchSize b e.pb.toNat
  (s.copies.any fun p => p.2.wave == k && p.2.token == e.t.toNat) = false ∧
  (s.palps.any fun p => p.2.wave == k && p.2.token == e.t.toNat) = false ∧
  s.palpsOn (s.coreOf s.cur) < 256 ∧ bits c 55 48 = 0 ∧ bits c 15 0 = 0 ∧
  (if bit c 63 then bits c 61 56 < (s.declared s.cur).bar else bits c 61 56 = 0) ∧
  (bit c 62 = true → 128 * bits c 31 16 = 0 ∧ e.rb.toNat = 0) ∧ 128 * bits c 47 32 + 64 ≤ size ∧ q.ok = true ∧
  (bit c 62 = false → r = 0) ∧ (∀ x ∈ q.tables, x.1 % 4 = 0 ∧ x.1 + x.2 ≤ size) ∧
  (∀ a ∈ [u] ++ q.addrs ++ (if bit c 62 then [r] else []), bits a 63 56 = 0) ∧ u % q.ws = 0 ∧
  (bit c 62 = true → r % 16 = 0) ∧ (bit c 62 = false → 128 * bits c 31 16 + q.size ≤ s.scratchSize b e.rb.toNat)

/-- What a palp command fixes at issue; no word that it reads is marked. -/
def palpOf (s : State) (i : Instr) (kind : Nat) (e : PalpOps) : PalpOp :=
  { PalpOp.absent with
    wave := s.iss.wave, block := s.cur.block, pc := s.iss.pc, lanes := s.active i, kind := kind
    name := e.u.toNat, addr := s.ru (s.active i) e.u.toNat, ctl := palpCtl s i e
    par := palpBlock s i e ++ palpTables s i kind e
    buf := e.rb.toNat, token := e.t.toNat, order := s.nextOp, told := s.cur.known }

/-! ## TMERGE -/

/-- TMERGE's control word, its head count, head dimension, record count and record bytes. -/
def mergeCtl (s : State) (o : Ops) : Nat := (s.readUnif ((s.active (.tmerge o)).headD 0) o.s1.toNat).toNat
def mergeDim (c : Nat) : Nat := 16 * (bits c 19 16 + 1)
def mergeRec (c : Nat) : Nat := 16 + 4 * mergeDim c

/-- TMERGE's checks pass (R309). -/
def mergeTaken (s : State) (o : Ops) : Prop :=
  let c := mergeCtl s o
  let h := bits c 23 20 + 1
  bits c 15 1 = 0 ∧ bits c 31 24 ≤ 192 ∧
  128 * bits c 47 32 + h * bits c 31 24 * mergeRec c ≤ s.scratchSize s.cur.block o.s0.toNat ∧
  128 * bits c 63 48 + h * (if bit c 0 then 4 * mergeDim c else mergeRec c) ≤ s.scratchSize s.cur.block o.dst.toNat

/-- The bytes that TMERGE writes for head `x` and where (R309): M, L, the token count and O of its merged records, or
with NORM the quotients O / L. -/
def mergeOut (s : State) (o : Ops) (x : Nat) : Nat × List Byte :=
  let c := mergeCtl s o
  let j := bits c 31 24
  let d := mergeDim c
  let word (n i : Nat) : Nat :=
    s.scratchPast.scratchRead s.cur.block o.s0.toNat (128 * bits c 47 32 + (x * j + n) * mergeRec c + 4 * i) 4
  let rs := (List.range j).map fun n => (word n 0, word n 1, word n 3, (List.range d).map fun i => word n (4 + i))
  let r := mergeHead d rs
  if bit c 0 then (128 * bits c 63 48 + 4 * d * x, (r.2.2.map fun y => quotient y r.2.1).flatMap (leBytes 4))
  else (128 * bits c 63 48 + mergeRec c * x,
    (r.1 :: r.2.1 :: 0xFFFFFFFF :: (rs.map fun r => r.2.2.1).sum :: r.2.2).flatMap (leBytes 4))

/-! ## COLL -/

/-- What COLL fixes at issue (R370), with the member of this device that issues it. -/
def collOf (s : State) (e : CollOps) (m : Comm) : CollOp :=
  let lane := (s.active (.coll e)).headD 0
  { CollOp.absent with
    wave := s.iss.wave, block := s.cur.block, pc := s.iss.pc, lanes := s.active (.coll e), op := e.h.mod.toNat
    handle := s.readUnif lane e.cn.toNat, ctl := s.readUnif lane (e.cn.toNat + 1)
    n := s.ru (s.active (.coll e)) (e.cn.toNat + 2)
    dbuf := e.db.toNat, sbuf := e.sb.toNat, token := e.t.toNat, order := s.nextOp, seq := m.issued
    stale := s.unfenced s.cur.block e.sb.toNat none, told := s.cur.known }

/-- COLL's checks pass (R367, R368, R371). -/
def collTaken (s : State) (e : CollOps) (m : Comm) : Prop :=
  let o := collOf s e m
  let c := o.ctl.toNat
  let ws := fmtWidth (collFmt c) / 8
  let p := m.members.length
  s.collsOn (s.coreOf s.cur) < 16 ∧ collOk (s.declared s.cur) o.op c = true ∧ o.n ≠ 0 ∧ o.n ≤ 2 ^ 24 ∧
  s.commOf s.cur o.handle = some m ∧
  collSofs c + collSrcLen o.op p o.n * ws ≤ s.scratchSize s.cur.block e.sb.toNat ∧
  collDofs c + collDstLen o.op p o.n * ws ≤ s.scratchSize s.cur.block e.db.toNat

end Sys2Proof.Claims
end

