-- ==== Sys2Proof/Claims/Events.lean ====
section
/-! DEFINITION. The conditions of the device's events and of executive requests, as claims state them. -/

namespace Sys2Proof.Claims

open Sys2Proof.Machine

/-- No thread's architectural state differs. -/
def SameThreads (s t : State) : Prop := ∀ k l, ((t.wave k).lane l).arch = ((s.wave k).lane l).arch

/-- A wave is as before, but that writes which still stand in a vault cache may have got later places in its view, home
having taken in others (R224, R233). -/
def SameWave (v w : Wave) : Prop := w = { v with view := w.view, code := w.code }
def SameWaves (s t : State) : Prop := ∀ k, SameWave (s.wave k) (t.wave k)

/-- A wave of a core is eligible (R143, R144): it runs, and `c` is the first of its candidates that is not to give up the
opportunity (R146, R107), whose pipe is not withheld from it (R407). -/
structure Eligible (s : State) (core k : Nat) (c : Cand) : Prop where
  here  : s.waves.has k = true ∧ s.coreOf (s.wave k) = core
  runs  : s.runs k = true
  first : ((s.wave k).ordered ((s.readySets k).filter fun c => !(s.wave k).resting c)).head? = some c
  pipe  : c.pipe = .v → (s.wave k).trapm = true ∨ s.withheld core = false

/-! ## Schedules -/

/-- A handle names a launch for the issuing wave (R188): 0, on a core, its own; else the running launch that has it. -/
def handleNames (s : State) (h t : Nat) : Prop :=
  (h = 0 ∧ s.cur.control = none ∧ t = s.launchOf s.cur) ∨
  (h ≠ 0 ∧ s.launches.has t = true ∧ (s.launch t).used = true ∧ (s.launch t).ended = false ∧ (s.launch t).id = h ∧
    ∀ p ∈ s.launches, p.2.used = true → p.2.id = h → p.1 = t)

/-- The issuing wave's launch may read a launch's schedule, and change it (R188). -/
def mayRead (s : State) (t : Nat) : Prop := (s.launch t).pid = (s.launch (s.launchOf s.cur)).pid
def mayChange (s : State) (t : Nat) : Prop :=
  mayRead s t ∧ (s.launch t).swp = true ∧ (t = s.launchOf s.cur ∨ (s.launch (s.launchOf s.cur)).tun = true)

/-- The grant that SDONE or SGIVE names, and the origin and extent of its rectangle in a dimension (R191). -/
def settleGrant (s : State) (i : Instr) (o : Ops) : Nat := bits (s.ru (s.active i) o.s0.toNat) 35 32
def settleOrg (s : State) (i : Instr) (o : Ops) (d : Nat) : Nat :=
  if d < o.s2.toNat then s.ru (s.active i) (o.s0.toNat + 1 + d) else 0
def settleExt (s : State) (i : Instr) (o : Ops) (d : Nat) : Nat :=
  if d < o.s2.toNat then s.ru (s.active i) (o.s0.toNat + 1 + o.s2.toNat + d) else 1

/-- The rectangle's lowest cell and its number of cells by dimension, and its cells. -/
def settleLo (s : State) (i : Instr) (o : Ops) (d : Nat) : Nat :=
  settleOrg s i o d / schQ (s.launch (s.launchOf s.cur)).sched d
def settleLen (s : State) (i : Instr) (o : Ops) (d : Nat) : Nat :=
  let q := schQ (s.launch (s.launchOf s.cur)).sched d
  (settleExt s i o d + q - 1) / q
def settleCells (s : State) (i : Instr) (o : Ops) : List Nat :=
  rectCells (s.launch (s.launchOf s.cur)).sched ((List.range 4).map (settleLo s i o)) ((List.range 4).map (settleLen s i o))

/-- The checks of R191 pass. -/
structure settleTaken (s : State) (i : Instr) (o : Ops) : Prop where
  quanta : ∀ d < 4, 1 ≤ schQ (s.launch (s.launchOf s.cur)).sched d
  rank   : o.s2.toNat = schRank (s.launch (s.launchOf s.cur)).sched
  status : bits (s.ru (s.active i) o.s0.toNat) 63 62 = 0
  grant  : (s.gang (s.gangOf s.cur)).grants.has (settleGrant s i o) = true
  whole  : ∀ d < o.s2.toNat, settleOrg s i o d % schQ (s.launch (s.launchOf s.cur)).sched d = 0 ∧
    settleExt s i o d ≠ 0 ∧
    (settleOrg s i o d + settleExt s i o d = schExt (s.launch (s.launchOf s.cur)).sched d ∨
      settleExt s i o d % schQ (s.launch (s.launchOf s.cur)).sched d = 0)
  inside : ∀ d < 4, ((s.gang (s.gangOf s.cur)).grants.get .none (settleGrant s i o)).lo.getD d 0 ≤ settleLo s i o d ∧
    settleLo s i o d + settleLen s i o d ≤
      ((s.gang (s.gangOf s.cur)).grants.get .none (settleGrant s i o)).lo.getD d 0 +
        ((s.gang (s.gangOf s.cur)).grants.get .none (settleGrant s i o)).ext.getD d 1
  held   : ∀ c ∈ settleCells s i o, c ∉ ((s.gang (s.gangOf s.cur)).grants.get .none (settleGrant s i o)).handed
  valid  : ∀ c ∈ settleCells s i o, s.cell (s.launch (s.launchOf s.cur)) c ≠ 2

/-! ## Events -/

/-- The token of operation `op` is still due to wave `k` (R44, R250): the wave has not retired and has not written the
name since. -/
def tokenDue (s : State) (k : Nat) (kind : EngineKind) (op : Nat) : Prop :=
  (s.wave k).retired = false ∧ (s.wave k).tokens.any (fun x => x.kind == kind && x.op == op) = true

/-- Request `k` is one of this kind that can be served (R383): of several from the host, the oldest. -/
def served (s : State) (k kind : Nat) : Prop :=
  s.reqs.has k = true ∧ bits (schWord (s.req k).words 0) 15 0 = kind ∧ s.iss.granted = false ∧
    ((s.req k).src = .host → ∀ p ∈ s.reqs, p.2.src = .host → k ≤ p.1)

/-- No request of the host is malformed. -/
def noneBad (s : State) : Prop := ∀ p ∈ s.reqs, p.2.src = .host → requestBad true p.2.words = false

/-- A request has ended: it is open no more, and, but for malformed ones of the host that stood behind it, no other has
ended (R383). -/
def requestDone (s t : State) (k : Nat) : Prop := t.reqs.has k = false ∧ (noneBad s → t.reqs = s.reqs.del k)

/-- The request's process has a context. -/
def hasContext (s : State) (r : Request) (ctx : Nat) : Prop := s.contextFor r.pid = (s, ctx)

/-- What every step keeps: home memory in its canonical form; throttle stages in force from the first on, of the three
there are (R407; that they leave in reverse order is log 43, DEDUCED); the scheduler on control core 0 of die 0 or die 1
(R376); on each command link, in each direction, permits and messages that are 16 together (R375). -/
structure DeviceInv (s : State) : Prop where
  memory   : s.mem.wf = true
  throttle : ∃ n ≤ 3, s.power.throttle = List.range n
  sched    : s.sched = 0 ∨ s.sched = 8
  permits  : ∀ c, (s.clink c).down.length + (s.clink c).downPermits = 16 ∧
    (s.clink c).up.length + (s.clink c).upPermits = 16

/-- The issue of an instruction fetched at a slot of a packet (R38, R41, R42): its PC, the next instruction's, its
lookahead count and its words. -/
def issueOf (s : State) (pc : BitVec 64) (p : Packet) : Issue :=
  let slot := bits pc.toNat 3 2
  { s.iss with
    pc := pc, next := nextPc pc (claimWords p slot).length, look := p.look slot, words := claimWords p slot }

/-! ## Legal instructions (R46) -/

/-- A layout-U instruction's names are declared. -/
def uniLegal (u : UOps) (d : Declared) : Prop :=
  u.d.toNat < d.unif ∧ u.a.toNat < d.unif ∧ u.b.toNat < d.unif

/-- A layout-P instruction's unused fields are zero, and its name is declared where it has one (R102). -/
def predLegal (p : POps) (d : Declared) (a b m : Bool) : Prop :=
  (a = true ∨ p.a = 0) ∧ (b = true ∨ p.b = 0) ∧ (if m then p.name.toNat < d.unif else p.name = 0)

/-- What R46's steps 5 to 7 ask of an instruction outside the ordinary layout: of an engine command its layout's checks
(R244, R264, R276, R289, R366). -/
def legalOther (d : Declared) : Instr → Prop
  | .pnot p | .pdup p => predLegal p d true false false
  | .pand p | .por p | .pxor p | .pswap p => predLegal p d true true false
  | .pdrop p => predLegal p d false false false
  | .psetm p => predLegal p d false false true
  | .saddSingleWord u | .ssubSingleWord u | .smulSingleWord u | .smulhSingleWord u | .sandSingleWord u
  | .sorSingleWord u | .sxorSingleWord u | .sshlSingleWord u | .sshrSingleWord u | .ssarSingleWord u
  | .sminSingleWord u | .smaxSingleWord u => uniLegal u d
  | .smovSingleWord u => u.kb = false ∧ u.b = 0 ∧ u.d.toNat < d.unif ∧ u.a.toNat < d.unif
  | .scmpSingleWord k => k.cond.toNat < 6 ∧ k.a.toNat < d.unif ∧ (k.imm = true ∨ k.b.toNat < d.unif)
  | .sliSingleWord _ n _ | .saddi _ n _ => n.toNat < d.unif
  | .slui _ n _ => n.toNat < d.unif
  | .cpy e => checkCopy 0x180 d e = .ok (.cpy e)
  | .cpyx e => checkCopy 0x181 d e = .ok (.cpyx e)
  | .cpyo e => checkCopy 0x182 d e = .ok (.cpyo e)
  | .cpyc e => checkCopy 0x183 d e = .ok (.cpyc e)
  | .mma e => checkMma false d e = .ok (.mma e)
  | .mmag e => checkMma true d e = .ok (.mmag e)
  | .epi e => checkEpi d e = .ok (.epi e)
  | .nmsel e => checkPalp .nmsel d e = .ok (.nmsel e)
  | .nmtopk e => checkPalp .nmtopk d e = .ok (.nmtopk e)
  | .nmscore e => checkPalp .nmscore d e = .ok (.nmscore e)
  | .nmassign e => checkPalp .nmassign d e = .ok (.nmassign e)
  | .nmattn e => checkPalp .nmattn d e = .ok (.nmattn e)
  | .coll e => checkColl d e = .ok (.coll e)
  | _ => True

/-- What R46's steps 4 to 7 ask of an instruction, where a kernel declares `d`: in the ordinary layout, its opcode's row
takes its form and operands, and the kernel declares its names. -/
def legal (d : Declared) (priv : Bool) (i : Instr) : Prop :=
  match opsOf i with
  | some (op, o) => ∃ r, rowOf op = some r ∧ r.inst o = i ∧ (r.wideOnly = true → o.wide = true) ∧ r.fails d priv o = none
  | none => legalOther d i

end Sys2Proof.Claims
end

