-- ==== Sys2Proof/Certificates/Slice0/Obligations.lean ====
section
/-! DEFINITION. The statements for the provers. -/

open Sys2Proof Sys2Proof.Machine Sys2Proof.Claims

/-! ## Encoding, the step, reset, what every step keeps -/

/-- R40-R61: the words of a well-formed instruction that the manual's tables allow (R46's steps 4 to 7: its row or its
engine layout accepts its operands, and the kernel declares its names) decode to that instruction, in any packet
with a legal tail and at any slot that holds them, one that ends a packet unchained; those of one that they do not
allow are refused. What the decoder reads is well formed, allowed, no event, and encodes to the words it was read
from; and what decodes at one place decodes at every place where R46 lets its words stand. -/
def Obligations.DecodeOfEncode : Prop :=
  ∀ (d : Declared) (priv : Bool) (i : Instr) (p : Packet) (slot : Nat),
    (decode d priv p slot = .ok i →
      i.wellFormed = true ∧ i.isEvent = false ∧ legal d priv i ∧ encode i = claimWords p slot) ∧
    (i.wellFormed = true → i.isEvent = false → slot + (encode i).length ≤ 3 → claimWords p slot = encode i →
      p.tailOk = true → (slot + (encode i).length = 3 → bit (p.word slot) 29 = false) →
      (legal d priv i → decode d priv p slot = .ok i) ∧ (¬ legal d priv i → ∃ n, decode d priv p slot = .error n)) ∧
    ∀ (q : Packet) (x : Nat), decode d priv p slot = .ok i → claimWords q x = encode i →
      x + (encode i).length ≤ 3 → q.tailOk = true → (x + (encode i).length = 3 → bit (q.word x) 29 = false) →
      decode d priv q x = .ok i

/-- From every state, whatever its next step is, the device's invariant survives it: memory's canonical form, the order
of throttle stages (R407; that they leave in the reverse order is log 43, the model's reading), the scheduler's seat
(R376), the permits of every command link in each direction (R375). -/
def Obligations.EveryStepKeepsTheInvariant : Prop :=
  ∀ s t : State, DeviceInv s → step s = .next t → DeviceInv t

/-- R59, R58, R92, R93, R166, R187, R218, R225, R244, R256, R264-R274, R289, R346, R366: packets that the manual writes
out bit by bit decode to the instructions they stand for. -/
def Obligations.SpecWordsDecode : Prop :=
  let read (w0 w1 w2 : BitVec 32) (slot : Nat) := decode Declared.limits false ⟨w0, w1, w2, 0⟩ slot
  let two (k : Bool) (m : BitVec 3) (d a b c : BitVec 16) : Ops := ⟨false, false, .always, k, false, false, m, d, a, b, c⟩
  let head (g : Guard) (k0 k2 : Bool) : EHead := ⟨false, g, k0, false, k2, 0⟩
  read 0x49A00800 0xC0300000 0x0246000C 0 = .ok (.vcmpImmediate (two false 2 0 3 0 0)) ∧
  read 0x49A00800 0xC0300000 0x0246000C 1 = .error 1 ∧
  read 0x49A00800 0xC0300000 0x0246000C 2 = .ok (.bra false (.pred false 0) 3 3 0) ∧
  read 0x68000804 0xC0400001 0x0201FFF8 0 = .ok (.viaddImmediate { two false 2 4 4 0 1 with chain := true }) ∧
  read 0x68000804 0xC0400001 0x0201FFF8 2 = .ok (.bra false .always 0 0x7FFE 0) ∧
  read 0x88000C00 0xC0080008 0xC0010000 0 = .ok (.viaddImmediate { two false 6 2 2 1 0 with wide := true }) ∧
  read 0x10912346 0x11010AB8 0x08604080 0 = .ok (.slui false 1 0x12346) ∧
  read 0x10912346 0x11010AB8 0x08604080 1 = .ok (.saddi false 1 0xAB8) ∧
  read 0x10912346 0x11010AB8 0x08604080 2 = .ok (.saddSingleWord ⟨false, true, true, 1, 1, 0⟩) ∧
  read 0x45100002 0xC0100042 0 0 = .ok (.vfcvt (two false 0 2 1 0 0x42)) ∧
  read 0x4F400000 0xC0000008 0 0 = .ok (.part (two false 0 0 0 0 8)) ∧
  read 0x50200804 0xC0300408 0 0 = .ok (.lds (two false 2 4 3 1 8)) ∧
  read 0x50400802 0xC0000420 0 0 = .ok (.atom (two false 2 2 0 1 0x20)) ∧
  read 0x52000005 0xC0000002 0 0 = .ok (.snext (two false 0 5 0 0 2)) ∧
  read 0x58A00000 0xC0000000 0 0 = .ok (.accz (two false 0 0 0 0 0)) ∧
  read 0x5C108008 0xC0800001 0 0 = .ok (.crw (two true 0 8 8 0 1)) ∧
  read 0x98000000 0xC0000010 0xC0000000 0 = .ok (.cpy ⟨head .always false false, 0, 0, 4, 0, 0⟩) ∧
  read 0x98185000 0xC000C034 0xC0010005 0 = .ok (.cpyx ⟨head (.pred false 0) true true, 0, 3, 13, 1, 5⟩) ∧
  read 0x99400000 0xC401001C 0xC2000000 0 = .ok (.nmattn ⟨head .always false false, 1, 4, 7, 2⟩) ∧
  read 0x9A000000 0xC4000100 0xC7000000 0 = .ok (.coll ⟨head .always false false, 1, 0, 4, 7⟩)

/-- R38, R41, R46, R104, R150, R213: with power and a lane set granted issue, a step is the execution of the instruction
that decodes at its PC of the packet that its lanes are within, or else fetch, one cycle later but for a later turn
of the same cycle, with what its fetch leaves; lanes that have fetched other words wait. A page that is not mapped
parks the lane set, one it may not execute and words that do not decode trap. -/
def Obligations.StepRunsTheDecodedInstruction : Prop :=
  (∀ s : State, s.power.on = true → s.iss.granted = true →
    let t := if s.iss.late then { s with free := s.free + 1 } else s.tick
    let k := s.iss.wave
    let l := t.issuing.headD 0
    let pc := (t.cur.lane l).pc
    let slot := bits pc.toNat 3 2
    let ran (r : State) (p : Packet) : Prop :=
      (∀ i, decode (t.declared t.cur) t.cur.priv p slot = .ok i → step s = exec i (r.atPacket pc p)) ∧
      ∀ n, decode (t.declared t.cur) t.cur.priv p slot = .error n → step s = .next
        ((r.atPacket pc p).trapTurn causeEncoding (BitVec.ofNat 64 n) ((r.atPacket pc p).issuing.headD 0))
    (∀ p, (t.cur.lane l).within pc = some p → ran t p) ∧
    ((t.cur.lane l).within pc = none →
      (∀ pa leaf, t.fetch k pc = .ok pa leaf →
        ran ((t.countFetch k pc).fill (t.ctxOf t.cur) (t.coreOf t.cur) pc.toNat leaf) (t.fetchPacket k pa leaf)) ∧
      (t.fetch k pc = .fault → step s = .next (t.hold t (t.park [(l, pc.toNat)]))) ∧
      (t.fetch k pc = .denied → step s = .next
        (({ t with iss := { t.iss with pc := pc, next := pc, look := 0, words := [0] } } : State).refilled
          causeProtection pc |>.trapTurn causeProtection pc l)))) ∧
  ∀ (t : State) (pc : BitVec 64) (p : Packet), let u := t.atPacket pc p
    u.iss = { issueOf t pc p with lanes := t.sameCode pc p } ∧ u.mem = t.mem ∧
    ∀ k l, ((u.wave k).lane l).arch = ((t.wave k).lane l).arch

/-- With no lane set granted, a step is a MOLT's performance once it has been held for 500 cycles (log 49), else what a
leaf controller has been asked to do, else the first event that its surroundings bring once due, of which an order
of the scheduler's leaves as messages on command links (R375), else an event of the device, else only time passes;
without power it is a boot, or the machine stops (log 39, R386, R410). -/
def Obligations.StepBringsEvents : Prop :=
  ∀ s : State,
    (s.power.on = true → s.iss.granted = false → (∀ i, s.overdue = some i → step s = exec i s.tick) ∧
      ∀ p ∈ s.waves, p.2.used = true → p.2.retired = false → ∀ l ∈ p.2.live, ∀ h n, (p.2.lane l).wait = .molt h n →
        n + 500 ≤ s.time → ∃ k, s.overdue = some (.moltPerformed k)) ∧
    (s.power.on = true → s.iss.granted = false → s.overdue = none →
      ∀ i rest, s.orders = i :: rest → step s = exec i { s.tick with orders := rest }) ∧
    (s.power.on = true → s.iss.granted = false → s.overdue = none → s.orders = [] →
      (∀ due i rest, s.agenda = (due, i) :: rest → due ≤ s.time → let t := { s.tick with agenda := rest }
        (∀ ls, t.orderLinks i = some ls → step s = .next (t.sendOrder i ls)) ∧
        (t.orderLinks i = none → step s = exec i t)) ∧
      ((∀ due i rest, s.agenda = (due, i) :: rest → s.time < due) →
        (∀ i, s.tick.auto = some i → step s = exec i s.tick) ∧ (s.tick.auto = none → step s = .next s.tick))) ∧
    (s.power.on = false →
      (∀ ev due img rest, (∀ e ∈ ev, Machine.Instr.isBoot e.2 = false) → s.agenda = ev ++ (due, .boot img) :: rest →
        step s = exec (.boot img) { s.tick with agenda := rest }) ∧
      ((∀ e ∈ s.agenda, Machine.Instr.isBoot e.2 = false) → step s = .fault .poweredOff))

/-- R386, R410, R374, R375, R361: after reset the device has power and has not booted; time is 0, no wave, block, gang,
launch, queue, engine operation or communicator exists, no owner is enrolled and no throttle stage is in force; each
control core's CR.EVENT, CR.CTX, CR.PTROOT and CR.TIMER are 0 (log 38), each command link holds 16 permits, each
Ghedy link sends SEQ 0 next. Home memory lists nothing, every byte of it reading as 0 (log 2), and what every step
keeps holds. An unowned device that has failed no boot is the model's choice (log 50), and so is a timer that is not
armed (log 8). -/
def Obligations.ResetLeaves : Prop :=
  let s := State.reset
  s.power.on = true ∧ s.boot.booted = false ∧ s.boot.owner = none ∧ s.boot.failed = false ∧ s.time = 0 ∧ s.waves = [] ∧
  s.blocks = [] ∧ s.gangs = [] ∧ s.launches = [] ∧ s.queues = [] ∧ s.copies = [] ∧ s.mats = [] ∧ s.palps = [] ∧
  s.colls = [] ∧ s.comms = [] ∧ s.iss.granted = false ∧ s.power.throttle = [] ∧ s.sched = 0 ∧
  (∀ c, let x := s.ctl c
    x.event = 0 ∧ x.ctx = 0 ∧ x.root = 0 ∧ x.timer = 0 ∧ x.armed = false) ∧
  (∀ c, (s.clink c).downPermits = 16 ∧ (s.clink c).upPermits = 16) ∧ (∀ l, (s.glink l).next = 0) ∧
  (∀ a, s.mem.get a = 0) ∧ DeviceInv s

/-- R9, R30, R28, R59, R143, R169, R280: an instruction whose guard holds in no lane of its set has no effect but to
advance it; but a transfer with 3 in its own slot field traps whatever its guard, and an XMOV waits for its slot,
which it then passes by. One with a source missing, or that names a buffer to which an EPI or TMERGE of its wave is
not yet performed, has no effect yet, and its lane set waits. -/
def Obligations.InactiveAndUnreadyInstructions : Prop :=
  ∀ (s : State) (i : Instr), i.isEvent = false → s.resumes = false → let slots := (s.block s.cur.block).slots
    (s.active i = [] → s.iss.granted = true → s.cur.single = false → badSlot i = false →
      (∀ o, i = .xmovS o → slots.has o.s2.toNat = false) → (∀ o, i = .xmovR o → slots.has o.s2.toNat = true) →
      Answers i s (Retired s s i [] [])) ∧
    (s.active i = [] → badSlot i = true → let l := s.issuing.headD 0
      (∀ t mark, jumpTable s i = some (t, mark) → exec i s = .next (s.trapTurn causeTarget (t l) l)) ∧
      ∀ t, callTable s i = some t → exec i s = .next (s.trapTurn causeTarget (t l) l)) ∧
    (s.active i = [] → ∀ o, i = .xmovS o → slots.has o.s2.toNat = true →
      exec i s = .next (s.hold s (.xmov true o.s2.toNat))) ∧
    (s.active i = [] → ∀ o, i = .xmovR o → slots.has o.s2.toNat = false →
      exec i s = .next (s.hold s (.xmov false o.s2.toNat))) ∧
    (s.active i ≠ [] → s.pending i (s.active i) = true → exec i s = .next (s.hold s .score)) ∧
    (s.active i ≠ [] → s.pending i (s.active i) = false → s.unitBusy (buffersOf i) = true →
      exec i s = .next (s.hold s .access))

/-! ## Results at once, and results that arrive later -/

/-- R95 with R86-R89 and R25: every arithmetic and logical lane instruction completes; each active lane's destination
holds the table's result at the name's width, results still in flight to it are discarded (R44), and all else is
framed. R96-R100 and R167: the bit, move, packed and mask instructions of lanes. -/
def Obligations.LaneIntegerResults : Prop :=
  (∀ (s : State) (i : Instr) (d : Nat) (f : Nat → Nat), arithmetic s i = some (d, f) → s.ready i = true →
      Answers i s fun t => ThreadResult i s t
        (s.toNext i fun l a => { a with names := a.names.put d (s.atWidth d (f l)) })
        (fun w => w.cancelLane d (s.active i))) ∧
  (∀ (s : State) (i : Instr) (d : Nat) (f : Nat → Nat), bitsAndMoves s i = some (d, f) → s.ready i = true →
      Answers i s fun t => ThreadResult i s t
        (s.toNext i fun l a => { a with names := a.names.put d (s.atWidth d (f l)) })
        (fun w => w.cancelLane d (s.active i)))

/-- R113-R126: a float instruction writes each active lane's result and ORs the flags of its active lanes into CR.FFLAGS
(R33, R114). R128, R132 with R28, R43, R114: a special function's results and flags leave for its destination, which
keeps what it holds until they arrive. -/
def Obligations.FloatResults : Prop :=
  (∀ (s : State) (i : Instr) (d : Nat) (f : Nat → Nat × Flags), floatTable s i = some (d, f) → s.ready i = true →
      Answers i s fun t => ThreadResult i s t
        (s.toNext i fun l a => { a with names := a.names.put d (s.atWidth d (f l).1) })
        (fun w => { w.cancelLane d (s.active i) with
          fflags := w.fflags ||| orFlags ((s.active i).map fun l => (f l).2) })) ∧
  (∀ (s : State) (i : Instr) (d : Nat) (f : Nat → Nat × Flags), specialTable s i = some (d, f) → s.ready i = true →
      Answers i s fun t => ThreadResult i s t (s.toNext i fun _ a => a)
        (fun w => { w.cancelLane d (s.active i) with
          flights := (w.cancelLane d (s.active i)).flights ++
            [⟨false, d, (s.active i).map fun l => (l, BitVec.ofNat 64 (f l).1), s.active i,
              orFlags ((s.active i).map fun l => (f l).2), none, 0⟩] }))

/-- R90, R91 with R27: a uniform integer instruction writes its wave's name. R93: SLDR's word of the resource entry, as
it stood at launch, leaves for the uniform name. -/
def Obligations.UniformResults : Prop :=
  (∀ (s : State) (i : Instr) (d v : Nat), uniformTable s i = some (d, v) → s.ready i = true →
      Answers i s fun t => ThreadResult i s t (s.toNext i fun _ a => a)
        (fun w => { w.cancelUnif d with uvague := w.uvague.del d, unif := w.unif.put d (BitVec.ofNat 64 v) })) ∧
  (∀ (s : State) (o : Ops), s.ready (.sldr o) = true →
      Answers (.sldr o) s fun t => ThreadResult (.sldr o) s t (s.toNext (.sldr o) fun _ a => a)
        (fun w => { w.cancelUnif o.dst.toNat with
          uvague := w.uvague.del o.dst.toNat
          flights := (w.cancelUnif o.dst.toNat).flights ++
            [⟨true, o.dst.toNat,
              [(0, ((s.kernelOf s.cur).res.getD o.s0.toNat []).getD (o.s2.toNat % 8) 0)],
              s.active (.sldr o), 0, none, 0⟩] }))

/-! ## The predicate stack -/

/-- R29 with R92, R101, R102, R119: where no active lane's stack is full, a comparison, PDUP or PSETM pushes its bit
onto each active lane's stack, and VFCMP contributes its flags. R29 and R102 with R9: where some active lane's stack
is full, an instruction that pushes raises the trap "predicate overflow" for the lowest such lane, and no lane
pushes. -/
def Obligations.PushesOntoStacks : Prop :=
  (∀ (s : State) (i : Instr) (f : Nat → Bool) (fl : Flags), pushTable s i = some (f, fl) → s.ready i = true →
      (∀ l ∈ s.active i, (s.cur.lane l).count < 8) →
      Answers i s fun t =>
        ThreadResult i s t
          (s.toNext i fun l a => { a with
            preds := BitVec.ofNat 8 (2 * a.preds.toNat + (f l).toNat), count := a.count + 1 })
          (fun w => { w with fflags := w.fflags ||| fl }) ∧
        ∀ l ∈ s.active i, entries ((t.wave s.iss.wave).lane l) = f l :: entries (s.cur.lane l)) ∧
  (∀ (s : State) (i : Instr) (f : Nat → Bool) (fl : Flags) (l : Nat), pushTable s i = some (f, fl) →
      s.ready i = true → (s.active i).find? (fun l => (s.cur.lane l).count == 8) = some l →
      exec i s = .next (s.trapTurn causePredOver (BitVec.ofNat 64 8) l))

/-- R102: where every active lane's stack is deep enough, PNOT, PAND, POR, PXOR, PSWAP and PDROP make of its entries
what the table says, and change nothing else of the thread but its PC. R102 with R9: where some active lane's stack
is too short, the instruction raises the trap "predicate underflow" for the lowest such lane. -/
def Obligations.StackEntriesInPlace : Prop :=
  (∀ (s : State) (i : Instr) (n : Nat) (f : List Bool → List Bool), stackTable i = some (n, f) → s.ready i = true →
      (∀ l ∈ s.active i, n < (s.cur.lane l).count) →
      Answers i s fun t => ThreadFrame i s t ∧ (t.wave s.iss.wave).arch = s.cur.arch ∧
        (∀ l ∈ s.issuing, let x := ((t.wave s.iss.wave).lane l).arch
          { x with preds := (s.cur.lane l).preds, count := (s.cur.lane l).count, pc := (s.cur.lane l).pc } =
            (s.cur.lane l).arch ∧ x.pc = s.iss.next) ∧
        (∀ l ∈ s.active i, entries ((t.wave s.iss.wave).lane l) = f (entries (s.cur.lane l))) ∧
        ∀ l ∈ s.issuing, l ∉ s.active i → entries ((t.wave s.iss.wave).lane l) = entries (s.cur.lane l)) ∧
  (∀ (s : State) (i : Instr) (f : List Bool → List Bool) (n l : Nat), stackTable i = some (n, f) →
      s.ready i = true → (s.active i).find? (fun l => decide ((s.cur.lane l).count ≤ n)) = some l →
      ∃ addr, exec i s = .next (s.trapTurn causePredUnder addr l))

/-! ## Control transfer -/

/-- R103, R104, R59: where every active lane's target passes the checks, BRA, JMP and JMPI lead each active lane to its
target and the other lanes of the set to the next instruction; but for the translations that the TLBs keep (R212)
and the target packets as fetched at the transfer (R38, R41), nothing else changes. R104: a target that fails a
check traps its jump, in the order of the checks; where the page may not be executed the TLBs keep its translation
(R212). -/
def Obligations.Jumps : Prop :=
  (∀ (s : State) (i : Instr) (t : Nat → BitVec 64) (mark : Bool), jumpTable s i = some (t, mark) →
      s.ready i = true → (∀ l ∈ s.active i, targetOk s (t l) = true) →
      Completes i s (s.landing ((s.active i).map fun l => (l, t l))) ((s.active i).map fun l => (l, t l))) ∧
  (∀ (s : State) (i : Instr) (t : Nat → BitVec 64) (mark : Bool) (cause : Nat) (addr : BitVec 64) (l : Nat),
      jumpTable s i = some (t, mark) → s.ready i = true →
      targetTrap s ((s.active i).map fun l => (l, t l)) = some (cause, addr, l) →
      exec i s = .next ((s.refilled cause addr).trapTurn cause addr l))

/-- R20, R22, R104: where no active lane's call depth is at its limit, its stack entry may be written and its target
passes the checks, a call stores each active lane's return address in its entry (in ascending order), raises its
depth, and leads it to its target. R20, R104: where every active lane's depth is above zero and its top entry may be
read and holds a good target, RET lowers its depth and leads it there. R20, R104: a call at the call depth limit and
a RET at depth zero trap for the lowest such lane. -/
def Obligations.CallsAndReturns : Prop :=
  (∀ (s : State) (i : Instr) (t : Nat → BitVec 64) (pas : List (Nat × Nat × Nat)), callTable s i = some t →
      s.ready i = true → (∀ l ∈ s.active i, (s.cur.lane l).depth < (s.kernelOf s.cur).depth) →
      s.reach .stackWrite true ((s.active i).map fun l => (l, s.stackEntry s.iss.wave l (s.cur.lane l).depth)) =
        .ok pas →
      (∀ l ∈ s.active i, targetOk s (t l) = true) →
      Completes i s
        ((pas.foldl (fun r p => r.storeHome s.iss.wave p.2.1 (leBytes 8 s.iss.next.toNat))
          ((s.fills s.cur ((s.active i).map fun l => s.stackEntry s.iss.wave l (s.cur.lane l).depth)).landing
            ((s.active i).map fun l => (l, t l)))).onWave s.iss.wave fun w =>
          w.onLanes (s.active i) fun x => { x with depth := x.depth + 1 })
        ((s.active i).map fun l => (l, t l))) ∧
  (∀ (s : State) (c : Bool) (g : Guard) (pas : List (Nat × Nat × Nat)), s.ready (.ret c g) = true →
      (∀ l ∈ s.active (.ret c g), 0 < (s.cur.lane l).depth) →
      s.reach .stackRead true ((s.active (.ret c g)).map fun l =>
        (l, s.stackEntry s.iss.wave l ((s.cur.lane l).depth - 1))) = .ok pas →
      (∀ p ∈ pas, targetOk s
        (BitVec.ofNat 64 (ofLe ((List.range 8).map fun i => s.viewByte s.iss.wave (p.2.1 + i)))) = true) →
      let ts := pas.map fun p =>
        (p.1, BitVec.ofNat 64 (ofLe ((List.range 8).map fun i => s.viewByte s.iss.wave (p.2.1 + i))))
      Completes (.ret c g) s
        (((s.fills s.cur ((s.active (.ret c g)).map fun l =>
          s.stackEntry s.iss.wave l ((s.cur.lane l).depth - 1))).landing ts).onWave s.iss.wave fun w =>
          w.onLanes (s.active (.ret c g)) fun x => { x with depth := x.depth - 1 })
        ts) ∧
  ((∀ (s : State) (i : Instr) (t : Nat → BitVec 64) (l : Nat), callTable s i = some t → s.ready i = true →
      (s.active i).find? (fun l => decide ((s.kernelOf s.cur).depth ≤ (s.cur.lane l).depth)) = some l →
      exec i s = .next (s.trapTurn causeCallOver (BitVec.ofNat 64 (s.cur.lane l).depth) l)) ∧
    ∀ (s : State) (c : Bool) (g : Guard) (l : Nat), s.ready (.ret c g) = true →
      (s.active (.ret c g)).find? (fun l => (s.cur.lane l).depth == 0) = some l →
      exec (.ret c g) s = .next (s.trapTurn causeCallUnder 0 l))

/-- R106: EXIT ends its active lanes. A wave that keeps lanes goes on with them; a wave not in trap mode whose lanes
have then all exited retires. Where it retires, convergence registers whose epochs can no longer close are looked at
(R179). R19, R107: NOP and YIELD change nothing but the PC; the lanes of a YIELD give up their next opportunity, a
NOP's do not begin to. -/
def Obligations.EndsAndPauses : Prop :=
  (∀ (s : State) (c : Bool) (g : Guard), s.ready (.exit c g) = true → s.cur.trapm = false →
      let act := s.active (.exit c g)
      let gone := s.onWave s.iss.wave fun w => w.onLanes act fun t => { t with exited := true }
      ((∃ l ∈ s.cur.live, l ∉ act) → Completes (.exit c g) s gone []) ∧
        ((∀ l ∈ s.cur.live, l ∈ act) → Completes (.exit c g) s
          ((gone.onWave s.iss.wave fun w => { w with retired := true }).afterRetirement s.iss.wave) [])) ∧
  ((∀ s : State, s.ready .nop = true → Answers .nop s fun t =>
      ThreadResult .nop s t (s.toNext .nop fun _ a => a) id ∧
        ∀ l ∈ s.active .nop, ((t.wave s.iss.wave).lane l).rest = (s.cur.lane l).rest) ∧
    ∀ (s : State) (c : Bool), s.ready (.yield c) = true → Answers (.yield c) s fun t =>
      ThreadResult (.yield c) s t (s.toNext (.yield c) fun _ a => a) id ∧
        ∀ l ∈ s.active (.yield c), ((t.wave s.iss.wave).lane l).rest = true)

/-! ## Wave operations -/

/-- R155-R165: a SHFL, WRED, WSCAN or VOTE of the members' mask, its members gathered, writes each active lane's result;
the flags of WRED and WSCAN are contributed. R161: VOTE.ANY, .ALL and .EQ push. -/
def Obligations.WaveOperationResults : Prop :=
  (∀ (s : State) (i : Instr) (m d : Nat) (f : Nat → Nat × Flags), waveMask s i = some m →
      waveTable s i m = some (d, f) → s.ready i = true → Gathered s i m →
      Answers i s fun t => ThreadResult i s t
        (s.toNext i fun l a => { a with names := a.names.put d (s.atWidth d (f l).1) })
        (fun w => { w.cancelLane d (s.active i) with
          fflags := w.fflags ||| orFlags ((s.active i).map fun l => (f l).2) })) ∧
  (∀ (s : State) (o : Ops), bits o.mod.toNat 1 0 ≠ 3 → s.ready (.vote o) = true →
      Gathered s (.vote o) (s.ru (s.active (.vote o)) o.s1.toNat) →
      (∀ l ∈ s.active (.vote o), (s.cur.lane l).count < 8) →
      Answers (.vote o) s fun t => ThreadResult (.vote o) s t
        (s.toNext (.vote o) fun l a =>
          (a.push (votePush s o (s.ru (s.active (.vote o)) o.s1.toNat) l)).arch) id)

/-- R158, R157: a wave operation waits while a member is elsewhere, and traps an active lane that its own mask leaves
out. -/
def Obligations.MemberWaitsAndSelfExclusion : Prop :=
  ∀ (s : State) (i : Instr) (m : Nat), waveMask s i = some m → s.ready i = true →
    ((∃ j ∈ s.seen.present, j ∉ s.issuing ∧ ∃ l ∈ s.active i, memberOf s m l j) →
      exec i s = .next (s.hold s (.members (BitVec.ofNat 64 m)))) ∧
    ((∀ j ∈ s.seen.present, j ∉ s.issuing → ∀ l ∈ s.active i, ¬ memberOf s m l j) →
      ∀ l, (s.active i).find? (fun l => !bit m l) = some l →
        exec i s = .next (s.trapTurn causeSelf (BitVec.ofNat 64 l) l))

/-- R166: PART sets CR.PART to a width that the wave accepts, and otherwise traps. R168, R169: XMOV.S deposits the
active lanes' values in an empty slot, and waits at a full one; XMOV.R empties a full slot, its values leaving for
the active lanes (0 where the deposit has none), and waits at an empty one. -/
def Obligations.TilesAndTransferSlots : Prop :=
  (∀ (s : State) (o : Ops), s.ready (.part o) = true →
      (partOk s.cur.width o.s2.toNat = true → Answers (.part o) s fun t =>
        ThreadResult (.part o) s t (s.toNext (.part o) fun _ a => a) fun w => { w with part := o.s2.toNat }) ∧
      (partOk s.cur.width o.s2.toNat = false →
        exec (.part o) s = .next (s.trapTurn causeCtlValue (BitVec.ofNat 64 o.s2.toNat) ((s.active (.part o)).headD 0)))) ∧
  ((∀ (s : State) (o : Ops), s.ready (.xmovS o) = true →
      let b := s.block s.cur.block
      let d : Deposit := ⟨widthOf o, (s.active (.xmovS o)).map fun l => (l, BitVec.ofNat 64 (s.rd (widthOf o) l o.s0.toNat))⟩
      (b.slots.has o.s2.toNat = false → Completes (.xmovS o) s
        (s.setBlock s.cur.block { b with slots := b.slots.put o.s2.toNat d }) []) ∧
      (b.slots.has o.s2.toNat = true → exec (.xmovS o) s = .next (s.hold s (.xmov true o.s2.toNat)))) ∧
    ∀ (s : State) (o : Ops), s.ready (.xmovR o) = true →
      let b := s.block s.cur.block
      let d := b.slots.get ⟨32, []⟩ o.s2.toNat
      (b.slots.has o.s2.toNat = true → Completes (.xmovR o) s
        ((s.setBlock s.cur.block { b with slots := b.slots.del o.s2.toNat }).flyLanes (s.active (.xmovR o)) o.dst.toNat
          ((s.active (.xmovR o)).map fun l => (l, BitVec.ofNat 64
            ((((d.vals.find? fun p => p.1 == l).map fun p => p.2.toNat).getD 0) % 2 ^ widthOf o))) 0) []) ∧
      (b.slots.has o.s2.toNat = false → exec (.xmovR o) s = .next (s.hold s (.xmov false o.s2.toNat))))

/-! ## Memory -/

/-- R109-R111, R203, R235: where the checks pass and no word is marked, LD's values leave for its destination: a global
lane's from its place in this device, a scratch lane's from the buffer as it stood before the cycle (R150), each
sign- or zero-extended, with what they tell of publications (R238); a lane on another device sends a request (R363).
R109, R110, R203, R333: where the checks pass, ST performs its active lanes' stores in ascending order; marked words
that they write whole together lose their marks. R109, R203: where nothing makes the access wait (R143, R225, R280),
an address that fails a check traps LD and ST, in the order of the checks. -/
def Obligations.LoadsAndStores : Prop :=
  (∀ (s : State) (o : Ops) (pas : List (Nat × Nat × Nat)), s.ready (.ld o) = true → s.bad = [] →
      s.genericCheck .load (accessSize o) (s.eas o (s.active (.ld o))) = .ok pas →
      let k := s.iss.wave
      let z := accessSize o
      let ext (x : Nat) : BitVec 64 := BitVec.ofNat 64 (if bit o.mod.toNat 2 then wrap 64 (sext (8 * z) x) else x)
      let loc := (pas.filter fun p => !bit p.2.1 55).map fun p => (p.1, copyFor (s.dieOf s.cur) p.2.2 p.2.1)
      let ptr := (s.eas o (s.active (.ld o))).filter fun a => bits a.2 63 56 == 0xFE
      let vals := (loc.map fun p => (p.1, ext (s.physRead k p.2 z))) ++ ptr.map fun a =>
        (a.1, ext (ofLe ((List.range z).map fun i =>
          s.scratchPast.scratchByte s.cur.block (bits a.2 55 48) (bits a.2 31 0 + i))))
      let t := s.fills s.cur (((s.eas o (s.active (.ld o))).filter fun a => bits a.2 63 56 == 0).map Prod.snd)
      let t := t.learn k (loc.flatMap fun p => (List.range z).map (p.2 + ·))
      let t := ptr.foldl (fun r a => r.learnScratch k (bits a.2 55 48) ((List.range z).map (bits a.2 31 0 + ·))) t
      let t := if vals = [] then t
        else (t.flyLanes (vals.map Prod.fst) o.dst.toNat vals 0).fromMem (if loc = [] then 3 else 4)
      Completes (.ld o) s ((pas.filter fun p => bit p.2.1 55).foldl (fun r p =>
        let q := r.sendRemote k p.1 o.dst.toNat p.2.1 z .load (bit o.mod.toNat 2) none
        q.1.flyRemote p.1 o.dst.toNat q.2) t) []) ∧
  (∀ (s : State) (o : Ops) (pas : List (Nat × Nat × Nat)), s.ready (.st o) = true →
      s.genericCheck .store (accessSize o) (s.eas o (s.active (.st o))) = .ok pas →
      Completes (.st o) s
        (((s.eas o (s.active (.st o))).foldl (fun r a =>
          r.storeLane pas a.1 a.2 (leBytes (accessSize o) (s.rd 64 a.1 o.s1.toNat)))
          (s.fills s.cur (((s.eas o (s.active (.st o))).filter fun a => bits a.2 63 56 == 0).map Prod.snd))).unmarkAll
          ((pas.filter fun p => !bit p.2.1 55).flatMap fun p =>
            (copiesFor p.2.2 p.2.1).map fun a => (a, accessSize o))) []) ∧
  (∀ (s : State) (o : Ops) (cause : Nat) (addr : BitVec 64) (l : Nat), s.acquiring s.iss.wave = false →
      (∀ a ∈ s.access, a.wave = s.iss.wave → a.kind ≠ 3) →
      (s.ready (.ld o) = true →
        addressTrap s (accessSize o) (s.eas o (s.active (.ld o))) = some (cause, addr, l) →
        exec (.ld o) s = .next (s.trapTurn cause addr l)) ∧
      (s.ready (.st o) = true →
        addressTrap s (accessSize o) (s.eas o (s.active (.st o))) = some (cause, addr, l) →
        exec (.st o) s = .next (s.trapTurn cause addr l)))

/-- R36, R233, R235: a store of a lane to home memory on a page that is not replicated writes exactly its bytes, and its
wave reads them back, but where an atomic's write of the byte still stands in a vault-cache line, to go home after
it (R224); every other byte reads as before. R204, R229: a write of a scratch buffer leaves exactly its bytes there
as lanes read them; every other byte of the instance reads as before, and home memory is untouched. -/
def Obligations.StoresWriteExactlyTheirBytes : Prop :=
  (∀ (s : State) (pas : List (Nat × Nat × Nat)) (l va pa leaf : Nat) (bs : List Byte), pas.find? (fun p => p.1 == l) =
        some (l, pa, leaf) → bits pa 46 39 = 0 → bit pa 55 = false → leafRepl leaf = false → s.iss.late = false → s.mem.wf = true →
      let t := s.storeLane pas l va bs
      (∀ a, t.mem.get a = if pa ≤ a ∧ a < pa + bs.length then bs.getD (a - pa) 0 else s.mem.get a) ∧
      (∀ a, pa ≤ a → a < pa + bs.length → (∀ v ∈ s.vlines, v.line = a / 128 → a % 128 ∉ v.dirty) →
        t.loadByte s.iss.wave a = bs.getD (a - pa) 0) ∧
      ∀ a, ¬ (pa ≤ a ∧ a < pa + bs.length) → t.loadByte s.iss.wave a = s.loadByte s.iss.wave a) ∧
  (∀ (s : State) (b buf off : Nat) (bs : List Byte) (k : Option Nat),
      let t := s.writeScratch b buf off bs k
      t.mem = s.mem ∧
      (∀ x, off ≤ x → x < off + bs.length → t.scratchByte b buf x = bs.getD (x - off) 0) ∧
      ∀ x, ¬ (off ≤ x ∧ x < off + bs.length) → t.scratchByte b buf x = s.scratchByte b buf x)

/-- R218-R220: where every active lane's offset is aligned and inside the buffer, no watchpoint is hit and no remote
atomic of the wave has yet to acquire (R225), LDS's values, as the buffer stood before the cycle (R150), leave for
its destination, and STS writes the lanes' bytes in ascending order. -/
def Obligations.ScratchLoadsAndStores : Prop :=
  ∀ (s : State) (o : Ops), s.acquiring s.iss.wave = false → (s.launch (s.launchOf s.cur)).watches = [] →
    (s.ready (.lds o) = true →
      (∀ p ∈ s.offsets o (s.active (.lds o)), p.2 % (accessSize o : Int) = 0 ∧ 0 ≤ p.2 ∧
        p.2 + accessSize o ≤ s.scratchSize s.cur.block o.s1.toNat) →
      let os := s.offsets o (s.active (.lds o))
      let t := s.learnScratch s.iss.wave o.s1.toNat
        (os.flatMap fun p => (List.range (accessSize o)).map (p.2.toNat + ·))
      Completes (.lds o) s ((t.flyLanes (s.active (.lds o)) o.dst.toNat
        (os.map fun p => (p.1, loaded (accessSize o) (bit o.mod.toNat 2)
          (ofLe ((List.range (accessSize o)).map fun i =>
            s.scratchPast.scratchByte s.cur.block o.s1.toNat (p.2.toNat + i))))) 0).fromMem 3) []) ∧
    (s.ready (.sts o) = true →
      (∀ p ∈ s.offsets o (s.active (.sts o)), p.2 % (accessSize o : Int) = 0 ∧ 0 ≤ p.2 ∧
        p.2 + accessSize o ≤ s.scratchSize s.cur.block o.dst.toNat) →
      Completes (.sts o) s
        (((s.offsets o (s.active (.sts o))).foldl (fun r p =>
          r.scratchWrite s.iss.wave o.dst.toNat p.2.toNat (leBytes (accessSize o) (s.rd 64 p.1 o.s1.toNat))) s).access1
          s.iss.wave 2 o.dst.toNat) [])

/-- R221-R225, R231: where the addresses are global, the checks pass, pages of .DEV and .SYS atomics are SYNC pages, no
word is marked, and nothing is outstanding that a release waits for, ATOM's lanes on this device perform in
ascending order between the release and the acquire, each returning what it found; lanes on another device send
requests, the last of which to be performed acquires. R221-R223, R231: ATOMS likewise in scratch buffers. R222,
R224: an atomic of a lane to home memory, on a page that is not replicated and not held in the vault cache, finds
the value at home and leaves there the operation's result on it; every other byte is as before. -/
def Obligations.Atomics : Prop :=
  (∀ (s : State) (o : Ops) (pas : List (Nat × Nat × Nat)), s.ready (.atom o) = true → s.bad = [] →
      let act := s.active (.atom o)
      let n := atomN o
      let as := act.map fun l => (l, s.rd 64 l o.s0.toNat)
      (∀ a ∈ as, bits a.2 63 56 = 0) → s.genericCheck .atomic (n / 8) as = .ok pas →
      (∀ p ∈ pas, atomScope o < 2 ∨ leafSync p.2.2 = true) →
      (atomRel o = true → s.releaseBusy s.iss.wave (atomScope o) = false) →
      let far := pas.filter fun p => bit p.2.1 55
      let near := pas.filter fun p => !bit p.2.1 55
      let t := atomicBetween (s.fills s.cur (as.map Prod.snd)) o (act.filter fun l => near.any fun p => p.1 == l) 1 4
        (near.map fun p => p.2.1).eraseDups (!far.isEmpty) fun r l =>
          let p := (pas.find? fun p => p.1 == l).getD (0, 0, 0)
          performAt (atomOp o) n (bit o.mod.toNat 2) p.2.1 p.2.2 (s.rd n l o.s1.toNat) (s.rd n l o.dst.toNat) r
      Completes (.atom o) s (far.foldl (fun r p =>
        let q := r.sendRemote s.iss.wave p.1 o.dst.toNat p.2.1 (n / 8)
          (.atomic (atomOp o) (bit o.mod.toNat 2) (s.rd n p.1 o.s1.toNat) (s.rd n p.1 o.dst.toNat)) false
          (if atomAcq o then some (atomScope o) else none)
        if atomNR o then q.1 else q.1.flyRemote p.1 o.dst.toNat q.2) t) []) ∧
  (∀ (s : State) (o : Ops) (pas : List (Nat × Nat × Nat)), s.ready (.atoms o) = true →
      let act := s.active (.atoms o)
      let n := atomN o
      let as := act.map fun l => (l, s.rd 64 l o.s0.toNat)
      (∀ a ∈ as, bits a.2 63 56 = 0xFE) → s.genericCheck .atomic (n / 8) as = .ok pas →
      (atomRel o = true → s.releaseBusy s.iss.wave (atomScope o) = false) →
      Completes (.atoms o) s (atomicBetween s o act 2 3 (as.map fun a => bits a.2 55 48).eraseDups false fun r l =>
        let a := s.rd 64 l o.s0.toNat
        performIn (atomOp o) n (bit o.mod.toNat 2) (bits a 55 48) (bits a 31 0) (s.rd n l o.s1.toNat)
          (s.rd n l o.dst.toNat) r) []) ∧
  (∀ (s : State) (op n pa leaf b c : Nat) (u : Bool), (n = 32 ∨ n = 64) → bits pa 46 39 = 0 →
      inVaultCache pa leaf = false → leafRepl leaf = false → s.bad = [] → s.mem.wf = true →
      let old := ofLe ((List.range (n / 8)).map fun i => s.mem.get (pa + i))
      let r := s.atomLane op n u pa leaf b c
      r.2 = old ∧
      ∀ a, r.1.mem.get a = match atomicResult op n u old b c with
        | some v => if pa ≤ a ∧ a < pa + n / 8 then (leBytes (n / 8) v).getD (a - pa) 0 else s.mem.get a
        | none => s.mem.get a)

/-- R237: what a wave has in its view when it releases, a wave that acquires afterwards at the same scope has in its
own: within the block, from .GANG up within the gang, from .DEV up everywhere. This holds of every byte but of those
last written through a page with non-atomic propagation, of which the manual leaves each acquire its own choice. -/
def Obligations.ReleaseThenAcquireIsSeen : Prop :=
  ∀ (s : State) (k j scope a : Nat), frameOf a ∉ s.loose →
    ((s.wave j).block = (s.wave k).block ∨ (1 ≤ scope ∧ s.gangOf (s.wave j) = s.gangOf (s.wave k)) ∨ 2 ≤ scope) →
    (s.wave k).view.get 0 a ≤ (((s.release k scope).acquire j scope).wave j).view.get 0 a

/-- R226-R230, R356, R364: PREF and CFLUSH complete at once, with no more than a line filled or its write-back
outstanding; PHASE, FOPND and FENCEI complete when what they wait for is performed, PHASE as a release and an
acquire, FOPND fencing the wave's lane stores, FENCEI taking the wave's view for its code; until then they wait.
R229: after a FOPND of a buffer no lane store of the wave to it is left unfenced, and no byte of it changes as lanes
read it. -/
def Obligations.Fences : Prop :=
  (∀ (s : State) (o : Ops), let k := s.iss.wave
      (s.ready (.pref o) = true → Completes (.pref o) s
        (if bits o.mod.toNat 1 0 = 1 then (s.lines o (s.active (.pref o))).foldl (fun r pa =>
          r.setLine (r.lineFor (r.ctxOf r.cur) (r.clusterOf r.cur) pa)) s else s) []) ∧
      (s.ready (.cflush o) = true → Completes (.cflush o) s
        ((s.lines o (s.active (.cflush o))).foldl (fun r pa =>
          r.access1 k (if bits o.mod.toNat 1 0 = 1 then 0 else 4) pa) s) []) ∧
      (s.ready (.phase o) = true →
        (s.releaseBusy k (bits o.mod.toNat 1 0) = false → Completes (.phase o) s
          ((s.release k (bits o.mod.toNat 1 0)).acquire k (bits o.mod.toNat 1 0)) []) ∧
        (s.releaseBusy k (bits o.mod.toNat 1 0) = true → exec (.phase o) s = .next (s.hold s .access))) ∧
      (s.ready (.fopnd o) = true →
        let open_ := s.access.any fun a => a.wave == k && a.kind == 2 && (bit o.s2.toNat 0 || a.addr == o.s0.toNat)
        (open_ = false → Completes (.fopnd o) s
          (if bit o.s2.toNat 0 then (List.range (s.declared s.cur).scr).foldl (fun r b => r.fence k b) s
           else s.fence k o.s0.toNat) []) ∧
        (open_ = true → exec (.fopnd o) s = .next (s.hold s .access))) ∧
      (s.ready (.fencei o) = true →
        let open_ := (s.access.any fun a => a.wave == k && decide (1 ≤ a.kind) && decide (a.kind ≤ 3)) ||
          (s.copies.any fun p => p.2.wave == k) || s.remotes.any fun r => r.2.wave == k && r.2.ask.writes
        let ahead := s.cur.live.filter fun l => decide (l ∉ s.iss.lanes) && (s.cur.lane l).pc.toNat % 16 == 0
        (open_ = false → Completes (.fencei o) s
          (s.onWave k fun w => { (w.onLanes ahead fun t => { t with code := none }) with code := w.view }) []) ∧
        (open_ = true → exec (.fencei o) s = .next (s.hold s .access)))) ∧
  (∀ (s : State) (k buf : Nat), let b := (s.wave k).block
      (∀ u ∈ ((s.fence k buf).scratch b buf).unfenced, u.2 ≠ k) ∧
      ∀ x, (s.fence k buf).scratchByte b buf x = s.scratchByte b buf x)

/-! ## Barriers and convergence registers -/

/-- R174: an arrival raises the count; the one that completes the declared number makes it 0 and flips the phase.
R173-R175: with every lane of the wave there, BARA arrives as a release; BARW passes a barrier that was open before
the cycle (R175) as an acquire, and waits at one that was not; BARS arrives once and then does as BARW. R174, R175:
passing a barrier gives the wave the phase that the barrier had when its wait ended as its own and takes in what was
published in its scope; the bytes of memory stay. -/
def Obligations.Barriers : Prop :=
  (∀ (s : State) (b name : Nat),
      let n := (s.launch (s.gang (s.block b).gang).launch).kernel.sizeOf 3 name 1
      let v := s.bar b name
      (s.arrive b name).bar b name = if v.count + 1 = n then ⟨0, !v.phase⟩ else ⟨v.count + 1, v.phase⟩) ∧
  (∀ (s : State) (o : Ops), let k := s.iss.wave
      let name := o.s0.toNat
      let b := s.cur.block
      let released := s.release k (s.barScope b name)
      let arrived := (released.tellBar b name (released.wave k).known).arrive b name
      let was := (s.past [.m]).bar b name
      let q := s.cur.phases.get false name
      (∀ l ∈ s.seen.present, l ∈ s.issuing) →
      (s.ready (.bara o) = true → Completes (.bara o) s arrived []) ∧
      (s.ready (.barw o) = true →
        (was.phase ≠ q → Completes (.barw o) s (s.passPhase k name was.phase) []) ∧
        (was.phase = q → exec (.barw o) s = .next (s.hold s (.barrier name)))) ∧
      (s.ready (.bars o) = true →
        (was.phase ≠ q → (arrived.bar b name).phase ≠ q → Completes (.bars o) s (arrived.passBarrier k name) []) ∧
        (was.phase = q ∨ (arrived.bar b name).phase = q →
          exec (.bars o) s = .next (s.hold arrived (.barrier name))))) ∧
  (∀ (s : State) (k name : Nat), let t := s.passBarrier k name
      (t.wave k).phases.get false name = (s.wave k).flipped.getD (s.bar (s.wave k).block name).phase ∧ t.mem = s.mem ∧
      (∀ a, (s.wave k).view.get 0 a ≤ (t.wave k).view.get 0 a) ∧
      ∀ a, Tab.get 0 (s.pubBlk.get [] (s.wave k).block) a ≤ (t.wave k).view.get 0 a)

/-- R177, R178: with every lane of the wave there, CSIGN adds the wave's signature to the open epoch; the one that
completes the declared number closes it, posting the operation recorded; a wave that has signed waits. What lane
stores left unfenced in the operands the operation may not rely on (R229). R173: while a lane of the wave that had
not exited before the cycle is elsewhere, a whole-wave instruction waits. -/
def Obligations.EpochsAndWholeWaves : Prop :=
  (∀ (s : State) (o : Ops), s.ready (.csign o) = true → (∀ l ∈ s.seen.present, l ∈ s.issuing) →
      let k := s.iss.wave
      let b := s.cur.block
      let name := o.s0.toNat
      let c := s.conv b name
      let n := (s.kernelOf s.cur).sizeOf 4 name 1
      (k ∈ c.signed → exec (.csign o) s = .next (s.hold s (.epoch name))) ∧
      let mine := c.stale ++ s.staleBytes b (· == k)
      let shut := s.setConv b name .empty
      (k ∉ c.signed → c.count + 1 ≠ n → Completes (.csign o) s
        (s.setConv b name { c with count := c.count + 1, signed := c.signed ++ [k], stale := mine }) []) ∧
      (k ∉ c.signed → c.count + 1 = n → Completes (.csign o) s
        (match c.op with
         | some x => shut.setMat x { s.mat x with
             posted := some s.nextPost
             stale := mine ++ (((s.mat x).parts.map (·.block)).eraseDups).flatMap fun d =>
               shut.staleBytes d fun j => !(c.signed ++ [k]).contains j }
         | none => shut) [])) ∧
  (∀ (s : State) (i : Instr),
      (match i with
       | .bara _ | .barw _ | .bars _ | .csign _ => True
       | .rtt _ => s.cur.trapm = true
       | _ => False) →
      s.ready i = true → (∃ l ∈ s.seen.present, l ∉ s.issuing) →
      exec i s = .next (s.hold s (.members (maskOf s.seen.present))))

/-! ## Schedules -/

/-- R184-R186, R189: on a core whose gang does not drain, with no MOLT of the wave held, SNEXT of the schedule's rank
claims the tile grown from the first unclaimed cell of the traversal while the gang has a grant free: its cells
become claimed, the grant is recorded, the statistics count it, CR.INSTAR takes the instar, and status, origins and
extents leave for the names. At the grant limit it answers status 3, with every cell done status 1, and with every
remaining cell claimed by the gang itself status 2, all with zeros; otherwise it waits. From a cluster other than
its launch's home an operation brings one message of claim-order traffic (R375; log 83, DEDUCED). -/
def Obligations.SnextClaimsATile : Prop :=
  ∀ (s : State) (o : Ops), s.ready (.snext o) = true → s.cur.priv = false →
    let act := s.active (.snext o)
    let n := s.launchOf s.cur
    let g := s.gangOf s.cur
    let l := s.launch n
    let ws := l.sched
    let r := o.s2.toNat
    let found := findFrom (fun i => let v := s.cell l (cellIndex ws (visit ws i)); v == 0 || v == 2) (schCells ws) 0
    let answer (st : Nat) : Prop := Completes (.snext o) s
      ((s.snextWrite act o.dst.toNat (st * 2 ^ 62 :: List.replicate (2 * r) 0)).claimTraffic (s.clusterOf s.cur) n) []
    s.cur.molting = false → (s.gang g).preempt ≠ .draining → r = schRank ws →
    (∀ i e, found = some i → s.cell l (cellIndex ws (visit ws i)) = 0 → (s.gang g).grants.length < schLimit ws →
      s.form l (visit ws i) = .ok e →
      let lo := rectLo ws (visit ws i) e
      let gid := (s.gang g).grants.free
      let cs := rectCells ws lo e
      let t := cs.foldl (fun r c => r.setCell l c 1) s
      let t := t.setGang g { t.gang g with grants := (t.gang g).grants.put gid ⟨lo, e, [], schInstar ws⟩ }
      let t := t.setLaunch n { l with sched := addStat (addStat ws 12 1) 15 cs.length }
      let t := t.onWave s.iss.wave fun w => { w with instar := BitVec.ofNat 32 (schInstar ws) }
      Completes (.snext o) s ((t.snextWrite act o.dst.toNat
        ((0 * 2 ^ 62 + gid * 2 ^ 32 + schInstar ws % 2 ^ 32) ::
          ((List.range r).map fun d => lo.getD d 0 * schQ ws d) ++
          (List.range r).map fun d => min ((lo.getD d 0 + e.getD d 1) * schQ ws d) (schExt ws d) -
            lo.getD d 0 * schQ ws d)).claimTraffic (s.clusterOf s.cur) n) []) ∧
    (∀ i, found = some i → s.cell l (cellIndex ws (visit ws i)) = 0 → schLimit ws ≤ (s.gang g).grants.length →
      schWord ws 15 = s.gangClaims g → answer 3) ∧
    (found = none → schWord ws 13 = schCells ws → answer 1) ∧
    (found = none → schWord ws 13 ≠ schCells ws → schWord ws 15 = s.gangClaims g → answer 2) ∧
    (found = none → schWord ws 13 ≠ schCells ws → schWord ws 15 ≠ s.gangClaims g →
      exec (.snext o) s = .next (s.hold s .snext))

/-- R184, R191: on a core, with no MOLT of the wave held, SDONE and SGIVE complete where R191's checks pass: the grant
is open, the rectangle is aligned and inside it, none of its cells has been handed back and none is invalid. SDONE
settles the rectangle's cells as done, and SGIVE hands them back, with the claim-order traffic of log 83 (DEDUCED).
R191: settling reports the cells that stood claimed: with SDONE they are counted done, with SGIVE returned, and in
both cases no longer claimed; a grant whose cells are all settled closes. -/
def Obligations.SettledCells : Prop :=
  (∀ (s : State) (o : Ops), s.cur.priv = false → s.cur.molting = false →
      (s.ready (.sdone o) = true → settleTaken s (.sdone o) o →
        Completes (.sdone o) s ((s.settle (settleGrant s (.sdone o) o) (settleCells s (.sdone o) o) false).claimTraffic
          (s.clusterOf s.cur) (s.launchOf s.cur)) []) ∧
      (s.ready (.sgive o) = true → settleTaken s (.sgive o) o →
        Completes (.sgive o) s ((s.settle (settleGrant s (.sgive o) o) (settleCells s (.sgive o) o) true).claimTraffic
          (s.clusterOf s.cur) (s.launchOf s.cur)) [])) ∧
  (∀ (s : State) (gid : Nat) (cs : List Nat) (give : Bool),
      let n := s.launchOf s.cur
      let l := s.launch n
      let k := (cs.filter fun c => s.cell l c == 1).length
      ((s.settle gid cs give).launch n).sched =
        addStat (addStat l.sched (if give then 14 else 13) k) 15 (-(k : Int)) ∧
      ((s.settle gid cs give).gang (s.gangOf s.cur)).cd = (s.gang (s.gangOf s.cur)).cd + if give then 0 else k)

/-- R184, R188, R192-R194: with no MOLT of the wave held, SWR of a launch that its own may change writes a word 3 to 8
of the launch's shadow block, whole, reserved bits with it (the model's choice where R192 and R5 differ: log 64,
DEDUCED), with the claim-order traffic of log 83; SRD's word of the committed or the shadow block of a launch of its
process leaves for its name; MOLT holds its lane set, and where the shadow block is valid its performance commits it
and the lanes go on at the next instruction. Without the right MOLT traps, and while a MOLT of the wave is held the
schedule instructions wait. R193: the block that a MOLT commits holds the shadow's words 3 to 8, the committed
block's other words, and an instar one higher. -/
def Obligations.ScheduleRegisters : Prop :=
  (∀ (s : State) (o : Ops), let k := s.iss.wave
      (s.cur.molting = false →
        (s.ready (.swr o) = true → ∀ t, handleNames s (s.ru (s.active (.swr o)) o.s0.toNat) t → mayChange s t →
          3 ≤ o.s2.toNat → o.s2.toNat ≤ 8 →
          Completes (.swr o) s ((s.setLaunch t { s.launch t with
            shadow := (s.launch t).shadow.set o.s2.toNat (s.readUnif ((s.active (.swr o)).headD 0) o.s1.toNat) }).claimTraffic
            (s.clusterOf s.cur) t) []) ∧
        (s.ready (.srd o) = true → ∀ t, handleNames s (s.ru (s.active (.srd o)) o.s0.toNat) t → mayRead s t →
          Completes (.srd o) s (s.flyUnif (s.active (.srd o)) o.dst.toNat
            ((if bit o.s2.toNat 4 then (s.launch t).shadow else (s.launch t).sched).getD (bits o.s2.toNat 3 0) 0)) []) ∧
        (s.ready (.molt o) = true → let h := s.readUnif ((s.active (.molt o)).headD 0) o.s0.toNat
          let u := s.hold s (.molt h s.time)
          let l0 := s.issuing.headD 0
          (∀ t, handleNames s h.toNat t → mayChange s t → exec (.molt o) s = .next u ∧
            (s.cur.trapm = false → s.iss.later = [] → s.iss.stepped = [] → (∀ l ∈ s.issuing, (s.cur.lane l).pc = s.iss.pc) →
              s.moltRefused (s.launch t) = false → ∃ r, exec (.moltPerformed k) u = .next r ∧
                (r.launch t).sched = moltSched (s.launch t).sched (s.launch t).shadow ∧
                (r.launch t).shadow = moltSched (s.launch t).sched (s.launch t).shadow ∧ r.mem = s.mem ∧
                ∀ l ∈ s.issuing, ((r.wave k).lane l).wait = .none ∧
                  ((r.wave k).lane l).pc = nextPc s.iss.pc (u.wordsOfLane k l0 s.iss.pc).length)) ∧
          (s.schTarget h.toNat true = none →
            exec (.molt o) s = .next (s.trapTurn causeRight h ((s.active (.molt o)).headD 0))))) ∧
      ∀ i : Instr, (i = .snext o ∨ i = .sdone o ∨ i = .sgive o ∨ i = .swr o ∨ i = .molt o ∨ i = .srd o) →
        s.ready i = true → s.cur.molting = true → exec i s = .next (s.hold s .order)) ∧
  (∀ ws sh : List (BitVec 64), ws.length = 16 → schInstar ws < 2 ^ 64 - 1 →
      (moltSched ws sh).length = 16 ∧ schInstar (moltSched ws sh) = schInstar ws + 1 ∧
      (∀ i, 3 ≤ i → i ≤ 8 → (moltSched ws sh).getD i 0 = sh.getD i 0) ∧
      ∀ i, i < 3 ∨ i = 9 ∨ (11 ≤ i ∧ i < 16) → (moltSched ws sh).getD i 0 = ws.getD i 0)

/-! ## Engine commands -/

/-- R246, R250, R252: a copy command that the copy engine takes is in flight with its operands fixed, and its token is
due. R256: CPYC cancels the wave's copy with its token, if one is in flight; its token stays due, and a copy that
waits for a page ends at once. R289-R295: on a core, a palp command that is taken is in flight with its operands,
parameter block and tables as read at issue, and its token is due. R366-R370: COLL of a communicator of which its
block is a member, its checks passed, is in flight; it has the member's next number, its token is due, and its gang
has issued a COLL. -/
def Obligations.CommandsStartTheirOperations : Prop :=
  (∀ (s : State) (i : Instr) (kind : Nat) (e : CopyOps), copyKind i = some (kind, e) → s.ready i = true →
      (kind = 1 → s.cur.priv = false) → copyTaken s i kind e →
      Completes i s
        (({ s with nextOp := s.nextOp + 1 }.setCopy s.nextOp (copyOf s i kind e)).flyToken (s.active i) e.tok.toNat
          .copy s.nextOp) []) ∧
  (∀ (s : State) (e : CopyOps), s.ready (.cpyc e) = true →
      Completes (.cpyc e) s
        (match s.copies.find? fun p => p.2.wave == s.iss.wave && p.2.token == e.tok.toNat with
         | some (op, c) =>
           let t := (s.setCopy op { c with cancel := true }).flyToken (s.active (.cpyc e)) e.tok.toNat .copy op
           if c.parked.isSome then t.endCopy op c 1 0 c.rows else t
         | none => s) []) ∧
  (∀ (s : State) (i : Instr) (kind : Nat) (e : PalpOps), palpKind i = some (kind, e) → s.ready i = true →
      s.cur.priv = false → palpTaken s i kind e →
      Completes i s
        (({ s with nextOp := s.nextOp + 1 }.setPalp s.nextOp (palpOf s i kind e)).flyToken (s.active i) e.t.toNat
          .palp s.nextOp) []) ∧
  (∀ (s : State) (e : CollOps) (m : Comm), s.ready (.coll e) = true → collTaken s e m →
      let g := s.gangOf s.cur
      let t : State := { s with
        nextOp := s.nextOp + 1
        comms := s.comms.map fun (q : Comm) => if q = m then { q with issued := q.issued + 1 } else q }
      Completes (.coll e) s (((t.setGang g { t.gang g with coll := true }).setColl s.nextOp (collOf s e m)).flyToken
        (s.active (.coll e)) e.t.toNat .coll s.nextOp) [])

/-- R264-R267, R281: on a core, with every lane of the wave there, MMA and MMAG that can be recorded are, with their
operands fixed, and sign the epoch. -/
def Obligations.MatrixOperationsAreRecorded : Prop :=
  ∀ (s : State) (i : Instr) (ganged : Bool) (e : MmaOps), matrixForm i = some (ganged, e) → s.ready i = true →
    s.cur.priv = false → (∀ l ∈ s.seen.present, l ∈ s.issuing) → matrixTaken s i ganged e →
    Completes i s
      (({ s with nextOp := s.nextOp + 1 }.setMat s.nextOp (matrixOf s i ganged e)).sign s.iss.wave e.cv.toNat
        (some s.nextOp)) []

/-- R274, R275: ACCZ zeroes its tile; ACCTEST's summary of a tile leaves for its name, its bits undefined that depend on
an operation in flight or on undefined elements. Which bits those are is the model's reading (log 9, DEDUCED): under
an operation in flight all of them; with undefined elements, of LOSS, SPEC and the other low bits those that the
defined elements do not set; after a kill the tile's E, RC and EU. R276-R280: EPI writes its image of the tile,
element by element, undefined where the element is (R274); the writes are performed later, and watchpoints that it
hits are reported. A stage or conversion of EPI that comes to zero gives +0 in every rounding mode, which is the
model's choice (log 4, DEDUCED). R308, R309: TMERGE whose checks pass writes each head's merged record, or its
quotients. -/
def Obligations.TilesEpilogueAndMerge : Prop :=
  (∀ (s : State) (o : Ops), let b := s.cur.block
      (s.ready (.accz o) = true → Answers (.accz o) s fun t =>
        let x := (t.block b).tiles.get .zero o.dst.toNat
        x.elems = [] ∧ x.exp = none ∧ x.rc = 0 ∧ x.undefs = [] ∧ x.blur = false ∧ t.mem = s.mem ∧
          (∀ n, n ≠ o.dst.toNat → (t.block b).tiles.get .zero n = (s.block b).tiles.get .zero n) ∧
          ∀ l ∈ s.issuing, ((t.wave s.iss.wave).lane l).pc = s.iss.next) ∧
      (s.ready (.acctest o) = true →
        let v := (s.block b).tiles.get .zero o.s0.toNat
        let shown : AccTile := { v with elems := v.undefs.foldl (fun es i => es.del i) v.elems }
        Completes (.acctest o) s
          ((s.flyUnif (s.active (.acctest o)) o.dst.toNat shown.summary).blurUnif o.dst.toNat
            (if s.tileBusy b o.s0.toNat then BitVec.allOnes 64
             else (if v.undefs = [] then 0 else 15#64 &&& ~~~shown.summary) |||
               (if v.blur then 0xFFFF0000FFFF0010#64 else 0))) [])) ∧
  (∀ (s : State) (e : EpiOps), s.ready (.epi e) = true → epiTaken s (.epi e) e →
      let c := (epiCtl s (.epi e) e).toNat
      let cols := dimOf e.nc
      let wd := epiWidth e
      let start := 128 * bits c 63 48
      let t := (List.range (dimOf e.mc)).foldl (fun t r =>
        (List.range cols).foldl (fun t j => epiPut s (.epi e) e t r j) t) s
      Completes (.epi e) s ((t.access1 s.iss.wave 3 e.db.toNat).watchUnit s.iss.wave (s.active (.epi e))
        [⟨(scratchPtr e.vb.toNat (epiVector s (.epi e) e).1).toNat, (epiVector s (.epi e) e).2, false⟩,
         ⟨(scratchPtr e.db.toNat start).toNat, dimOf e.mc * (cols * wd), true⟩]) []) ∧
  (∀ (s : State) (o : Ops), s.ready (.tmerge o) = true → mergeTaken s o →
      let c := mergeCtl s o
      let h := bits c 23 20 + 1
      let b := s.cur.block
      let t := ((List.range h).map (mergeOut s o)).foldl (fun t w => t.writeScratch b o.dst.toNat w.1 w.2 none) s
      Completes (.tmerge o) s ((t.access1 s.iss.wave 3 o.dst.toNat).watchUnit s.iss.wave
        (s.active (.tmerge o))
        [⟨(scratchPtr o.s0.toNat (128 * bits c 47 32)).toNat, h * bits c 31 24 * mergeRec c, false⟩,
         ⟨(scratchPtr o.dst.toNat (128 * bits c 63 48)).toNat,
           h * (if bit c 0 then 4 * mergeDim c else mergeRec c), true⟩]) [])

/-! ## System -/

/-- R373: what control cores do not execute traps there with "privileged operation". R352, R353, R355: SYSC passes its
request and is held for the reply; CKPT is held for its image on a core, and on a control core, where the manual
states no value, every bit of its name is undefined (log 28); HALT ends at once where an event is signalled, is held
where none is, and traps on a core. R212, R354: on a control core, a TLBI drops the translations of its page, its
context or all, and completes once every earlier access to the pages that they led to is performed, until when it is
held; on a core it traps. -/
def Obligations.ControlCoresAndServices : Prop :=
  (∀ (s : State) (i : Instr),
      (match i with
       | .snext _ | .sdone _ | .sgive _ | .cpyx _ | .mma _ | .mmag _ | .nmsel _ | .nmtopk _ | .nmscore _
       | .nmassign _ | .nmattn _ => True
       | _ => False) →
      s.ready i = true → s.cur.priv = true →
      exec i s = .next (s.trapTurn causePriv 0 ((s.active i).headD 0))) ∧
  (∀ (s : State) (o : Ops), let k := s.iss.wave
      (s.ready (.sysc o) = true → exec (.sysc o) s = .next (s.hold
        ({ s with nextOp := s.nextOp + 1 }.onWave k fun w => { w with
          service := w.service ++ [(⟨s.iss.pc, s.issuing, s.readUnif ((s.active (.sysc o)).headD 0) o.s0.toNat,
            bits o.s2.toNat 9 0, s.nextOp⟩ : Call)] }) .sysc)) ∧
      (s.ready (.ckpt o) = true →
        (s.cur.priv = false → exec (.ckpt o) s = .next (s.hold s .ckpt)) ∧
        (s.cur.priv = true → Answers (.ckpt o) s fun t => ThreadResult (.ckpt o) s t
          (s.toNext (.ckpt o) fun _ a => a) fun w => { w.cancelUnif o.dst.toNat with
            unif := w.unif.put o.dst.toNat 0
            uvague := (w.uvague.del o.dst.toNat).put o.dst.toNat (BitVec.allOnes 64) })) ∧
      (s.ready (.halt o) = true →
        (∀ c, s.cur.control = some c →
          ((s.ctl c).event ≠ 0 → Answers (.halt o) s fun t =>
            ThreadResult (.halt o) s t (s.toNext (.halt o) fun _ a => a) id) ∧
          ((s.ctl c).event = 0 → exec (.halt o) s = .next (s.hold s .halt))) ∧
        (s.cur.control = none → exec (.halt o) s = .next (s.trapTurn causePriv 0 ((s.active (.halt o)).headD 0))))) ∧
  (∀ (s : State) (i : Instr) (p : TlbEntry → Bool),
      (match i with
       | .tlbiPage o => some fun (x : TlbEntry) =>
           x.ctx == s.ru (s.active i) o.s1.toNat % 2 ^ 16 &&
             s.ru (s.active i) o.s0.toNat / 2 ^ x.size == x.base / 2 ^ x.size
       | .tlbiCtx o => some fun (x : TlbEntry) => x.ctx == s.ru (s.active i) o.s1.toNat % 2 ^ 16
       | .tlbiAll _ => some fun _ => true
       | _ => none) = some p →
      s.ready i = true →
      (s.cur.priv = false → exec i s = .next (s.trapTurn causePriv 0 ((s.active i).headD 0))) ∧
      (s.cur.priv = true →
        let pages := (((s.tlb ++ s.tlb1).filter p).map fun x => (leafPa x.leaf.toNat, 2 ^ x.size)).eraseDups
        let t : State := { s with tlb := s.tlb.filter fun x => !p x, tlb1 := s.tlb1.filter fun x => !p x }
        (s.tlbiBusy pages s.time = false → Completes i s t []) ∧
        (s.tlbiBusy pages s.time = true → exec i s = .next (s.hold t (.tlbi pages s.time)))))

/-- R32-R35, R83, R347, R348, R374: CRR writes the register to its lane or uniform name; a control core's own registers
trap elsewhere. A CRR of CR.FFLAGS is held for the flags in flight when it issues, and then returns them. R32-R34,
R284, R332, R349: CRW sets CR.PART, CR.RMODE and CR.MMW where the value is legal and clears the bits written as 1 in
CR.FFLAGS, CR.MMERR and CR.ERRS; another register of a wave on a core traps. R374, R375: a control core's CRW of its
own registers sets CR.CTX, CR.PTROOT and CR.TIMER and clears CR.EVENT's bits. -/
def Obligations.ControlRegisters : Prop :=
  (∀ (s : State) (o : Ops), s.ready (.crr o) = true →
      let r := o.s0.toNat
      let act := s.active (.crr o)
      let held := s.issuing.findSome? fun l => match (s.cur.lane l).wait with
        | .flags v n => some (v, n)
        | _ => none
      let value (f : Nat → BitVec 64) : Prop :=
        (o.s2 = 0#16 → Answers (.crr o) s fun t => ThreadResult (.crr o) s t
          (s.toNext (.crr o) fun l a => { a with names := a.names.put o.dst.toNat (s.atWidth o.dst.toNat (f l).toNat) })
          fun w => w.cancelLane o.dst.toNat act) ∧
        (o.s2 ≠ 0#16 → Answers (.crr o) s fun t => ThreadResult (.crr o) s t (s.toNext (.crr o) fun _ a => a)
          fun w => { w.cancelUnif o.dst.toNat with
            uvague := w.uvague.del o.dst.toNat, unif := w.unif.put o.dst.toNat (f (act.headD 0)) })
      (0x100 ≤ r → s.cur.priv = false →
        exec (.crr o) s = .next (s.trapTurn causePriv (BitVec.ofNat 64 r) (act.headD 0))) ∧
      ((r < 0x100 ∨ s.cur.priv = true) → r ≠ 6 → value fun l => s.readCr l r) ∧
      (r = 6 → held = none → s.flagged = [] → value fun l => s.readCr l r) ∧
      (r = 6 → held = none → s.flagged ≠ [] →
        let v := s.flagged.foldl (fun a f => a ||| f.flags) s.flagsNow
        let n := (s.flagged.filter s.cur.flights.contains).length
        (n ≠ 0 → exec (.crr o) s = .next (s.hold s (.flags v n))) ∧ (n = 0 → value fun _ => v.setWidth 64)) ∧
      (r = 6 → ∀ v n, held = some (v, n + 1) → exec (.crr o) s = .next (s.hold s (.flags v (n + 1)))) ∧
      (r = 6 → ∀ v, held = some (v, 0) → value fun _ => v.setWidth 64)) ∧
  (∀ (s : State) (o : Ops), s.ready (.crw o) = true →
      let act := s.active (.crw o)
      let l := act.headD 0
      let v := if o.s2 = 0#16 then s.readLane l o.s0.toNat else s.readUnif l o.s0.toNat
      let writes (f : Wave → Wave) : Prop := Answers (.crw o) s fun t =>
        ThreadResult (.crw o) s t (s.toNext (.crw o) fun _ a => a) f
      (o.dst.toNat = 5 → partOk s.cur.width (bits v.toNat 6 0) = true →
        writes fun w => { w with part := bits v.toNat 6 0 }) ∧
      (o.dst.toNat = 6 → s.iss.raised = 0 → writes fun w => { w with fflags := w.fflags &&& ~~~ (v.setWidth 5) }) ∧
      (o.dst.toNat = 7 → writes fun w => { w with rmode := v.setWidth 2 }) ∧
      (o.dst.toNat = 8 → 16 ≤ bits v.toNat 6 0 → bits v.toNat 6 0 ≤ 112 → bits v.toNat 6 0 % 8 = 0 →
        writes fun w => { w with mmw := bits v.toNat 6 0 }) ∧
      (o.dst.toNat = 9 → writes fun w => { w with mmerr := w.mmerr &&& ~~~ (v &&& 0x00FF0FFFF8000003#64) }) ∧
      (o.dst.toNat = 10 → writes fun w => { w with errs := w.errs &&& ~~~ (v &&& 0x0000FFFFFFFF0F0F#64) }) ∧
      (s.cur.control = none → (o.dst.toNat < 5 ∨ 10 < o.dst.toNat) →
        exec (.crw o) s = .next (s.trapTurn (if 0x100 ≤ o.dst.toNat then causePriv else causeCtlWrite)
          (BitVec.ofNat 64 o.dst.toNat) l))) ∧
  (∀ (s : State) (o : Ops) (c : Nat), s.ready (.crw o) = true → s.cur.control = some c →
      let l := (s.active (.crw o)).headD 0
      let v := if o.s2 = 0#16 then s.readLane l o.s0.toNat else s.readUnif l o.s0.toNat
      let x := s.ctl c
      (o.dst.toNat = 0x100 → Completes (.crw o) s (s.setCtl c { x with ctx := v.setWidth 16 }) []) ∧
      (o.dst.toNat = 0x101 → Completes (.crw o) s
        (s.setCtl c { x with root := v &&& 0x00FFFFFFFFFFFF00#64 }) []) ∧
      (o.dst.toNat = 0x102 → Completes (.crw o) s
        (s.setCtl c { x with event := x.event &&& ~~~ (v.setWidth 5) }) []) ∧
      (o.dst.toNat = 0x103 → Completes (.crw o) s (s.setCtl c { x with timer := v, armed := true }) []))

/-- R350: TRAP and BRK raise their traps with their codes. R324, R325: on a core, a trap other than a step trap that can
be delivered, with no other pending and a handler that its wave is not in, enters the handler: each trapped lane's
CR.EPC is the trapping PC and its PC the handler's entry, CR.TRAPC and CR.TRAPA hold cause and address, the wave is
in trap mode, and but for the fault record no byte of memory, no other wave and no other lane's PC or CR.EPC
changes. R351: with every lane of the handler there, RTT ends trap mode and its lanes go on at their CR.EPC, or with
NEXT at the instruction after it; outside trap mode it traps. -/
def Obligations.TrapsAndReturns : Prop :=
  (∀ (s : State) (o : Ops),
      (s.ready (.trap o) = true →
        exec (.trap o) s = .next (s.trapTurn causeSoftware (o.s2.setWidth 64) ((s.active (.trap o)).headD 0))) ∧
      (s.ready (.brk o) = true →
        exec (.brk o) s = .next (s.trapTurn causeBreak (o.s2.setWidth 64) ((s.active (.brk o)).headD 0)))) ∧
  (∀ (s : State) (cause : Nat) (addr : BitVec 64) (lane : Nat),
      let k := s.iss.wave
      let l := s.launch (s.launchOf s.cur)
      let ring := l.ring + 256 * (l.records % 64)
      s.cur.control = none → s.iss.trapped = false → s.iss.stepped = [] → s.cur.pend = none →
      s.deliverable k ⟨cause, addr, lane, s.issuing, s.iss.pc, false⟩ = true → s.trapHalts k cause = false →
      cause ≠ causeStep → s.cur.flights = [] → s.mem.wf = true →
      let t := s.trapTurn cause addr lane
      (t.wave k).trapc = BitVec.ofNat 16 cause ∧ (t.wave k).trapa = addr ∧ (t.wave k).trapm = true ∧
      (t.wave k).handler = s.issuing ∧ (t.wave k).unif = s.cur.unif ∧
      (∀ x ∈ s.issuing, ((t.wave k).lane x).epc = s.iss.pc ∧ ((t.wave k).lane x).pc = (s.kernelOf s.cur).trap) ∧
      (∀ x, x ∉ s.issuing → ((t.wave k).lane x).epc = (s.cur.lane x).epc ∧
        ((t.wave k).lane x).pc = (s.cur.lane x).pc) ∧
      (∀ x, ((t.wave k).lane x).names = (s.cur.lane x).names ∧ ((t.wave k).lane x).depth = (s.cur.lane x).depth ∧
        ((t.wave k).lane x).preds = (s.cur.lane x).preds ∧ ((t.wave k).lane x).count = (s.cur.lane x).count) ∧
      (∀ j, j ≠ k → SameWave (s.wave j) (t.wave j)) ∧
      ∀ a, ¬ (ring ≤ a ∧ a < ring + 256) → t.mem.get a = s.mem.get a) ∧
  (∀ (s : State) (o : Ops), s.ready (.rtt o) = true →
      (s.cur.trapm = false → exec (.rtt o) s = .next (s.trapTurn causePriv 0 ((s.active (.rtt o)).headD 0))) ∧
      (s.cur.trapm = true → (∀ l ∈ s.seen.present, l ∈ s.issuing) →
        Completes (.rtt o) s (s.endTrapMode s.iss.wave)
          (s.issuing.map fun l => (l, let e := (s.cur.lane l).epc
            if bit o.s2.toNat 0 then nextPc e (wordsOf ((s.wordsAt s.iss.wave e).getD 0 0).toNat) else e))))

/-! ## Issue, arrivals and traps that wait -/

/-- R144, R146, R107, R237: with no lane set granted, once the core's new waves have acquired, an eligible wave of it,
whose first candidate needs no pipe that throttling withholds, lets ISSUE_GRANT grant: the wave that issues first is
it or one that it does not go before, and what it issues is a candidate of it that does not give up its opportunity.
LANE_SET_AGED grants likewise where the first candidate is aged and its wave goes before the core's others. Memory
and every thread's architectural state are as before. -/
def Obligations.GrantGoesToTheFirstWave : Prop :=
  let offered (r t : State) : Prop := let w := t.iss.wave
    ∃ d ∈ (r.wave w).ordered ((r.readySets w).filter fun c => !(r.wave w).resting c), t.iss.lanes = d.lanes
  (∀ (s : State) (core k : Nat) (c : Cand), s.iss.granted = false → let r := s.beginCore core
    Eligible r core k c → Answers (.issueGrant core) s fun t => t.iss.granted = true ∧
      (∃ p ∈ r.waves, p.1 = t.iss.wave ∧ r.coreOf p.2 = core) ∧ (t.iss.wave = k ∨ r.before k t.iss.wave = false) ∧
      offered r t ∧ t.mem = s.mem ∧ SameThreads s t) ∧
  ∀ (s : State) (core k : Nat) (c : Cand), s.iss.granted = false → s.beginCore core = s → Eligible s core k c →
    64 ≤ (s.wave k).passedOf ((s.wave k).setAt c.pc) →
    (∀ p ∈ s.waves, p.1 ≠ k → s.coreOf p.2 = core → s.before k p.1 = true) →
    Answers (.laneSetAged k c.pc) s fun t => t.iss.granted = true ∧ t.iss.wave = k ∧ offered s t ∧ t.mem = s.mem ∧
      SameThreads s t

/-- R28, R38, R44, R83, R106: a result in flight arrives: each of its lanes that has not exited holds its value, or the
uniform name holds it unless every lane of its issue has exited; its flags are contributed; nothing else of the
wave's registers, no other wave and no memory changes. -/
def Obligations.ResultsArrive : Prop :=
  ∀ (s : State) (k n : Nat) (f : Flight), (s.wave k).flights[n]? = some f → f.remote = none →
    (f.vals.map Prod.fst).Nodup →
    Answers (.longLatencyResultArrival k n) s fun t =>
      let w := s.wave k
      (t.wave k).fflags = w.fflags ||| f.flags ∧ (t.wave k).flights = w.flights.eraseIdx n ∧ t.mem = s.mem ∧
      (∀ j, j ≠ k → t.wave j = s.wave j) ∧ (∀ l, ((t.wave k).lane l).pc = (w.lane l).pc) ∧
      (f.uniform = false → (t.wave k).unif = w.unif ∧
        (∀ p ∈ f.vals, (w.lane p.1).exited = false → ((t.wave k).lane p.1).names =
          (w.lane p.1).names.put f.name (BitVec.ofNat 64 (p.2.toNat % 2 ^ s.laneWidth w f.name))) ∧
        ∀ l, (l ∉ f.vals.map Prod.fst ∨ (w.lane l).exited = true) →
          ((t.wave k).lane l).names = (w.lane l).names) ∧
      (f.uniform = true → (∀ l, ((t.wave k).lane l).names = (w.lane l).names) ∧
        ∀ p ps, f.vals = p :: ps → (t.wave k).unif =
          if (∀ l ∈ f.lanes, (w.lane l).exited = true) then w.unif else w.unif.put f.name p.2)

/-- R324, R158, R171, R176: a trap that waited is taken once it can be; a wave whose lanes can all only wait for
members, a block whose lanes all wait at transfer slots, and a barrier that no arrival can complete trap. -/
def Obligations.WaitsWithoutAnEndTrap : Prop :=
  ∀ s : State,
    (∀ (k : Nat) (x : Trap), (s.wave k).pend = some x → s.deliverable k x = true → s.iss.granted = false →
      exec (.trapDelivery k) s = .next (s.takeTrap k x)) ∧
    (∀ k : Nat, s.deadlocked k = true →
      ∃ pc w, (s.waits k).find? (fun x => x.2.isMembers) = some (pc, w) ∧
        let ls := (s.wave k).setAt pc
        exec (.memberWaitDeadlock k) s = .next (s.raiseTrap k ⟨causeDeadlock, w.mask, ls.headD 0, ls, pc, false⟩)) ∧
    (∀ b k : Nat, s.orphaned b = true → (s.wavesOf b).find? (fun k => !(s.wave k).retired) = some k →
      let ls := (s.wave k).lowest
      let pc := ((s.wave k).lane (ls.headD 0)).pc
      exec (.transferOrphaned b) s = .next (s.raiseTrap k
        ⟨causeTransfer, BitVec.ofNat 64 (s.waitOf k ls pc).slot, ls.headD 0, ls, pc, false⟩)) ∧
    ∀ b name : Nat, s.barOrphan b name = true →
      let k := (s.barWaves b name).headD 0
      let ls := (s.wave k).lowest
      exec (.barrierOrphaned b name) s = .next (s.raiseTrap k
        ⟨causeBarrier, BitVec.ofNat 64 name, ls.headD 0, ls, ((s.wave k).lane (ls.headD 0)).pc, false⟩)

/-- R174, R193, R323, R324, R352, R355: the end of a wait resumes the waiting lanes that no trap handler holds, with the
instruction's effect: a wave that no rebind has stopped passes a barrier whose phase is complete, or was seen
complete; a MOLT commits the shadow block, the instar raised by one, or traps where the block is not valid, changes
its gang size, its map does not lie on SYNC pages, or the instar is at its last; the executive's reply to the oldest
SYSC without one comes, all ones where no service has the number, and a reply that has come is delivered; a HALT
ends with an event. R19, R38: resuming gives each of the lanes the PC after its instruction, with the effect's own
changes; lanes elsewhere keep what the effect leaves them. -/
def Obligations.WaitsEnd : Prop :=
  (∀ (s : State) (k : Nat), s.iss.granted = false →
      (∀ b, (s.wave k).atBarrier = some b →
        ((s.wave k).flipped.isSome = true ∨ (s.bar (s.wave k).block b).phase ≠ (s.wave k).phases.get false b) →
        s.frozen k = false →
        exec (.barrierPass k) s = .next (s.resumeAt k ((s.wave k).due fun w => w == .barrier b)
          fun t => t.passBarrier k b)) ∧
      (∀ h since, let ls := (s.wave k).waiting Wait.isMolt
        let n := s.targetFor k h.toNat
        let l := s.launch n
        ls ≠ [] → ((s.wave k).lane (ls.headD 0)).wait = .molt h since → (∀ x ∈ ls, x ∈ (s.wave k).present) →
        let good := schOk l.shadow = true ∧ schGang l.shadow = schGang l.sched ∧ schInstar l.sched ≠ 2 ^ 32 - 1 ∧
          s.mapSynced l.ctx l.sched = true
        (good → exec (.moltPerformed k) s = .next ((s.claimTraffic (s.clusterOf (s.wave k)) n).resumeAt k ls fun t =>
          t.setLaunch n { l with sched := moltSched l.sched l.shadow, shadow := moltSched l.sched l.shadow })) ∧
        (¬ good → (s.wave k).pend = none → exec (.moltPerformed k) s = .next ((s.unhold k ls .none).raiseTrap k
          ⟨causeSchedule, h, ls.headD 0, ls, ((s.wave k).lane (ls.headD 0)).pc, false⟩))) ∧
      (∀ c rest v, s.replyReady k = none → (s.wave k).service = c :: rest → s.replies.has c.id = false →
        exec (.syscReply k v) s = .next (s.answer c.id (if 4 < c.num then 0xFFFFFFFFFFFFFFFF#64 else v))) ∧
      (∀ c v, s.replyReady k = some c → exec (.syscReply k v) s = .next (s.deliverReply k)) ∧
      ∀ c, (s.wave k).control = some c → (s.ctl c).event ≠ 0 →
        (s.wave k).due (fun x => x == .halt) ≠ [] →
        exec (.haltWake k) s = .next (s.resumeAt k ((s.wave k).due fun x => x == .halt) id)) ∧
  (∀ (s : State) (k : Nat) (ls : List Nat) (f : State → State), (s.wave k).single = false → ls ≠ [] →
      (∀ l ∈ ls, l ∈ (s.wave k).live) → (∀ t : State, (f t).iss = t.iss ∧ ((f t).wave k).single = (t.wave k).single ∧
        ∀ l, (((f t).wave k).lane l).exited = ((t.wave k).lane l).exited) →
      let pc := ((s.wave k).lane (ls.headD 0)).pc
      ∀ l ∈ ls, (((s.resumeAt k ls f).wave k).lane l).pc = nextPc pc (s.wordsOfLane k (ls.headD 0) pc).length)

/-- R213, R374, R375: a page that is waited for and not yet notified is notified once, to the scheduler core, whose
CR.EVENT shows it, and shows the message where a permit lets it arrive at once; the service writes the executive's
table words, which meet no frame of its own, and by which every stack page stays mapped as R22 says (log 25), and
its waiters re-execute, or the waiters' accesses are refused. -/
def Obligations.TranslationFaultsAreServed : Prop :=
  ∀ (s : State) (ctx : Nat) (va : BitVec 64), let page := va.toNat / 2 ^ 16
    ((ctx, page) ∈ s.faulting → (ctx, page) ∉ s.notices → Answers (.faultNotice ctx va) s fun t =>
      t.notices = s.notices ++ [(ctx, page)] ∧
        ((t.ctl s.sched).event ||| 1 = (s.ctl s.sched).event ||| 1 ||| 8) ∧
        ((∀ c, (s.clink c).upPermits ≠ 0) → (t.ctl s.sched).event = (s.ctl s.sched).event ||| 1 ||| 8) ∧
        t.waves = s.waves ∧ t.mem = s.mem) ∧
    (s.iss.granted = false → ∀ ts, ts.all s.tableWordOk = true →
      s.stacksKept (ts.foldl (fun r p => r.sysWrite p.1 (leBytes 8 p.2.toNat)) s) = true →
      Answers (.translationFaultService ctx va (.mapped ts)) s fun t =>
      t.notices = s.notices.filter (fun p => p != (ctx, page)) ∧
      t.mem = (ts.foldl (fun r p => r.sysWrite p.1 (leBytes 8 p.2.toNat)) s).mem ∧
      (∀ k l, s.ctxOf (s.wave k) = ctx → ¬ ((t.wave k).lane l).exited →
        ∀ a ∈ ((t.wave k).lane l).wait.parkedOn, l < (s.wave k).width → a.2 / 2 ^ 16 = page → False) ∧
      ∀ k l, ((t.wave k).lane l).arch = ((s.wave k).lane l).arch) ∧
    (s.iss.granted = false →
      exec (.translationFaultService ctx va .invalid) s = .next
        (let r := { s with notices := s.notices.filter fun p => p != (ctx, page) }
         let t := (r.refusePalps ctx page 1).refuse ctx page causeInvalid
         { t with agenda := (r.engineRefusals ctx page false).map (fun i => (0, i)) ++ t.agenda }) ∧
      exec (.translationFaultService ctx va .forbidden) s = .next
        (let r := { s with notices := s.notices.filter fun p => p != (ctx, page) }
         let t := (r.refusePalps ctx page 2).refuse ctx page causeProtection
         { t with agenda := (r.engineRefusals ctx page true).map (fun i => (0, i)) ++ t.agenda }))

/-! ## Placement, rebinding, the end of gangs -/

/-- R140, R141, R26: a gang that may be placed so is placed: it has one block for each share, its progress counters are
zero, and every wave of it has its lanes at the kernel's entry with call depth 0, an empty predicate stack and no
names, its uniform parameters, and its launch width; memory is as before but for the tables by which the executive
maps the stack regions (R22). -/
def Obligations.PlacementStartsTheGang : Prop :=
  ∀ (s : State) (g cluster c0 : Nat) (hs : List ShareSpec) (sb : BitVec 64),
    s.placeable g cluster c0 hs sb = true → (s.gang g).preempt ≠ .saved →
    Answers (.placeGang g cluster c0 hs sb) s fun t =>
      let q := t.gang g
      let l := s.launch (s.gang g).launch
      q.placed = true ∧ q.cluster = cluster ∧ q.c0 = c0 ∧ q.ir = 0 ∧ q.cy = 0 ∧ q.cd = 0 ∧ q.coll = false ∧
      q.blocks.length = hs.length ∧ t.mem = (s.mapStack g sb.toNat).mem ∧
      ∀ b ∈ q.blocks, (t.block b).sb = sb ∧ (t.block b).gang = g ∧ (t.block b).waves.length = l.kernel.waves ∧
        ∀ k ∈ (t.block b).waves, let w := t.wave k
          w.used = true ∧ w.width = l.kernel.width ∧ w.part = l.kernel.width ∧ w.fflags = 0 ∧ w.rmode = 0 ∧
          w.mmw = 48 ∧ w.trapm = false ∧ w.unif = (l.kernel.params.zip l.args).foldl (fun u p => Tab.put u p.1 p.2) [] ∧
          ∀ x < l.kernel.width, (w.lane x).pc = l.kernel.entry ∧ (w.lane x).depth = 0 ∧ (w.lane x).count = 0 ∧
            (w.lane x).names = [] ∧ (w.lane x).exited = false

/-- R314, R319, R323: a share change of a block, raised to the block's minimum, waits for its rebind; once every wave
concerned stands at a rebind point the rebind is carried out where the share has room, its waves' windows and counts
ended, and otherwise the change is dropped. R322, R319: a rebind changes no live value: a lane name, a uniform name
and home memory hold what they held, and no lane's PC moves; the block has its new share. -/
def Obligations.SharesAndRebinds : Prop :=
  (∀ (s : State) (b : Nat),
      (∀ h, let x := s.block b
        let q := s.gang x.gang
        let k := (s.launch q.launch).kernel
        x.used = true → x.ended = false → q.preempt ≠ .saving → q.preempt ≠ .saved →
        exec (.shareChange b h) s = .next (s.setBlock b { x with rebind := x.rebind ++
          [{ h with rows := max h.rows 8, unif := max h.unif 16, tiles := max h.tiles (min k.decl.acc 8)
                    kib := max h.kib (k.minKib (x.index == 0)) }] })) ∧
      ∀ h rest, (s.block b).rebind = h :: rest → (s.stopped b).all s.atPoint = true →
        exec (.rebind b) s = .next
          (let t := (s.stopped b).foldl (fun r k => r.settled k) s
           let t := t.setBlock b { t.block b with rebind := rest }
           if t.shareRoom b h then
             (t.rebindTo b h).divideFor (t.blockCtx (s.block b)) ((s.block b).core / 4) [(s.block b).share, h]
           else t)) ∧
  (∀ (s : State) (b : Nat) (h : ShareSpec), let t := s.rebindTo b h
      (t.block b).share = h ∧ t.mem = s.mem ∧
      ∀ k, (t.wave k).unif = (s.wave k).unif ∧ ∀ l, ((t.wave k).lane l).arch = ((s.wave k).lane l).arch)

/-- R142, R198, R375: a block whose waves have retired and whose operations are complete ends, its waves releasing at
.SYS; with its gang's last block the gang retires, its claims return and its resources go; a pre-emption request
that is no drain and still stands then is reported with action 0 (the model's choice, log 82); a retired gang is
reported once. -/
def Obligations.BlocksAndGangsEnd : Prop :=
  ∀ (s : State),
    (∀ b, s.blockOver b = true → (s.wavesOf b) = (s.block b).waves →
      let g := (s.block b).gang
      let r := ((s.block b).waves.foldl (fun r k => r.release k 3) s).passKnown g (s.block b).waves
      let e := r.setBlock b { r.block b with ended := true }
      ((e.gang g).blocks.all (fun b => (e.block b).ended) = false → exec (.blockEnd b) s = .next e) ∧
      ((e.gang g).blocks.all (fun b => (e.block b).ended) = true → Answers (.blockEnd b) s fun t =>
        (t.gang g).retired = true ∧ (t.gang g).blocks = [] ∧ (t.gang g).grants = [] ∧
          ((s.gang g).preempt ∈ [Preempt.asked, .discarding, .saving] → (t.gang g).preempt = .none ∧
            ∃ x ∈ t.reports, x.gang = g ∧ x.action = 0) ∧
          ∀ k ∈ (e.gang g).blocks.flatMap e.wavesOf, t.waves.has k = false)) ∧
    ∀ g, (s.gang g).used = true → (s.gang g).retired = true → (s.gang g).placed = true →
      exec (.gangRetired g) s = .next
        ((s.setGang g { s.gang g with placed := false }).sendUp (s.gang g).cluster (.gangRetired g))

/-! ## Engines, memory and links -/

/-- R224, R227, R228: an access that is performed is outstanding no more; a CFLUSH's line leaves the cluster's vault
cache. A line that leaves takes its dirty bytes home, and no other byte of memory changes. -/
def Obligations.AccessesAndLinesArePerformed : Prop :=
  (∀ (s : State) (k : Nat) (a : Access), s.access[k]? = some a → Answers (.accessPerformed k) s fun t =>
    t.access = s.access.eraseIdx k ∧ (a.kind ≠ 0 → t.mem = s.mem ∧ t.vlines = s.vlines) ∧
    (a.kind = 0 → ∀ v ∈ t.vlines, ¬ (v.cluster = s.clusterOf (s.wave a.wave) ∧ v.line = a.addr / 128)) ∧
    SameThreads s t) ∧
  ∀ (s : State) (cluster line : Nat) (v : VLine),
    s.vlines.find? (fun x => x.cluster == cluster && x.line == line) = some v → s.mem.wf = true →
    Answers (.vaultCacheWriteback cluster line) s fun t =>
      (let shown (v : VLine) := (v.ctx, v.cluster, v.line, v.bytes, v.dirty)
       t.vlines.map shown = (s.vlines.filter fun x => !(x.cluster == cluster && x.line == line)).map shown) ∧
      (∀ x ∈ v.dirty, t.mem.get (128 * line + x) = v.bytes.get 0 x) ∧
      ∀ a, (∀ x ∈ v.dirty, a ≠ 128 * line + x) → t.mem.get a = s.mem.get a

/-- R250, R251, R253, R256-R258, R365, R390: a copy whose rows can all be moved ends complete; one that meets a page
that faults waits for it at its row and goes on once it is mapped, or ends refused with it; one that meets a device
without a route waits 2 ms for it; a cancelled one ends after some row that it has begun, and without waiting for a
page. Rows that it has moved may hit watchpoints. An element between equal formats is moved unchanged. A copy that
ends is gone, and its token holds its word. -/
def Obligations.CopiesMoveAndEnd : Prop :=
  (∀ (s : State) (k : Nat), s.copies.has k = true → let c := s.copy k
    (c.parked = none → c.away = none → c.cancel = false →
      ∀ t d e, s.copyRows c c.rows (c.total - c.rows) = (t, d, e) → let q := t.moved k c.rows d
        (e = none → exec (.copyCompletion k) s = .next (q.1.endCopy k q.2 0 0 c.total)) ∧
        (∀ va, e = some (.fault va) → exec (.copyCompletion k) s = .next (q.1.holdCopy k q.2 va)) ∧
        (∀ err va, e = some (.refused err va) →
          exec (.copyCompletion k) s = .next ((q.1.touched q.2.wave va).endCopy k q.2 2 err q.2.rows)) ∧
        ∀ dev, e = some (.lost dev) →
          exec (.copyCompletion k) s = .next (q.1.setCopy k { q.2 with away := some (dev, q.1.time) })) ∧
    (∀ dev since, c.parked = none → c.away = some (dev, since) → c.cancel = false → s.time < since + 4500000 →
      exec (.copyCompletion k) s = .next s) ∧
    (c.parked = none → c.away = none → c.cancel = true → let m := c.rows + s.choose (tagMisc k) (c.total - c.rows + 1)
      ∀ t d e, s.copyRows c c.rows (m - c.rows) = (t, d, e) → let q := t.moved k c.rows d
        (e = none → exec (.copyCompletion k) s = .next (q.1.endCopy k q.2 (if m < c.total then 1 else 0) 0 m)) ∧
        ∀ va, e = some (.fault va) → exec (.copyCompletion k) s = .next (q.1.endCopy k q.2 1 0 q.2.rows)) ∧
    ∀ va, c.parked = some va →
      ((∀ a, s.engineTouch c.wave (c.kind == 2) va ≠ .fault a) →
        s.resumesNow (s.coreOf (s.wave c.wave)) c.wave c.held va = true →
        exec (.copyFaultResume k) s = .next (s.setCopy k { c with parked := none, held := false })) ∧
      ∀ prot, exec (.copyRefusal k prot) s = .next (s.endCopy k c 2 (if prot then 2 else 1) c.rows)) ∧
  (∀ (s : State) (c : CopyOp) (q x va pa leaf : Nat), s.engineTouch c.wave (c.kind == 2) va = .ok pa leaf →
    scratchFmt c.entry c.ctl = tdFmt c.entry →
    let wd := elemSize (tdFmt c.entry)
    let off := 128 * bits c.ctl.toNat 47 32 + imageOff (tdPlain c.entry) (rowBytes c.entry c.ctl) wd q x
    let u := s.touched c.wave va
    (c.kind ≠ 2 → ∀ v, u.engineRead c.gone c.wave pa leaf wd = .ok v → ∃ d, s.copyElem c q x va =
      .ok (u.writeScratch c.block c.buf off (leBytes wd v.1) none) d) ∧
    (c.kind = 2 → ∃ d, s.copyElem c q x va = .ok (u.engineWrite c.wave pa leaf
      (leBytes wd (ofLe ((List.range wd).map fun i => u.scratchEngine c.stale c.block c.buf (off + i))))).1 d)) ∧
  ∀ (s : State) (k : Nat) (c : CopyOp) (st err m : Nat), let t := s.endCopy k c st err m
    t.copies.has k = false ∧ t.mem = s.mem ∧
    (tokenDue s c.wave .copy k → (t.wave c.wave).unif.get 0 c.token = c.tokenWord st err m)

/-- R266, R268, R271, R281-R283, R365: an integration step of a part whose tile has E set makes of the tile what the
dot-product rule gives and counts; one whose streamed page faults waits for it, and goes on once it is mapped or
refused, which CR.MMERR shows; one whose operand lies on a device without a route waits for it. An operation with
all steps performed is complete, and arrives at its barrier. -/
def Obligations.MatrixOperationsProceed : Prop :=
  (∀ (s : State) (k part : Nat) (p : MatPart) (e : Int), s.partReady k part = true →
    (s.mat k).parts[part]? = some p →
    let m := s.mat k
    let x := (s.block p.block).tiles.get .zero m.ops.tl.toNat
    m.away = none → x.exp = some e →
    (∀ d, s.badNames = [] → s.matRead m p.block [p.steps] = .ok d →
      Answers (.matrixIntegrationStep k part) s fun t =>
        let y := (t.block p.block).tiles.get .zero m.ops.tl.toNat
        let z := integrate x e (m.beside x (m.cells.map fun c => (c, m.groupAt d 0 c.1 c.2)))
        y.elems = z.elems ∧ y.exp = z.exp ∧ y.rc = z.rc ∧ t.mem = s.mem ∧
          (t.mat k).parts[part]? = some { p with steps := p.steps + 1 }) ∧
    (∀ va, s.matRead m p.block [p.steps] = .error (.fault va) → Answers (.matrixIntegrationStep k part) s fun t =>
      (t.mat k).parts[part]? = some { p with parked := some va, held := s.entryFree (s.block p.block).core } ∧
        t.blocks = s.blocks ∧ t.mem = s.mem) ∧
    ∀ dev, s.matRead m p.block [p.steps] = .error (.lost dev) → exec (.matrixIntegrationStep k part) s = .next
      (s.setMat k { m with away := some (dev, s.time) })) ∧
  (∀ (s : State) (k part : Nat) (p : MatPart) (va : Nat), (s.mat k).parts[part]? = some p → p.parked = some va →
    ((∀ a, s.engineTouch (s.mat k).wave false va ≠ .fault a) →
      s.resumesNow (s.block p.block).core (s.mat k).wave p.held va = true → Answers (.matrixFaultReplay k part) s fun t =>
      (t.mat k).parts[part]? = some { p with parked := none, held := false } ∧ t.blocks = s.blocks ∧ t.mem = s.mem) ∧
    ∀ v : BitVec 64, va / 2 ^ 16 = v.toNat / 2 ^ 16 → Answers (.streamedPageRefusal k part v) s fun t =>
      (t.mat k).parts[part]? = some { p with parked := none, held := false } ∧
      (t.mat k).refused = (s.mat k).refused ++ [va / 2 ^ 16] ∧
      ((s.wave (s.mat k).wave).retired = false →
        (t.wave (s.mat k).wave).mmerr = mmerrPage (s.wave (s.mat k).wave).mmerr)) ∧
  ∀ (s : State) (k : Nat) (p : MatPart), s.mats.has k = true → (s.mat k).posted.isSome = true →
    (s.mat k).complete = false → (s.mat k).parts = [p] → mmaK (s.mat k).ops / 16 ≤ p.steps →
    Answers (.matrixOperationCompletion k) s fun t =>
      let br := (s.mat k).ops.br.toNat
      let v := s.bar p.block br
      let n := (s.launch (s.gang (s.block p.block).gang).launch).kernel.sizeOf 3 br 1
      (t.mat k).complete = true ∧ t.mem = s.mem ∧
      t.bar p.block br = if v.count + 1 = n then ⟨0, !v.phase⟩ else ⟨v.count + 1, v.phase⟩

/-- R293-R295, R303, R306, R333: a palp command's parts read what they can and nothing twice; what stands first in data
order against them ends the command where it is an error, and otherwise its faulting parts wait for their pages and
go on once one is mapped and no waiter of a page serviced earlier goes before. With its reads made it computes; an
error ends it; otherwise it writes a cluster table, then its results to its result buffer or to global memory, and
ends done. A command that ends is gone, and its token holds its word. -/
def Obligations.PalpCommandsEnd : Prop :=
  (∀ (s : State) (k : Nat), s.palps.has k = true → let p := s.palp k
    let r := s.palpReads k p
    let faults := (r.1.palpBars r.2).filterMap fun b => match b with
      | .fault va => some va
      | .err _ => none
    (p.parked.any (fun va => s.palpFreed p va && s.resumesNow (s.coreOf (s.wave p.wave)) p.wave (p.held != 0) va) = true →
      (r.1.palpBars r.2 = [] →
        exec (.palpPartResume k) s = .next (r.1.setPalp k { r.2 with parked := [], held := 0 })) ∧
      (∀ e, (r.1.palpBars r.2).head? = some (.err e) →
        exec (.palpPartResume k) s = .next (r.1.endPalp k r.2 2 e 0 [])) ∧
      ∀ va, (r.1.palpBars r.2).head? = some (.fault va) →
        exec (.palpPartResume k) s = .next (r.1.holdPalp k r.2 faults)) ∧
    (p.parked = [] → s.assignWaits p = false →
      (p.tooFar = true → exec (.palpCompletion k) s = .next (s.endPalp k p 2 4 0 [])) ∧
      (p.tooFar = false →
        (∀ e, (r.1.palpBars r.2).head? = some (.err e) →
          exec (.palpCompletion k) s = .next (r.1.endPalp k r.2 2 e 0 [])) ∧
        (∀ va, (r.1.palpBars r.2).head? = some (.fault va) →
          exec (.palpCompletion k) s = .next (r.1.holdPalp k r.2 faults)) ∧
        (r.1.palpBars r.2 = [] → r.1.watching r.2.wave = false →
          let u := if r.2.kind = 3 then r.1.nearTouched r.2.wave (word64 r.2.par 3) else r.1
          let x := u.runPalp r.2
          let q := { r.2 with bad := joinKnown r.2.bad x.1 }
          (∀ e, x.2 = .error (.err e) → exec (.palpCompletion k) s = .next (u.endPalp k q 2 e 0 [])) ∧
          (∀ va, x.2 = .error (.fault va) → exec (.palpCompletion k) s = .next (u.holdPalp k q [va])) ∧
          ∀ d, x.2 = .ok d →
            let here (w : Nat × Nat × List Byte) : Nat × Nat := (w.1, w.2.2.length)
            let base := 128 * bits q.ctl.toNat 31 16
            (bit q.ctl.toNat 62 = false → let t := u.tableWrites q.wave d.table
              exec (.palpCompletion k) s = .next
                ((((d.writes.foldl (fun (u : State) w => u.writeScratch q.block q.buf (base + w.1) w.2 none)
                  t.1).unmarkScratchAll q.block q.buf (d.writes.map fun w => (base + w.1, w.2.length))).unmarkAll
                  (d.table.map here)).endPalp k q 0 0 d.count t.2)) ∧
            (bit q.ctl.toNat 62 = true →
              (∀ e, u.palpPlaces q d.writes = .error (.err e) →
                exec (.palpCompletion k) s = .next (u.endPalp k q 2 e 0 [])) ∧
              (∀ va, u.palpPlaces q d.writes = .error (.fault va) →
                exec (.palpCompletion k) s = .next (u.holdPalp k q [va])) ∧
              ∀ ps, u.palpPlaces q d.writes = .ok ps →
                let v := (d.writes.map fun w => word64 q.par 4 + w.1).foldl (fun v va => v.nearTouched q.wave va) u
                let t := v.tableWrites q.wave d.table
                let g := t.1.palpWrites q.wave ps
                exec (.palpCompletion k) s = .next ((g.1.unmarkAll ((d.table ++ ps).map here)).endPalp k q 0 0 d.count
                  (mergeView t.2 g.2))))))) ∧
  (∀ (s : State) (k : Nat) (p : PalpOp) (vas : List Nat), let t := s.holdPalp k p vas
    (t.palp k).parked = (vas.map fun va => va / 2 ^ 16 * 2 ^ 16).eraseDups ∧ (t.palp k).got = p.got ∧
    t.waves = s.waves ∧ t.mem = s.mem) ∧
  ∀ (s : State) (k : Nat) (p : PalpOp) (st err count : Nat) (ws : Tab Nat),
    let t := s.endPalp k p st err count ws
    t.palps.has k = false ∧ t.mem = s.mem ∧
    (tokenDue s p.wave .palp k → (t.wave p.wave).unif.get 0 p.token =
      BitVec.ofNat 64 (st * 2 ^ 62 + min 255 p.bad.length * 2 ^ 48 + err * 2 ^ 40 + count % 2 ^ 32))

/-- R361, R362, R368-R371: a COLL captures its source once; another member's command is kept when it first arrives; with
every member's command there, all alike, the result of its rank is written to the destination and the COLL ends
done; with commands that differ, or with a member that cannot be reached and has sent none, it ends with that error.
A COLL that ends is gone, and its token holds its word. How many flits, each with a SEQ, bring a message, 24 bytes
of header and its data at 28 a flit, is the model's choice, as R361 gives no payload (log 29, DESIGN CHOICE). -/
def Obligations.CollsCaptureAndEnd : Prop :=
  (∀ (s : State) (k : Nat), s.colls.has k = true → let o := s.collOp k
    (o.src = none → Answers (.collCapture k) s fun t =>
      let p := ((s.memberOf o).map fun c => c.members.length).getD 1
      (t.collOp k).src = some ((List.range (collSrcLen o.op p o.n * (fmtWidth (collFmt o.ctl.toNat) / 8))).map fun i =>
        s.scratchEngine o.stale o.block o.sbuf (collSofs o.ctl.toNat + i)) ∧
      t.mem = s.mem ∧ t.waves = s.waves ∧ t.blocks = s.blocks) ∧
    ((∀ m, s.memberOf o = some m → s.matched o m.rank m.members.length = none) →
      exec (.collMemberUnreachable k) s = .next (s.endColl k 2 1 0)) ∧
    ∀ m src ms, s.memberOf o = some m → o.src = some src → s.matched o m.rank m.members.length = some ms →
      let c := o.ctl.toNat
      let same (x : CollMsg) : Prop :=
        x.cmd.op.toNat = o.op ∧ x.cmd.rop = collRop c ∧ x.cmd.fmt.toNat = collFmt c ∧ x.cmd.n = o.n
      ((∃ x ∈ ms, ¬ same x) → exec (.collCompletion k) s = .next (s.endColl k 2 2 0)) ∧
      ((∀ x ∈ ms, same x) → o.dbuf ≠ o.sbuf →
        let ys := collResult o.op (collRop c) (collFmt c) o.n m.rank ((List.range m.members.length).map fun r =>
          if r = m.rank then src else ((ms.find? fun x => x.rank == r).map fun x => x.cmd.data).getD [])
        let len := ys.length * (fmtWidth (collFmt c) / 8)
        exec (.collCompletion k) s = .next (((((s.writeScratch o.block o.dbuf (collDofs c)
          (ys.flatMap fun y => leBytes (fmtWidth (collFmt c) / 8) y) none).collHits o k
          [⟨(scratchPtr o.dbuf (collDofs c)).toNat, len, true⟩]).1).unmarkScratch o.block o.dbuf (collDofs c)
          len).endColl k 0 0 ys.length))) ∧
  (∀ (s : State) (link handle rank seq : Nat) (cmd : CollCmd), link < 18 → (s.glink link).training = false →
    Answers (.collectiveMessage link handle rank seq cmd) s fun t =>
      let n := BitVec.ofNat 8 (flitsOf (24 + cmd.data.length))
      (t.glink link).expect = (s.glink link).expect + n ∧
      (t.glink link).control = some (controlFlit 1 ((s.glink link).expect + n - 1)) ∧
      t.collBox = if ∃ m ∈ s.collBox, m.handle = handle ∧ m.rank = rank ∧ m.seq = seq then s.collBox
        else s.collBox ++ [⟨handle, rank, seq, cmd, s.farTold fun _ => true⟩]) ∧
  ∀ (s : State) (k st err count : Nat), let o := s.collOp k
    let t := s.endColl k st err count
    t.colls.has k = false ∧ t.mem = s.mem ∧
    (tokenDue s o.wave .coll k → (t.wave o.wave).unif.get 0 o.token =
      BitVec.ofNat 64 (st * 2 ^ 62 + o.se * 2 ^ 48 + err * 2 ^ 40 + count % 2 ^ 32))

/-! ## Pre-emption -/

/-- R334, R335, R340: a request for a placed gang stands with its deadline and allowance, waiting while a rebind or a
checkpoint is under way and otherwise deciding at once; a second one makes the deadline the earlier and the
allowance the common part, by which what has not become a save is decided anew (log 56); one for an unplaced gang is
reported at once with action 0. A report leaves for the scheduler, once, or waits for a permit of its link. R336,
R337: a discard whose waves stand at rebind points takes the gang off the machine, its operations, claims and images
dropped, its memory standing but for the tables that map its stack, to be placed afresh; a drain whose gang retired
is reported; one that is not over by its deadline turns into a save. -/
def Obligations.PreemptionRequestsAndEnds : Prop :=
  ((∀ (s : State) (g d : Nat) (allow : BitVec 3), (s.gang g).used = true → d < 2 ^ 32 → let q := s.gang g
      let decided (r : Gang) : Prop :=
        (s.requestWaits g = true → r.preempt = .asked) ∧
        (s.requestWaits g = false → r.preempt ∈ [Preempt.draining, .discarding, .saving] ∧
          (bit r.allow.toNat 0 = false → r.preempt ≠ .draining) ∧
          (bit r.allow.toNat 1 = false ∨ q.coll = true → r.preempt ≠ .discarding))
      ((q.placed = false ∨ q.retired = true ∧ q.preempt = .none) → exec (.preemptionRequest g d allow) s = .next
        { s with reports := s.reports ++ [⟨g, 0, 0, 0, false⟩] }) ∧
      (q.placed = true → (q.preempt = .none → q.retired = false) → Answers (.preemptionRequest g d allow) s fun t =>
        let r := t.gang g
        (q.preempt = .none → r.arrived = s.time ∧ r.due = s.time + d ∧ r.allow = allow ∧ decided r) ∧
        (q.preempt ≠ .none → r.arrived = q.arrived ∧ r.due = min q.due (s.time + d) ∧ r.allow = q.allow &&& allow ∧
          (q.preempt = .saving ∨ q.retired = true → r.preempt = q.preempt) ∧
          (q.preempt ≠ .saving → q.retired = false → decided r)) ∧
        t.waves = s.waves ∧ t.blocks = s.blocks ∧ t.mem = s.mem)) ∧
    ∀ (s : State) (g : Nat) (r : Report), s.reports.find? (fun r => r.gang == g) = some r →
      Answers (.preemptionReport g) s fun t => let c := (s.gang g).cluster
        t.reports = s.reports.erase r ∧ (∃ ws,
          ((s.clink c).upPermits ≠ 0 → (t.clink c).up = (s.clink c).up ++ [.preemptReport ws]) ∧
          ((s.clink c).upPermits = 0 → (t.clink c).up = (s.clink c).up ∧
            (t.clink c).upHeld = (s.clink c).upHeld ++ [.preemptReport ws]) ∧
          ws.getD 0 0 = BitVec.ofNat 64 (4 * r.late.toNat + r.action) ∧ ws.getD 1 0 = BitVec.ofNat 64 r.cycles ∧
          ws.getD 2 0 = r.image) ∧ t.waves = s.waves ∧ t.mem = s.mem) ∧
  ((∀ (s : State) (g : Nat), (s.gang g).preempt = .discarding → s.gangAtPoint g = true →
      Answers (.discard g) s fun t => let q := t.gang g
        q.placed = false ∧ q.preempt = .none ∧ q.blocks = [] ∧ q.grants = [] ∧ q.retired = (s.gang g).retired ∧
        (∀ b ∈ (s.gang g).blocks, t.blocks.has b = false ∧ (∀ k ∈ s.wavesOf b, t.waves.has k = false) ∧
          ∀ p ∈ t.copies, p.2.block ≠ b) ∧
        q.seq = 0 ∧ q.base = 0 ∧ (∀ i ∈ t.images, i.key ≠ g) ∧
        (∃ r ∈ t.reports, r.gang = g ∧ r.action = 2) ∧
        ((s.gang g).grants = [] → t.mem = (s.unmapStack g).mem)) ∧
    ∀ (s : State) (g : Nat) (a : BitVec 64), (s.gang g).preempt = .draining →
      ((s.gang g).retired = true → Answers (.drainEnd g a) s fun t => (t.gang g).preempt = .none ∧
        (∃ r ∈ t.reports, r.gang = g ∧ r.action = 1) ∧ t.waves = s.waves ∧ t.mem = s.mem) ∧
      ((s.gang g).retired = false → (s.gang g).grants = [] → s.drainQuiet g = true →
        exec (.drainEnd g a) s = .next (s.saveGang g false a)) ∧
      ((s.gang g).retired = false → ((s.gang g).grants ≠ [] ∨ s.drainQuiet g = false) → (s.gang g).due ≤ s.time →
        exec (.drainEnd g a) s = .next (s.setGang g { s.gang g with preempt := .saving })))

/-- R338, R341, R342, R353: a save whose gang is quiet writes its image, at a place aligned to 128 bytes where it meets
nothing of the executive's (log 25), the first of a gang a full one, each with the next sequence number, and takes
the gang off the machine, to be restored; a checkpoint writes its image likewise and the gang stays. R344: a saved
gang whose chain of images does not verify is not placed, and its launch fails; one whose chain does, with room for
its shares and its operations, is placed there with its blocks and waves as the image holds them: names, PCs, stacks
and registers. -/
def Obligations.ImagesAreWrittenAndRestored : Prop :=
  ((∀ (s : State) (g : Nat) (full : Bool) (a : BitVec 64), (s.gang g).preempt = .saving → s.gangQuiet g = true →
      s.imageFits a.toNat ((s.still g).nextImage g ((s.gang g).saveKind full)).length = true → Answers (.save g full a) s fun t =>
        (t.gang g).placed = false ∧ (t.gang g).preempt = .saved ∧ (t.gang g).blocks = [] ∧
        (∃ i, t.images = s.images ++ [i] ∧ i.addr = a.toNat ∧ i.key = g ∧ i.seq = (s.gang g).seq + 1 ∧
          (full = true ∨ (s.gang g).base = 0 → i.kind = 0 ∧ i.base = 0) ∧
          (full = false → (s.gang g).base ≠ 0 → i.kind = 1 ∧ i.base = (s.gang g).base.toNat) ∧
          (t.gang g).seq = i.seq ∧ (t.gang g).base = a) ∧
        ∃ r ∈ t.reports, r.gang = g ∧ r.action = 3 ∧ r.image = a) ∧
    ∀ (s : State) (g : Nat) (a : BitVec 64), s.checkpointing g = true → s.gangQuiet g = true →
      s.iss.granted = false → s.imageFits a.toNat ((s.still g).nextImage g 2).length = true →
      Answers (.checkpointImage g a) s fun t =>
        (t.gang g).placed = (s.gang g).placed ∧ (t.gang g).blocks = (s.gang g).blocks ∧
        (t.gang g).seq = (s.gang g).seq + 1 ∧
        ∃ i, t.images = s.images ++ [i] ∧ i.addr = a.toNat ∧ i.key = g ∧ i.kind = 2 ∧ i.seq = (s.gang g).seq + 1) ∧
  (∀ (s : State) (g c c0 : Nat) (a : BitVec 64) (hs : List ShareSpec), (s.gang g).preempt = .saved →
      (s.chainOk g (s.images.length + 1) a.toNat = false → exec (.restore g a c c0 hs) s = .next
        (let n := (s.gang g).launch
         { (s.setLaunch n { s.launch n with status := 4 }) with agenda := (0, .endLaunch n) :: s.agenda })) ∧
      ∀ i, s.chainOk g (s.images.length + 1) a.toNat = true → s.imageAt g a.toNat = some i →
        s.placeable g c c0 hs i.sb = true → s.engineRoom i c c0 = true → (i.waves.map Prod.fst).Nodup →
        (i.gang.halted = true → (s.gang g).halted = true) →
        Answers (.restore g a c c0 hs) s fun t =>
          (t.gang g).placed = true ∧ (t.gang g).cluster = c ∧ (t.gang g).c0 = c0 ∧ (t.gang g).preempt = .none ∧
          (t.gang g).blocks = i.blocks.map Prod.fst ∧ t.mem = s.mem ∧
          ∀ p ∈ i.waves, (t.wave p.1).unif = p.2.unif ∧ ∀ l, ((t.wave p.1).lane l).arch = (p.2.lane l).arch)

/-! ## The command set -/

/-- R381, R382: the doorbell of a queue's window, of the 8,191 there are, makes the value its WIDX, and entries are
accepted from then on, no wave concerned but the scheduler's; an index out of range changes nothing but the
scheduler core's CR.EVENT. A device producer's doorbell, by service 0, of a queue of its own process replies 0, of
another all ones. R377-R379, R382: an entry that passes the checks is accepted: RIDX rises, and a LAUNCH receives
the next launch id, which LASTID shows; one that fails a check halts its queue, with a signal record. -/
def Obligations.DoorbellsAndAcceptance : Prop :=
  ((∀ (s : State) (w : Nat) (v : BitVec 64), 8191 < w → exec (.hostDoorbell w v) s = .next s) ∧
    (∀ (s : State) (w qid : Nat) (v : BitVec 64) (q : Queue), w ≤ 8191 →
      s.queues.find? (fun p => p.2.used && p.2.state != 2 && p.2.window == w) = some (qid, q) →
      ((v.toNat < q.ridx ∨ q.ridx + 2 ^ q.log2n < v.toNat) →
        exec (.hostDoorbell w v) s = .next (s.signalEvent s.sched 2)) ∧
      (q.ridx ≤ v.toNat → v.toNat ≤ q.ridx + 2 ^ q.log2n → s.queue qid = q → Answers (.hostDoorbell w v) s fun t =>
        let r := t.queue qid
        r.widx = v.toNat ∧ (∃ n, r.ridx = q.ridx + n ∧ r.packets.length = q.packets.length + n) ∧
          (qid ≠ 0 → q.closing = false → r.state = 0 → r.ridx = v.toNat) ∧
          ∀ k, k ≠ (s.ctl s.sched).wave → SameWave (s.wave k) (t.wave k))) ∧
    ∀ (s : State) (k : Nat) (c : Call), s.openCall k = some c → c.num = 0 → s.iss.granted = false →
      let q := s.queue c.arg.toNat
      let pid := (s.launch (s.launchOf (s.wave k))).pid
      ((q.used = false ∨ q.state = 2 ∨ q.pid ≠ pid ∨ c.arg = 0) →
        exec (.queueDoorbell k) s = .next (s.replySysc k allOnes)) ∧
      (q.used = true → q.state ≠ 2 → q.pid = pid → c.arg ≠ 0 → exec (.queueDoorbell k) s = .next
        (((s.signalEvent s.sched 2).ringBell c.arg.toNat (s.ctxWord q.ctx (q.desc + 16))).replySysc k 0))) ∧
  (∀ (s : State) (qid : Nat) (ws : List (BitVec 64)), let q := s.queue qid
      s.ctxWords q.ctx (q.base + 64 * (q.ridx % 2 ^ q.log2n)) 8 = some ws → let t := s.acceptOne qid
      (s.packetError q ws = none → (t.queue qid).ridx = q.ridx + 1 ∧ (t.queue qid).state = q.state ∧
        (∃ p, (t.queue qid).packets = q.packets ++ [p] ∧ p.words = ws ∧ p.started = false ∧ p.done = false ∧
          (pkType ws = 1 → ∃ n, p.launch = some n ∧ (t.launch n).id = s.nextId ∧ (t.launch n).ended = false ∧
            (t.launch n).count = pkArg ws ∧ (t.launch n).pid = q.pid)) ∧
        (pkType ws = 1 → t.nextId = s.nextId + 1 ∧ (t.queue qid).lastid = s.nextId) ∧
        (pkType ws ≠ 1 → t.nextId = s.nextId ∧ (t.queue qid).lastid = q.lastid)) ∧
      ∀ r, s.packetError q ws = some r → (t.queue qid).state = 1 ∧ (t.queue qid).ridx = q.ridx ∧
        (t.queue qid).packets = q.packets ∧ (t.queue qid).sigidx = q.sigidx + 1)

/-- R237, R378, R385: in its turn, with no WAIT holding its queue, a LAUNCH begins with its gangs created, as many as it
asks for; a WAIT completes once the word at its address has reached its value and otherwise holds its queue; a
SIGNAL's value and a MARKER's time and value reach memory, and they complete; a packet that completes with INT
raises its queue's vector. -/
def Obligations.PacketsStartAndComplete : Prop :=
  ∀ (s : State) (qid i : Nat) (p : Packet64), let q := s.queue qid
    (q.nextPacket = some (i, p) → q.packets[i]? = some p →
      (∀ n, p.launch = some n → (s.launch n).ended = false → Answers (.launch qid) s fun t =>
        (t.launch n).guarded = true ∧
        (t.launch n).gangs.length = (s.launch n).gangs.length + (s.launch n).count ∧
        ∃ x, (t.queue qid).packets[i]? = some x ∧ x.started = true ∧ x.done = p.done ∧ x.words = p.words) ∧
      (pkType p.words = 2 → Answers (.wait qid) s fun t => t.mem = s.mem ∧
        ∃ x, (t.queue qid).packets[i]? = some x ∧ x.started = true ∧ x.done = (p.done || s.waitMet q p)) ∧
      (pkType p.words = 3 →
        let ls := (q.packets.take i).filterMap fun x => x.launch.map s.launch
        let r := s.publishLaunch (ls.foldl (fun v l => mergeView v l.view) [])
        let ns := ls.foldl (fun ns l => joinKnown ns l.known) (joinKnown r.2 q.known)
        exec (.signal qid) s = .next
          ((r.1.signalWrite q.ctx (schWord p.words 1) (schWord p.words 2) ns).completePacket qid i)) ∧
      (pkType p.words = 4 → exec (.marker qid) s = .next ((s.ctxWrite q.ctx (schWord p.words 1)
        (leBytes 8 (s.coreTime (256 + s.sched)) ++ leBytes 8 (schWord p.words 2))).completePacket qid i))) ∧
    (∀ x, q.packets[i]? = some x → ∃ y, ((s.completePacket qid i).queue qid).packets[i]? = some y ∧ y.done = true ∧
      (s.completePacket qid i).mem = s.mem ∧ (pkInt x.words = false → (s.completePacket qid i).msi = s.msi) ∧
      (pkInt x.words = true → q.vector < 2048 → s.masks.get true q.vector = false →
        (s.completePacket qid i).msi = s.msi ++ [q.vector])) ∧
    (q.waiting = some (i, p) → q.packets[i]? = some p → Answers (.waitPoll qid) s fun t => t.mem = s.mem ∧
      ∃ x, (t.queue qid).packets[i]? = some x ∧ x.started = true ∧ x.done = s.waitMet q p)

/-- R183, R198, R199, R378, R380, R388: a launch whose gangs have all retired ends, publishing its writes; its status is
what it failed with, else 2 where it granted a tile and a cell is not done, else 1; its packet is done, and a status
other than 1 leaves a signal record. A launch told to end has its gangs ended where they stand, with status 3 unless
it has another, once no MOLT of theirs is held (R199). -/
def Obligations.LaunchesEnd : Prop :=
  ∀ (s : State) (n : Nat), let l := s.launch n
    (s.launchOver n = true → Answers (.launchEnd n) s fun t => let r := t.launch n
      r.ended = true ∧ r.guarded = false ∧
      (l.status ≠ 0 → r.status = l.status) ∧
      (l.status = 0 → schWord l.sched 12 ≠ 0 → (∃ c < schCells l.sched, s.cell l c ≠ 3) → r.status = 2) ∧
      (l.status = 0 → (schWord l.sched 12 = 0 ∨ ∀ c < schCells l.sched, s.cell l c = 3) → r.status = 1) ∧
      (∀ (p : Packet64) (i : Nat), (s.queue l.queue).packets[i]? = some p → p.launch = some n →
        (∀ (j : Nat) (x : Packet64), (s.queue l.queue).packets[j]? = some x → x.launch = some n → j = i) →
        (∃ x : Packet64, (t.queue l.queue).packets[i]? = some x ∧ x.done = true) ∧
        (t.queue l.queue).sigidx = (s.queue l.queue).sigidx + if r.status = 1 then 0 else 1) ∧
      ((∀ a, s.pubSys.get 0 a ≤ s.stamp ∧ l.view.get 0 a ≤ s.stamp) → ∀ a, frameOf a ∉ s.loose →
        l.view.get 0 a ≤ t.pubSys.get 0 a) ∧
      ∀ g ∈ l.gangs, t.gangs.has g = false) ∧
    (l.used = true → l.ended = false → s.launchMolts l = true → exec (.endLaunch n) s = .next
      { s with agenda := (s.time + 1, .endLaunch n) :: s.agenda }) ∧
    (l.used = true → l.ended = false → s.iss.granted = false → s.launchMolts l = false → Answers (.endLaunch n) s fun t =>
      (t.launch n).status = (if l.status = 0 then 3 else l.status) ∧
      ∀ g ∈ l.gangs, (t.gang g).retired = true ∧
        ((s.gang g).retired = false → (t.gang g).placed = false ∧ (t.gang g).blocks = [] ∧
          ∀ b ∈ (s.gang g).blocks, t.blocks.has b = false))

/-- R325, R329, R350, R375, R376, R380, R384: a halted gang's records, the oldest first, reach its process as signals of
KIND 2; a halted wave or gang goes on when the debugger says so, lane sets halted at a BRK too; a link's oldest
message leaves its inbox, its permit returns or lets a message that waits for one follow, an order to a leaf
controller is carried out next, and lane sets held for a permit look again; the heartbeat keeps the standby, and its
absence for 100 µs makes it the scheduler, which CR.EVENT shows. R374, R375: an armed timer that its core's CR.TIME
reaches sets CR.EVENT's bit 2, once; a write of CR.CLSEND where its link has a permit sends the 64 bytes it names,
with one permit less. -/
def Obligations.MessagesAndTimers : Prop :=
  ((∀ (s : State) (n g : Nat), let l := s.launch n
      l.gangs.find? (fun g => !(s.gang g).record.isEmpty) = some g →
      Answers (.faultRecordWritten n) s fun t =>
        (t.gang g).record = (s.gang g).record.tail ∧ (t.gang g).halted = (s.gang g).halted ∧
        (t.queue l.queue).sigidx = (s.queue l.queue).sigidx + 1 ∧ SameWaves s t) ∧
    (∀ (s : State) (g k : Nat), s.iss.granted = false → s.gangOf (s.wave k) = g → Answers (.debuggerResume g (some k)) s fun t =>
      (t.wave k).stopped = false ∧ (∀ j, j ≠ k → t.wave j = s.wave j) ∧ t.gangs = s.gangs ∧ SameThreads s t) ∧
    (∀ (s : State) (g : Nat), s.iss.granted = false → Answers (.debuggerResume g none) s fun t =>
      (t.gang g).halted = false ∧ (t.gang g).record = (s.gang g).record ∧
      ∀ k, (s.wave k).single = false →
        (k ∈ s.gangWaves g → (t.wave k).stopped = false ∧ ((s.wave k).trapm = false →
          ∀ l ∈ (s.wave k).live, ((s.wave k).lane l).wait = .brk → ((t.wave k).lane l).wait = .none)) ∧
        ∀ l, ((s.wave k).lane l).wait ≠ .brk → ((t.wave k).lane l).arch = ((s.wave k).lane l).arch) ∧
    (∀ (s : State) (c : Nat) (m : LinkMsg) (ms : List LinkMsg), let x := s.clink c
      (x.up = m :: ms → Answers (.commandLinkMessage c true) s fun t => let y := t.clink c
        (x.upHeld = [] → y.up = ms ∧ y.upPermits = x.upPermits + 1 ∧ y.upHeld = []) ∧
        (∀ h hs, x.upHeld = h :: hs → y.up = ms ++ [h] ∧ y.upPermits = x.upPermits ∧ y.upHeld = hs) ∧
        y.down = x.down ∧ y.downPermits = x.downPermits ∧ t.waves = s.waves ∧
        ∀ ws, m = .preemptReport ws → t.ring = s.ring ++ [ws]) ∧
      (x.down = m :: ms → Answers (.commandLinkMessage c false) s fun t => let y := t.clink c
        (x.downHeld = [] → y.down = ms ∧ y.downPermits = x.downPermits + 1 ∧ y.downHeld = []) ∧
        (∀ h hs, x.downHeld = h :: hs → y.down = ms ++ [h] ∧ y.downPermits = x.downPermits ∧ y.downHeld = hs) ∧
        y.up = x.up ∧ y.upPermits = x.upPermits ∧ (∀ i, m = .order i → t.orders = s.orders ++ [i]) ∧
        SameThreads s t ∧ ∀ k, ∀ l ∈ (s.wave k).live, ((t.wave k).lane l).wait ≠ .clsend)) ∧
    ∀ s : State, s.sched = 0 → exec .heartbeat s = .next { s with beat := s.time } ∧
      (s.beat + 225000 ≤ s.time → Answers .schedulerTakeover s fun t => t.sched = 8 ∧
        (t.ctl 8).event = (s.ctl 8).event ||| 16 ∧ t.queues = s.queues ∧ t.waves = s.waves ∧ t.gangs = s.gangs)) ∧
  (∀ (s : State) (c : Nat),
      ((s.ctl c).armed = true → (s.ctl c).timer.toNat ≤ s.coreTime (256 + c) → exec (.timerExpiry c) s = .next
        (s.setCtl c { s.ctl c with armed := false, event := (s.ctl c).event ||| 4 })) ∧
      ∀ (v : BitVec 64) (bs : List Byte), let n := bits v.toNat 63 56
        n < 64 → (s.clink n).downPermits ≠ 0 → s.messageBytes (s.ctl c).wave v = some bs → exec (.clsend c v) s = .next
          (s.setClink n { s.clink n with
            down := (s.clink n).down ++ [.raw bs], downPermits := (s.clink n).downPermits - 1 }))

/-! ## The executive -/

/-- R381, R352: a wave's oldest SYSC of service 1 receives the bytes that storage gives, as many as it asks for, and
their count; of service 2 the count that storage took, at most as many; of service 3 its line of 256 bytes enters
the debugger's log. R383: a request block that a wave passes by service 4, or the next of the host's ring, is taken
as a request of its process, malformed ones ended with status 2, the host's once no earlier one of the host is open;
an unaligned or unmapped block of a wave is answered 2. An unload's object takes no launches any more (R404). A
request that ends is open no more, and the host is told by vector 0. Whose a wave's request is follows its launch
(log 36); a queue that is not running, or a communicator with a COLL in flight, is answered 1, not 2 (log 18). R379,
R382, R384: a queue is created over memory that its process owns, running and empty, and its descriptor, at an
aligned address on a page at which the process had nothing (log 25), is the result; a queue of the process is
destroyed once its packets are done, and accepts nothing in the meantime; a halted one restarts, past the entry it
halted at if asked. What R384 does not allow is refused. R366, R384: a communicator is created with its ranks here
once every member of this device has requested it, the requests agree in list, P and key, those of other devices
with them, and the executives have settled a handle that is free; it is destroyed when a member asks while no COLL
of it is in flight. Requests that do not agree end together, and so do all of them 1 s after the first. Which
requests are for one communicator, those with one list or one key, is the model's reading (log 84). -/
def Obligations.ServicesAndRequests : Prop :=
  (∀ (s : State) (k : Nat) (c : Call), s.openCall k = some c → s.iss.granted = false →
      let ctx := s.ctxOf (s.wave k)
      (c.num = 1 → ∀ (bs : List Byte), (∀ ws, s.ctxWords ctx c.arg.toNat 4 = some ws →
          exec (.storageRead k bs) s = .next ((s.ctxWrite ctx (schWord ws 3) (bs.take (schWord ws 2))).replySysc k
            (BitVec.ofNat 64 (min (schWord ws 2) bs.length)))) ∧
        (s.ctxWords ctx c.arg.toNat 4 = none → exec (.storageRead k bs) s = .next (s.replySysc k 0))) ∧
      (c.num = 2 → ∀ n, (∀ ws, s.ctxWords ctx c.arg.toNat 4 = some ws →
          exec (.storageWrite k n) s = .next (s.replySysc k (BitVec.ofNat 64 (min n (schWord ws 2))))) ∧
        (s.ctxWords ctx c.arg.toNat 4 = none → exec (.storageWrite k n) s = .next (s.replySysc k 0))) ∧
      (c.num = 3 → ∀ line, s.ctxRead ctx c.arg.toNat 256 = some line → exec (.debuggerLog k) s = .next
        ({ s with log := s.log ++ [line] }.replySysc k 0))) ∧
  ((∀ (s : State) (k : Nat) (c : Call), s.openCall k = some c → c.num = 4 →
      s.iss.granted = false → (∀ p ∈ s.reqs, p.2.call ≠ c.id) →
      let ctx := s.ctxOf (s.wave k)
      let pid := (s.launch (s.launchOf (s.wave k))).pid
      (∀ ws, c.arg.toNat % 64 = 0 → s.ctxWords ctx c.arg.toNat 8 = some ws →
        let t := { s with nextOp := s.nextOp + 1, reqs := s.reqs.put s.nextOp ⟨.wave k, c.arg.toNat, ctx, pid, ws, s.time, c.id⟩ }
        (requestBad false ws = false → exec (.executiveRequest (.wave k)) s = .next (t.shutObject pid ws)) ∧
        (requestBad false ws = true → exec (.executiveRequest (.wave k)) s = .next (t.endRequest s.nextOp 2 0))) ∧
      ((c.arg.toNat % 64 ≠ 0 ∨ s.ctxWords ctx c.arg.toNat 8 = none) →
        exec (.executiveRequest (.wave k)) s = .next (s.replySysc k 2))) ∧
    (∀ (s : State) (ws : List (BitVec 64)), let q := s.queue 0
      s.iss.granted = false → q.used = true → q.ridx < q.widx →
      s.ctxWords physCtx (q.base + 64 * (q.ridx % 2 ^ q.log2n)) 8 = some ws →
      (requestBad true ws = false → Answers (.executiveRequest .host) s fun t => (t.queue 0).ridx = q.ridx + 1 ∧
        t.reqs = s.reqs.put s.nextOp ⟨.host, q.base + 64 * (q.ridx % 2 ^ q.log2n), physCtx, bits (schWord ws 7) 31 0,
          ws, s.time, 0⟩) ∧
      (requestBad true ws = true → (∀ p ∈ s.reqs, p.2.src ≠ .host) → Answers (.executiveRequest .host) s fun t =>
        (t.queue 0).ridx = q.ridx + 1 ∧ t.reqs = s.reqs.del s.nextOp)) ∧
    ∀ (s : State) (k st res : Nat), requestDone s (s.endRequest k st res) k ∧
      (noneBad s → (s.req k).src = .host → s.masks.get true 0 = false → (s.endRequest k st res).msi = s.msi ++ [0])) ∧
  ((∀ (s : State) (k : Nat) (desc : BitVec 64) (w ctx : Nat), served s k 1 → hasContext s (s.req k) ctx →
      let r := s.req k
      let good := r.arg 0 % 4096 = 0 ∧ 4 ≤ r.arg 1 ∧ r.arg 1 ≤ 16 ∧ (r.arg 2 < 2048 ∨ r.arg 2 = 0xFFFF) ∧
        r.arg 3 % 64 = 0 ∧ r.arg 4 ≤ 1
      let owned := s.owns ctx (r.arg 0) (64 * 2 ^ r.arg 1) = true ∧ s.owns ctx (r.arg 3) 2048 = true
      let taken (w : Nat) : Prop := ∃ p ∈ s.queues, p.2.used = true ∧ p.2.state ≠ 2 ∧ p.2.window = w
      (¬ good → exec (.createQueue k desc w) s = .next (s.endRequest k 2 0)) ∧
      (good → ¬ owned → exec (.createQueue k desc w) s = .next (s.endRequest k 1 0)) ∧
      (good → owned → r.arg 4 = 1 → (∀ i < 8191, taken (i + 1)) →
        exec (.createQueue k desc w) s = .next (s.endRequest k 3 0)) ∧
      (good → owned → (r.arg 4 = 0 ∨ (1 ≤ w ∧ w ≤ 8191 ∧ ¬ taken w)) → desc.toNat % 64 = 0 →
        s.pageFree ctx desc.toNat = true → Answers (.createQueue k desc w) s fun t => requestDone s t k ∧
        ∃ qid, s.nextOp ≤ qid ∧ let q := t.queue qid
        q.used = true ∧ q.state = 0 ∧ q.widx = 0 ∧ q.ridx = 0 ∧ q.base = r.arg 0 ∧ q.log2n = r.arg 1 ∧
        q.vector = r.arg 2 ∧ q.sigring = r.arg 3 ∧ q.pid = r.pid ∧ q.desc = desc.toNat ∧
        (r.arg 4 = 1 → q.window = w))) ∧
    (∀ (s : State) (k : Nat), served s k 2 → let r := s.req k
      let q := s.queue (r.arg 0)
      (s.ownsQueue r.pid (r.arg 0) = false → exec (.destroyQueue k) s = .next (s.endRequest k 1 0)) ∧
      (s.ownsQueue r.pid (r.arg 0) = true → Answers (.destroyQueue k) s fun t =>
        (t.queue (r.arg 0)).closing = true ∧
        ((∀ p ∈ q.packets, p.done = true) → (t.queue (r.arg 0)).state = 2 ∧ requestDone s t k) ∧
        ((∃ p ∈ q.packets, p.done = false) → (t.queue (r.arg 0)).state = q.state ∧ t.reqs = s.reqs))) ∧
    ∀ (s : State) (k : Nat), served s k 3 → let r := s.req k
      let q := s.queue (r.arg 0)
      (1 < r.arg 1 → exec (.restartQueue k) s = .next (s.endRequest k 2 0)) ∧
      (r.arg 1 ≤ 1 → (s.ownsQueue r.pid (r.arg 0) = false ∨ q.state ≠ 1) →
        exec (.restartQueue k) s = .next (s.endRequest k 1 0)) ∧
      (r.arg 1 ≤ 1 → s.ownsQueue r.pid (r.arg 0) = true → q.state = 1 → Answers (.restartQueue k) s fun t =>
        requestDone s t k ∧ ((t.queue (r.arg 0)).state = 0 → q.closing = false → q.ridx + r.arg 1 ≤ q.widx →
          (t.queue (r.arg 0)).ridx = q.widx) ∧ q.ridx + r.arg 1 ≤ (t.queue (r.arg 0)).ridx)) ∧
  ((∀ (s : State) (k h : Nat) (agree : Bool), served s k 6 → let r := s.req k
      let ps := s.askers r
      (s.askedList r = none → exec (.createCommunicator k h agree) s = .next (s.endRequest k 2 0)) ∧
      (∀ ms, s.askedList r = some ms →
        let alike := ∀ p ∈ ps, p.2.arg 2 = r.arg 2 ∧ s.askedList p.2 = some ms
        let waits := (∃ c ∈ s.comms, c.handle = BitVec.ofNat 64 h) ∨
          ∃ i < ms.length, memberHere (ms.getD i (0, 0)) = true ∧ ∀ q ∈ s.ranksOf ps ms, q.1 ≠ i
        (s.ranksFor r ms = [] → exec (.createCommunicator k h agree) s = .next (s.endRequest k 1 0)) ∧
        (s.ranksFor r ms ≠ [] → (agree = false ∨ ¬ alike) →
          exec (.createCommunicator k h agree) s = .next (s.endAll ps 2 0)) ∧
        (s.ranksFor r ms ≠ [] → agree = true → alike →
          (waits → exec (.createCommunicator k h agree) s = .next s) ∧
          (¬ waits → Answers (.createCommunicator k h agree) s fun t => (∀ p ∈ ps, t.reqs.has p.1 = false) ∧
            t.comms = s.comms ++ (s.ranksOf ps ms).map fun q => commOf (BitVec.ofNat 64 h) (r.arg 2) ms q.1 q.2))) ∧
      ((∃ p ∈ ps, 2250000000 ≤ s.time - p.2.since) → exec (.communicatorTimeout k) s = .next (s.endAll ps 4 0)) ∧
      ((∀ p ∈ ps, s.time - p.2.since < 2250000000) → exec (.communicatorTimeout k) s = .next s)) ∧
    ∀ (s : State) (k : Nat), served s k 7 → let h := BitVec.ofNat 64 ((s.req k).arg 0)
      ((∀ c ∈ s.comms, ¬ (c.handle = h ∧ s.speaksOf (s.req k) c = true)) ∨ (∃ p ∈ s.colls, p.2.handle = h) →
        exec (.destroyCommunicator k) s = .next (s.endRequest k 1 0)) ∧
      ((∃ c ∈ s.comms, c.handle = h ∧ s.speaksOf (s.req k) c = true) → (∀ p ∈ s.colls, p.2.handle ≠ h) →
        Answers (.destroyCommunicator k) s fun t =>
          t.comms = s.comms.filter (fun c => c.handle != h) ∧ requestDone s t k))

/-- R384, R388-R390: requests of a process with the debug right on a launch that runs: a watchpoint is set in its slot
or cleared, a debugger attached where the launch permits one and the process holds the debug privilege (who does is
left open: log 81), a halted gang or wave told to go on, stepping switched for halted waves; without the right they
end with status 1, with bad fields with status 2. END_LAUNCH's own request fails the launch with status 5. R331,
R384: of a block of a halted gang or with a stepped wave, a debugger reads the view, as much as its buffer takes,
and writes a declared name of any class (log 19): a lane name in the lanes of its mask, or a uniform name, in every
wave, where it is live (a dead name's place is written for what stands there), a barrier's count and phase, a
convergence register's count. R390, R380: a hit of an operation on a watchpoint of its launch, which its access has
noted, is reported once: one record more in the launch's fault ring, one signal more in its queue's ring; no thread
and no operation changes. -/
def Obligations.DebuggersAndViews : Prop :=
  (∀ (s : State) (k : Nat), let r := s.req k
      (∀ kind i, served s k kind →
        (kind = 8 ∧ i = .setWatchpoint k ∨ kind = 9 ∧ i = .clearWatchpoint k ∨ kind = 11 ∧ i = .resume k ∨
          kind = 12 ∧ i = .setOrClearStep k ∨ kind = 13 ∧ i = .readView k ∨ kind = 14 ∧ i = .writeName k) →
        s.debugged r = none → exec i s = .next (s.endRequest k 1 0)) ∧
      (∀ n, served s k 8 → s.debugged r = some n →
        let good := r.arg 1 ≤ 3 ∧ 1 ≤ r.arg 4 ∧ r.arg 4 ≤ 3 ∧ (∃ j < 28, r.arg 3 = 2 ^ (3 + j)) ∧ r.arg 2 % r.arg 3 = 0
        (good → Answers (.setWatchpoint k) s fun t => requestDone s t k ∧
          (t.launch n).watches = ((s.launch n).watches.filter fun w => w.slot != r.arg 1) ++
            [⟨r.arg 1, r.arg 2, r.arg 3, bit (r.arg 4) 0, bit (r.arg 4) 1⟩]) ∧
        (¬ good → exec (.setWatchpoint k) s = .next (s.endRequest k 2 0))) ∧
      (∀ n, served s k 9 → s.debugged r = some n → r.arg 1 ≤ 3 → Answers (.clearWatchpoint k) s fun t =>
        requestDone s t k ∧ (t.launch n).watches = (s.launch n).watches.filter fun w => w.slot != r.arg 1) ∧
      (∀ n, served s k 10 → s.launchById (r.arg 0) = some n →
        ((s.launch n).dbg = true → Config.debugPrivilege r.pid = true → Answers (.attach k) s fun t =>
          requestDone s t k ∧ r.pid ∈ (t.launch n).debuggers) ∧
        ((s.launch n).dbg = false ∨ Config.debugPrivilege r.pid = false → exec (.attach k) s = .next (s.endRequest k 1 0))) ∧
      (∀ n g, served s k 11 → s.debugged r = some n → s.gangByIndex n (r.arg 1) = some g →
        (r.arg 2 = 2 ^ 64 - 1 → ((s.gang g).halted = true ∨ ∃ j ∈ s.gangWaves g, (s.wave j).stopped = true) →
          Answers (.resume k) s fun t => requestDone s t k ∧ ∃ a, t.agenda = (0, .debuggerResume g none) :: a) ∧
        ∀ j, r.arg 2 ≠ 2 ^ 64 - 1 → s.waveByArg g (r.arg 2) = some j → (s.wave j).stopped = true →
          Answers (.resume k) s fun t =>
            requestDone s t k ∧ ∃ a, t.agenda = (0, .debuggerResume g (some j)) :: a) ∧
      (∀ n g j, served s k 12 → s.debugged r = some n → s.gangByIndex n (r.arg 1) = some g →
        r.arg 2 ≠ 2 ^ 64 - 1 → s.waveByArg g (r.arg 2) = some j → s.waveHalted j = true → r.arg 3 ≤ 1 →
        r.src = .host → Answers (.setOrClearStep k) s fun t => requestDone s t k ∧
          (t.wave j).single = decide (r.arg 3 = 1) ∧ (∀ x, x ≠ j → SameWave (s.wave x) (t.wave x)) ∧
          SameThreads s t) ∧
      ∀ n, served s k 15 → s.launchById (r.arg 0) = some n →
        ((s.launch n).pid = r.pid → Answers (.endLaunchRequest k) s fun t => requestDone s t k ∧
          (t.launch n).status = 5 ∧ ∃ a, t.agenda = (0, .endLaunch n) :: a) ∧
        ((s.launch n).pid ≠ r.pid → exec (.endLaunchRequest k) s = .next (s.endRequest k 1 0))) ∧
  (∀ (s : State) (k ctx : Nat), hasContext s (s.req k) ctx → let r := s.req k
      (∀ b, served s k 13 → s.viewed r (r.arg 2) = some b →
        let bs := ((s.viewWords b).flatMap fun w => leBytes 8 w.toNat).take (r.arg 4)
        exec (.readView k) s = .next ((s.ctxWrite ctx (r.arg 3) bs).endRequest k 0 bs.length)) ∧
      ∀ b vs, served s k 14 → r.src = .host → s.viewed r (bits (r.arg 2) 9 8) = some b →
        s.ctxWords ctx (r.arg 4) 64 = some vs → (s.block b).waves.Nodup →
        let name := bits (r.arg 2) 31 16
        let d := (s.kernelOfBlock b).decl
        (bits (r.arg 2) 15 12 = 1 → declaredIn d 1 name = true →
          (∀ j ∈ s.wavesOf b, s.placeNames j 1 name (s.liveIn j) = [name]) → Answers (.writeName k) s fun t => requestDone s t k ∧
          ∀ j ∈ s.wavesOf b, (t.wave j).unif = (s.wave j).unif.put name (vs.headD 0)) ∧
        (bits (r.arg 2) 15 12 = 0 → declaredIn d 0 name = true →
          (∀ j ∈ s.wavesOf b, ∀ l, bit (r.arg 3) l = true → ∀ n, (s.kernelOf (s.wave j)).info 0 name = some n →
            n.liveAt ((s.wave j).lane l).pc.toNat = true) → Answers (.writeName k) s fun t => requestDone s t k ∧
          ∀ j ∈ s.wavesOf b, ∀ l, ((t.wave j).lane l).names =
            if l < (s.wave j).width ∧ bit (r.arg 3) l = true then
              ((s.wave j).lane l).names.put name
                (BitVec.ofNat 64 ((vs.getD l 0).toNat % 2 ^ s.laneWidth (s.wave j) name))
            else ((s.wave j).lane l).names) ∧
        (bits (r.arg 2) 15 12 = 3 → declaredIn d 3 name = true → Answers (.writeName k) s fun t => requestDone s t k ∧
          t.bar b name = ⟨bits (vs.headD 0).toNat 11 0, bit (vs.headD 0).toNat 12⟩ ∧ SameWaves s t) ∧
        (bits (r.arg 2) 15 12 = 4 → declaredIn d 4 name = true → Answers (.writeName k) s fun t => requestDone s t k ∧
          (t.conv b name).count = bits (vs.headD 0).toNat 7 0 ∧ SameWaves s t) ∧
        (declaredIn d (bits (r.arg 2) 15 12) name = false ∨ 5 < bits (r.arg 2) 15 12 →
          exec (.writeName k) s = .next (s.endRequest k 2 0))) ∧
  (∀ (s : State) (h : EngineHit), let i := Instr.engineWatchpointHit h.engine h.slot h.addr
      let n := s.launchOf (s.wave h.wave)
      s.hits.find? (fun x => Instr.engineWatchpointHit x.engine x.slot x.addr == i) = some h →
      Answers i s fun t => t.hits = s.hits.erase h ∧
        t.copies = s.copies ∧ t.mats = s.mats ∧ t.palps = s.palps ∧ t.colls = s.colls ∧ SameWaves s t ∧
        (t.launch n).records = (s.launch n).records + 1 ∧
        (t.queue (s.launch n).queue).sigidx = (s.queue (s.launch n).queue).sigidx + 1)

/-- R397-R404: what a process owns of its memory is what is mapped there for it (log 36), and what it does not own ends
a load with status 1 (log 18): readings of the model. A load checks, chooses its base, relocates, and only then
writes: a malformed object, no room, or an overflow leaves nothing but the load result with its status; the loaded
object is there from its result on. An unload refuses new launches at once, and ends when the launches of its
kernels have. -/
def Obligations.ObjectsLoadAndUnload : Prop :=
  (∀ (s : State) (k ctx : Nat) (plan : LoadPlan), served s k 4 → hasContext s (s.req k) ctx →
    let r := s.req k
    ((s.owns ctx (r.arg 0) 128 = false ∨ s.owns ctx (r.arg 1) 32 = false) →
      exec (.loadCodeObject k plan) s = .next (s.endRequest k 1 0)) ∧
    (s.owns ctx (r.arg 0) 128 = true → s.owns ctx (r.arg 1) 32 = true →
      (s.readObject ctx (r.arg 0) = none →
        exec (.loadCodeObject k plan) s = .next (s.loadResult k ctx (r.arg 1) 1 0 0 0 0)) ∧
      ∀ o, s.readObject ctx (r.arg 0) = some o →
        (s.baseFor ctx o = none →
          exec (.loadCodeObject k plan) s = .next (s.loadResult k ctx (r.arg 1) 2 0 0 0 0)) ∧
        ∀ base, s.baseFor ctx o = some base →
          (∀ i v, o.overflow base = some (i, v) →
            exec (.loadCodeObject k plan) s = .next (s.loadResult k ctx (r.arg 1) 3 i base 0 (wrap 64 v))) ∧
          (o.overflow base = none →
            (plan.tables.foldl (fun u p => u.sysWrite p.1 (leBytes 8 p.2.toNat)) s).planOk ctx base o
              plan.kdesc.toNat = true →
            s.planFree (plan.tables.foldl (fun u p => u.sysWrite p.1 (leBytes 8 p.2.toNat)) s) ctx base o plan = true →
            Answers (.loadCodeObject k plan) s fun t => requestDone s t k ∧ t.objects = s.objects ++
              [⟨ctx, r.pid, base, o.span, plan.kdesc.toNat, o.kernels.length, false⟩]))) ∧
  ∀ (s : State) (k : Nat), served s k 5 → let r := s.req k
    let mine := s.objects.find? fun o => o.pid == r.pid && o.base == r.arg 0
    (mine = none → exec (.unloadCodeObject k) s = .next (s.endRequest k 1 0)) ∧
    ∀ o, mine = some o →
      (s.objectBusy o = true → Answers (.unloadCodeObject k) s fun t => t.reqs = s.reqs ∧
        t.objects = s.objects.map fun x => if x = o then { x with unloading := true } else x) ∧
      (s.objectBusy o = false → Answers (.unloadCodeObject k) s fun t => requestDone s t k ∧
        t.objects = s.objects.filter fun x => x != o)

/-! ## The host, other devices, links -/

/-- R372, R227, R385: the host reads home memory as published at .SYS scope or brought home by a CFLUSH, and writes it,
on a replicated page in both copies, through its aperture of 64 GiB and the mappings that the executive has
installed; nothing is written where nothing is mapped. The host masks and unmasks vectors; one that is unmasked
delivers what was pending. That the aperture's mappings are a table of its own, and that an access is cut at
multiples of 8, is log 35. R363-R365: a request of another device is performed at its home here and answered on its
link: a load reads, a store writes and an atomic does its operation; the response of a request of this device brings
its value to its lane and ends the wait for it; one that has not been delivered within 2 ms brings zero, counted.
What another device's load finds is what is published at .SYS scope or written by another device, and its release
publishes all that was written so: the model's reading (log 48); its messages are as log 29 has them. R362:
acknowledged flits are released and those before a replay request too; the sixteenth replay of one flit in a row
makes the link retrain, when it carries nothing, messages of which it has sent nothing taking another link, until it
is trained again; a flit that fails its CRC or comes out of turn is answered with a request for the one expected. -/
def Obligations.HostLinksAndDevices : Prop :=
  (∀ (s : State) (a : BitVec 64),
      (∀ n, Answers (.hostRead a n) s fun t => t.hostData.length = min n (2 ^ 36 - a.toNat) ∧
        (∀ i < n, a.toNat + i < 2 ^ 36 → ∀ pa leaf, s.barPa (a.toNat + i) = some (pa, leaf) →
          t.hostData.getD i 0 = s.homeByte 3 pa) ∧ t.mem = s.mem ∧ t.waves = s.waves) ∧
      (∀ bs pa leaf, s.mem.wf = true → bs ≠ [] → a.toNat % 8 + bs.length ≤ 8 → a.toNat + bs.length ≤ 2 ^ 36 →
        s.barPa a.toNat = some (pa, leaf) → Answers (.hostWrite a bs) s fun t =>
          (∀ x ∈ copiesFor leaf pa, ∀ i < bs.length, t.mem.get (x + i) = bs.getD i 0) ∧
          (∀ y, (∀ x ∈ copiesFor leaf pa, y < x ∨ x + bs.length ≤ y) → t.mem.get y = s.mem.get y) ∧
          SameWaves s t ∧ t.copies = s.copies) ∧
      (∀ bs, (∀ p ∈ pieces a.toNat (bs.take (2 ^ 36 - a.toNat)), s.barPa p.1 = none) → exec (.hostWrite a bs) s = .next s) ∧
      (∀ bs cs t, (a.toNat + bs.length) % 8 = 0 → a.toNat + bs.length ≤ 2 ^ 36 → exec (.hostWrite a bs) s = .next t →
        exec (.hostWrite a (bs ++ cs)) s = exec (.hostWrite (a + BitVec.ofNat 64 bs.length) cs) t) ∧
      ∀ v, Answers (.vectorUnmask v) s fun t => t.masks.get true v.vector = !v.unmask ∧
        (v.unmask = true → v.vector ∈ s.vectors → v.vector ∉ t.vectors ∧ t.msi = s.msi ++ [v.vector]) ∧
        ((v.unmask = false ∨ v.vector ∉ s.vectors) → t.vectors = s.vectors ∧ t.msi = s.msi)) ∧
  ((∀ (s : State) (n id pa z lpa : Nat), pa = bits lpa 38 0 → n < 18 → (s.glink n).training = false →
      s.mem.wf = true →
      Answers (.remoteRequest n (.load id lpa z)) s (fun t => t.mem = s.mem ∧
        (t.glink n).answer = some (id, BitVec.ofNat 64 (ofLe ((List.range z).map fun i => s.farByte (pa + i))))) ∧
      (∀ bs, Answers (.remoteRequest n (.store id lpa bs)) s fun t => (t.glink n).answer = some (id, 0) ∧
        ∀ x, t.mem.get x = if pa ≤ x ∧ x < pa + bs.length then bs.getD (x - pa) 0 else s.mem.get x) ∧
      Answers (.remoteRequest n (.release id)) s (fun t => t.mem = s.mem ∧ t.pubRem = [] ∧
        (s.pubRem ≠ [] → ∃ p, t.pubs = s.pubs ++ [p] ∧ p.scope = 3 ∧ p.bytes = s.pubRem) ∧
        (t.glink n).answer = some (id, 0)) ∧
      ∀ op wide uns b c, let w := if wide then 64 else 32
        let old := ofLe ((List.range (w / 8)).map fun i => if (pa + i) / 8 * 8 ∈ s.bad then 0 else s.mem.get (pa + i))
        Answers (.remoteRequest n (.atomic id lpa op wide uns b c)) s fun t =>
          (t.glink n).answer = some (id, BitVec.ofNat 64 old) ∧
          ∀ x, t.mem.get x = match atomicResult op w uns old (b.toNat % 2 ^ w) (c.toNat % 2 ^ w) with
            | some v => if pa ≤ x ∧ x < pa + w / 8 then (leBytes (w / 8) v).getD (x - pa) 0 else s.mem.get x
            | none => s.mem.get x) ∧
    ∀ (s : State) (id : Nat) (r : Remote) (f : Flight) (l v0 : Nat), s.remotes.find? (fun p => p.1 == id) = some (id, r) →
      (s.wave r.wave).flights.find? (fun f => f.remote == some id) = some f → f.uniform = false →
      f.vals = [(l, BitVec.ofNat 64 v0)] → ((s.wave r.wave).lane l).exited = false →
      let lane (t : State) := (t.wave r.wave).lane l
      let got (t : State) (x : BitVec 64) : Prop := t.remotes.has id = false ∧ t.mem = s.mem ∧
        (∀ g ∈ (t.wave r.wave).flights, g.remote ≠ some id) ∧
        (lane t).names = ((s.wave r.wave).lane l).names.put f.name
          (BitVec.ofNat 64 (x.toNat % 2 ^ s.laneWidth (s.wave r.wave) f.name))
      (∀ d : BitVec 64, s.linkUp (s.backLink id r) = true → Answers (.remoteResponse id d) s fun t =>
        got t (loaded r.size r.sign (d.toNat % 2 ^ (8 * r.size)))) ∧
      (s.time < r.since + 4500000 → exec (.remoteAccessTimeout id) s = .next s) ∧
      (r.since + 4500000 ≤ s.time → Answers (.remoteAccessTimeout id) s fun t => got t 0 ∧
        t.power.counts.get 0 2 = s.power.counts.get 0 2 + 1 ∧
        ((s.wave r.wave).retired = false → (∀ bs, r.ask ≠ .store bs) → bit (t.wave r.wave).errs.toNat 0 = true))) ∧
  (∀ (s : State) (n : Nat), let g := s.glink n
      (∀ (a b : List (BitVec 256)) (f : BitVec 256), n < 18 → g.training = false → g.replay = a ++ f :: b →
        (∀ x ∈ a, flitSeq x ≠ flitSeq f) →
        (Answers (.acknowledge n (flitSeq f)) s fun t => (∃ c, (t.glink n).replay = b ++ c ∧ (g.backlog = [] → c = [])) ∧
          (t.glink n).replay.length ≤ max 128 b.length ∧ (t.glink n).replays = 0) ∧
        (Answers (.replayRequest n (flitSeq f)) s fun t => (t.glink n).replay = f :: b ∧
          (t.glink n).replays = if a = [] then g.replays + 1 else 1)) ∧
      (16 ≤ g.replays → Answers (.linkRetrain n) s fun t =>
        (t.glink n).training = true ∧ (t.glink n).replays = 0 ∧ (t.glink n).replay = g.replay ∧
        ((∃ i < 18, i ≠ n ∧ (s.glink i).training = false) → (t.glink n).backlog = g.backlog.filter (·.begun))) ∧
      (g.training = true → ∀ q, exec (.acknowledge n q) s = .next s ∧ exec (.replayRequest n q) s = .next s) ∧
      (g.replays < 16 → exec (.linkRetrain n) s = .next s) ∧
      (g.training = true → g.backlog = [] → exec (.linkRetrained n) s = .next (s.setGlink n { g with training := false })) ∧
      (∀ f : BitVec 256, n < 18 → g.training = false →
        (flitOk f = false ∨ (bits f.toNat 231 230 ≠ 3 ∧ flitSeq f ≠ g.expect)) → exec (.flitCrcFailure n f) s = .next
          (s.setGlink n { g with dropping := true, control := some (controlFlit 2 g.expect) })) ∧
      (g.training = true → ∀ m, exec (.remoteRequest n m) s = .next s))

/-! ## Boot, power and errors -/

/-- R373, R374, R386, R387: an image that passes every check is loaded and starts on the sixteen control cores, with the
owner that it enrolls installed, its memory as in the image where the executive's request queue and the aperture's
table are elsewhere; one that does not is not run, and the failure counted; a first boot after a transfer clears
memory. Further images are checked so, and loaded. Before the executive runs, an ownership transfer with the owner's
signature over serial number and nonce leaves no owner, and its nonce is spent; any other changes nothing. That all
sixteen cores start at the load address (log 38), and that a boot may follow a failed one (log 42), are the model's
choices. -/
def Obligations.BootAndOwnership : Prop :=
  (∀ (s : State) (img : List Byte), let a := bits (imgWord img 24 8) 38 0
    let n := (img.drop 512).length
    (s.boot.booted = false → s.boot.accepts img = true → Answers (.boot img) s fun t =>
      t.boot.booted = true ∧ t.boot.failed = false ∧
      t.boot.owner = s.boot.ownerKey img ∧ t.boot.clear = false ∧ t.power.on = true ∧
      (∀ c < 16, (t.ctl c).ctx = 0 ∧ (t.ctl c).event = 0 ∧
        let w := t.wave (t.ctl c).wave
        w.control = some c ∧ w.used = true ∧ (w.lane 0).pc = BitVec.ofNat 64 (imgWord img 24 8) ∧
        (w.lane 0).exited = false ∧ ∀ l, 1 ≤ l → (w.lane l).exited = true) ∧
      (s.mem.wf = true → (let q := t.queue 0
          q.desc + 64 ≤ a ∨ a + n ≤ q.base) → (let root := (t.context barCtx).root
          root + 4096 ≤ a ∨ a + n ≤ root) →
        ∀ i < n, t.mem.get (a + i) = (img.drop 512).getD i 0)) ∧
    (s.boot.booted = false → s.boot.accepts img = false → Answers (.boot img) s fun t =>
      t.boot.booted = false ∧ t.boot.failed = true ∧
      t.boot.owner = s.boot.owner ∧ t.waves = s.waves ∧ t.power.counts.get 0 4 = s.power.counts.get 0 4 + 1 ∧
      (s.boot.clear = true → t.mem = []) ∧ (s.boot.clear = false → t.mem = s.mem)) ∧
    (s.boot.booted = true → (s.boot.accepts img = true → exec (.boot img) s = .next (s.loadImage img)) ∧
      (s.boot.accepts img = false → exec (.boot img) s = .next (s.countErrors 4 1)))) ∧
  ∀ (s : State) (nonce req sig : List Byte),
    (∀ k, s.boot.booted = false → s.boot.owner = some k → nonce = s.boot.nonce → req = Config.serial ++ nonce →
      Config.ed448Verify k req sig = true → Answers (.ownershipTransfer nonce req sig) s fun t =>
        t.boot.owner = none ∧ t.boot.sealing = false ∧ t.boot.clear = true ∧ t.boot.nonces = s.boot.nonces + 1 ∧
        t.mem = s.mem) ∧
    ((s.boot.booted = true ∨ s.boot.owner = none ∨ nonce ≠ s.boot.nonce ∨ req ≠ Config.serial ++ nonce ∨
      ∃ k, s.boot.owner = some k ∧ Config.ed448Verify k req sig = false) →
      exec (.ownershipTransfer nonce req sig) s = .next s)

/-- R407-R411: each of these events completes in every state. Throttle stages come into force in order while samples
show an excess, and go in the reverse (log 43) once none does; a sample with a core die at 95 °C or more, or above
the power limit, which falls from there on (log 80), keeps throttling in force, and is what the management port
answers with while the executive runs; samples of 105 °C for 1 ms trip the device; without power nothing but the
package's store is left. No thread and no byte of memory is touched by the others. R216, R332, R333: a correctable
error is corrected and counted; an uncorrectable one is counted and marks its word, which reads as zero until it is
written whole, but where the forwarding window still holds it; a load's word in transit is zeroed once, and CR.ERRS
of a wave that has not retired shows it. A word of memory is one of 8 bytes (log 21, the model's reading). -/
def Obligations.PowerSensorsAndErrors : Prop :=
  (∀ s : State,
      (∀ i, (i = .powerRemoval ∨ i = .thermalTrip ∨ i = .managementPortRequest ∨ (∃ n on, i = .throttle n on) ∨
        (∃ c p, i = .sensorSample c p) ∨ ∃ e ok, i = .softError e ok) → ∃ t, exec i s = .next t) ∧
      (∀ n, n ≤ 2 → s.power.throttle = List.range n → n < s.power.excess → exec (.throttle n true) s = .next
        { s with power := { s.power with throttle := List.range (n + 1) } }) ∧
      (∀ n, s.power.throttle = List.range (n + 1) → s.power.excess = 0 → exec (.throttle n false) s = .next
        { s with power := { s.power with throttle := List.range n } }) ∧
      (∀ n, s.power.excess ≤ s.power.throttle.length → exec (.throttle n true) s = .next s) ∧
      (∀ n, s.power.excess ≠ 0 → exec (.throttle n false) s = .next s) ∧
      (∀ c p, let top := max c.die0 c.die1
        let asked := 95000 ≤ top ∨ limitAt top < p.milliW
        Answers (.sensorSample c p) s fun t => t.power.milliC = c.die0 ∧ t.power.milliC1 = c.die1 ∧
          t.power.milliW = p.milliW ∧ t.power.coolant = p.coolant ∧ t.power.cycles = s.power.counts.get 0 3 ∧ t.power.sampled = s.time ∧
          (asked → t.power.throttle ≠ [] ∧ t.power.excess = s.power.excess + 1) ∧
          (¬ asked → t.power.throttle = s.power.throttle ∧ t.power.excess = 0) ∧
          (top < 105000 → t.power.hot = none) ∧ (105000 ≤ top → s.power.hot = none → t.power.hot = some s.time) ∧
          (∀ t0, 105000 ≤ top → s.power.hot = some t0 → t.power.hot = some t0) ∧ t.waves = s.waves ∧ t.mem = s.mem) ∧
      (∀ c, c ≤ 95000 → limitAt c = 2400000) ∧
      (let x := s.power.counts
       s.boot.booted = true → Answers .managementPortRequest s fun t =>
        t.power.answer = [s.power.milliW, s.power.milliC, s.power.milliC1, s.power.coolant, s.power.cycles, x.get 0 0,
          x.get 0 1, x.get 0 2, x.get 0 4] ∧ t.waves = s.waves ∧ t.mem = s.mem) ∧
      (s.boot.booted = false → exec .managementPortRequest s = .next s) ∧
      (∀ i, (i = .powerRemoval ∨ i = .thermalTrip ∧ ∃ t0, s.power.hot = some t0 ∧ t0 + 2250000 ≤ s.power.sampled) →
        Answers i s fun t => t.power.on = false ∧ t.mem = [] ∧ t.waves = [] ∧ t.launches = [] ∧ t.queues = [] ∧
          t.time = 0 ∧ t.boot.booted = false ∧ t.boot.owner = s.boot.owner ∧ t.boot.fused = s.boot.fused) ∧
      ((∀ t0, s.power.hot = some t0 → s.power.sampled < t0 + 2250000) → exec .thermalTrip s = .next s)) ∧
  ((∀ (s : State) (e : ErrPlace), exec (.softError e true) s = .next (s.countErrors 0 1)) ∧
    (∀ (s : State) (pa : Nat), Answers (.softError (.home pa) false) s fun t => pa / 8 * 8 ∈ t.bad ∧
      t.mem = s.mem ∧ t.waves = s.waves ∧ t.power.counts.get 0 1 = s.power.counts.get 0 1 + 1 ∧ t.sysByte pa = 0) ∧
    (∀ (s : State) (e : ErrPlace), e ≠ .path → (∀ pa, e ≠ .home pa) → Answers (.softError e false) s fun t =>
      e ∈ t.badNames ∧ t.mem = s.mem ∧ t.waves = s.waves) ∧
    (∀ (s : State) (k i l : Nat) (f : Flight), s.wordsInFlight = [(k, i, l)] → (s.wave k).flights[i]? = some f →
      Answers (.softError .path false) s fun t => (t.wave k).flights[i]? =
        some { f with vals := f.vals.map fun v => if v.1 = l then (l, 0) else v } ∧
        ((s.wave k).retired = false → bit (t.wave k).errs.toNat 0 = true) ∧ t.mem = s.mem ∧ SameThreads s t) ∧
    (∀ s : State, s.wordsInFlight = [] → exec (.softError .path false) s = .next (s.countErrors 1 1)) ∧
    (∀ (s : State) (k l n : Nat), ((s.wave k).lane l).window false n = none → ((s.wave k).lane l).dead = [] →
      s.omitted (s.wave k) 0 n ((s.wave k).lane l).pc = false → (s.wave k).forwards 0 l n = false →
      .laneName k l n ∈ s.badNames → s.readLaneOf k l n = 0) ∧
    ∀ (s : State) (pa : Nat) (bs : List Byte), 8 ≤ bs.length → pa % 8 = 0 → pa ∉ (s.sysWrite pa bs).bad)
end

