-- ==== Sys2Proof/Laws/Tab.lean ====
section
/-! SUPPORT. Reads after writes of tables and of memory, and memory's canonical form. -/

namespace Sys2Proof.Machine

/-! ## Tables -/

theorem Tab.get_put_same {α : Type} (d v : α) (t : Tab α) (a : Nat) : (t.put a v).get d a = v := by
  induction t with
  | nil => simp [Tab.put, Tab.get]
  | cons p t ih =>
    obtain ⟨k, w⟩ := p
    simp only [Tab.put]
    split
    · simp [Tab.get]
    · split
      · simp [Tab.get]
      · rename_i h1 h2
        simp [Tab.get, h1, h2, ih]

theorem Tab.get_put_ne {α : Type} (d v : α) (t : Tab α) (a b : Nat) (h : b ≠ a) :
    (t.put a v).get d b = t.get d b := by
  induction t with
  | nil => simp only [Tab.put, Tab.get, if_neg h, ite_self]
  | cons p t ih =>
    obtain ⟨k, w⟩ := p
    simp only [Tab.put]
    split
    · rename_i h1
      simp only [Tab.get, if_neg h]
      split
      · rename_i h2; rw [if_pos (by omega)]
      · rfl
    · split
      · rename_i h1 h2
        subst h2
        simp only [Tab.get, if_neg h]
      · simp only [Tab.get, ih]

theorem Tab.get_put {α : Type} (d v : α) (t : Tab α) (a b : Nat) :
    (t.put a v).get d b = if b = a then v else t.get d b := by
  split
  · rename_i h; subst h; exact Tab.get_put_same d v t b
  · rename_i h; exact Tab.get_put_ne d v t a b h

/-- A fold of `put`s leaves an entry that no step puts. -/
theorem Tab.get_puts_ne {α : Type} (d : α) (ps : List (Nat × α)) (t : Tab α) (b : Nat)
    (h : ∀ p ∈ ps, p.1 ≠ b) : (t.puts ps).get d b = t.get d b := by
  unfold Tab.puts
  induction ps generalizing t with
  | nil => rfl
  | cons p ps ih =>
    simp only [List.foldl_cons]
    rw [ih _ fun q hq => h q (List.mem_cons_of_mem _ hq)]
    exact Tab.get_put_ne d p.2 t p.1 b fun e => h p (List.mem_cons_self ..) e.symm

/-! ## Memory -/

theorem Memory.wfFrom_weaken {lo lo' : Option Nat} {m : Memory} (h : Memory.wfFrom lo m = true)
    (hl : ∀ k, above lo k = true → above lo' k = true) : Memory.wfFrom lo' m = true := by
  cases m with
  | nil => rfl
  | cons p t =>
    obtain ⟨k, v⟩ := p
    simp only [Memory.wfFrom, Bool.and_eq_true] at h ⊢
    exact ⟨⟨hl k h.1.1, h.1.2⟩, h.2⟩

/-- Below every listed address a canonical memory reads empty. -/
theorem Memory.get_low {l : Nat} {m : Memory} (h : Memory.wfFrom (some l) m = true) {a : Nat} (ha : a ≤ l) :
    m.get a = Memory.empty := by
  cases m with
  | nil => rfl
  | cons p t =>
    obtain ⟨k, v⟩ := p
    simp only [Memory.wfFrom, above, Bool.and_eq_true, decide_eq_true_eq] at h
    have hk : a < k := by omega
    simp [Memory.get, hk]

theorem Memory.get_set (m : Memory) (h : m.wf = true) (a : Nat) (v : Byte) (b : Nat) :
    (m.set a v).get b = if b = a then v else m.get b := by
  unfold Memory.wf at h
  suffices ∀ (m : Memory) (lo : Option Nat), Memory.wfFrom lo m = true →
      (m.set a v).get b = if b = a then v else m.get b from this m none h
  intro m
  induction m with
  | nil =>
    intro lo _
    simp only [Memory.set]
    by_cases hv : v = Memory.empty
    · simp only [hv, if_true, Memory.get]
      split <;> rfl
    · by_cases hb : b = a
      · subst hb; simp [hv, Memory.get]
      · simp only [if_neg hv, Memory.get, if_neg hb, ite_self]
  | cons p t ih =>
    intro lo h
    obtain ⟨k, w⟩ := p
    simp only [Memory.wfFrom, Bool.and_eq_true] at h
    simp only [Memory.set]
    by_cases h1 : a < k
    · simp only [if_pos h1]
      by_cases hv : v = Memory.empty
      · simp only [if_pos hv]
        by_cases hb : b = a
        · subst hb; simp [Memory.get, h1, hv]
        · simp [hb]
      · simp only [if_neg hv]
        by_cases hb : b = a
        · subst hb; simp [Memory.get]
        · simp only [if_neg hb]
          conv => lhs; rw [Memory.get]
          simp only [if_neg hb]
          split
          · rename_i h2
            have : b < k := by omega
            simp [Memory.get, this]
          · rfl
    · by_cases h2 : a = k
      · subst h2
        simp only [if_neg h1, if_true]
        by_cases hv : v = Memory.empty
        · simp only [if_pos hv]
          by_cases hb : b = a
          · subst hb; simp [hv, Memory.get_low h.2 (Nat.le_refl _)]
          · simp only [if_neg hb, Memory.get]
            split
            · rename_i h3; exact Memory.get_low h.2 (by omega)
            · rfl
        · simp only [if_neg hv]
          by_cases hb : b = a
          · subst hb; simp [Memory.get]
          · simp only [if_neg hb, Memory.get]
      · simp only [if_neg h1, if_neg h2, Memory.get]
        rw [ih _ h.2]
        by_cases hb : b = a
        · subst hb; simp [h1, h2]
        · simp only [if_neg hb]

theorem Memory.wfFrom_set (a : Nat) (v : Byte) (m : Memory) (lo : Option Nat) (h : Memory.wfFrom lo m = true)
    (ha : above lo a = true) :
    Memory.wfFrom lo (m.set a v) = true := by
  induction m generalizing lo with
  | nil =>
    simp only [Memory.set]
    split
    · rfl
    · rename_i hv
      simp only [Memory.wfFrom, Bool.and_eq_true, bne_iff_ne, ne_eq]
      exact ⟨⟨ha, hv⟩, trivial⟩
  | cons p t ih =>
    obtain ⟨k, w⟩ := p
    have h' := h
    simp only [Memory.wfFrom, Bool.and_eq_true] at h
    simp only [Memory.set]
    split
    · rename_i h1
      split
      · exact h'
      · rename_i hv
        simp only [Memory.wfFrom, above, Bool.and_eq_true, bne_iff_ne, ne_eq, decide_eq_true_eq]
        exact ⟨⟨ha, hv⟩, ⟨h1, by simpa using h.1.2⟩, h.2⟩
    · split
      · rename_i h1 h2
        subst h2
        split
        · refine Memory.wfFrom_weaken h.2 fun j hj => ?_
          cases lo with
          | none => rfl
          | some l => simp only [above, decide_eq_true_eq] at *; omega
        · rename_i hv
          simp only [Memory.wfFrom, Bool.and_eq_true, bne_iff_ne, ne_eq]
          exact ⟨⟨ha, hv⟩, h.2⟩
      · rename_i h1 h2
        simp only [Memory.wfFrom, Bool.and_eq_true]
        exact ⟨h.1, ih (some k) h.2 (by simp only [above, decide_eq_true_eq]; omega)⟩

/-- A write of a byte keeps the canonical form. -/
theorem Memory.wf_set (m : Memory) (h : m.wf = true) (a : Nat) (v : Byte) : (m.set a v).wf = true :=
  Memory.wfFrom_set a v m none h rfl

/-- A write of bytes keeps the canonical form. -/
theorem Memory.wf_write (m : Memory) (h : m.wf = true) (a : Nat) (bs : List Byte) : (m.write a bs).wf = true := by
  induction bs generalizing m a with
  | nil => exact h
  | cons b bs ih => exact ih _ (Memory.wf_set m h a b) _

/-- Bytes outside a write read as before. -/
theorem Memory.get_write_outside (m : Memory) (h : m.wf = true) (a : Nat) (bs : List Byte) (x : Nat)
    (hx : x < a ∨ a + bs.length ≤ x) : (m.write a bs).get x = m.get x := by
  induction bs generalizing m a with
  | nil => rfl
  | cons b bs ih =>
    simp only [List.length_cons] at hx
    simp only [Memory.write]
    rw [ih _ (Memory.wf_set m h a b) _ (by omega), Memory.get_set m h, if_neg (by omega)]

/-- Bytes of a write read as written. -/
theorem Memory.get_write_inside (m : Memory) (h : m.wf = true) (a : Nat) (bs : List Byte) (i : Nat)
    (hi : i < bs.length) : (m.write a bs).get (a + i) = bs[i] := by
  induction bs generalizing m a i with
  | nil => simp at hi
  | cons b bs ih =>
    simp only [Memory.write]
    cases i with
    | zero =>
      rw [Memory.get_write_outside _ (Memory.wf_set m h a b) _ _ _ (by omega), Memory.get_set m h]
      simp
    | succ i =>
      have := ih _ (Memory.wf_set m h a b) (a + 1) i (by simpa using hi)
      rw [show a + (i + 1) = a + 1 + i by omega]
      simpa using this

/-- A read of bytes gives each of them. -/
theorem Memory.read_eq (m : Memory) (a n : Nat) : m.read a n = (List.range n).map fun i => m.get (a + i) := by
  induction n generalizing a with
  | zero => rfl
  | succ n ih =>
    rw [Memory.read, ih, List.range_succ_eq_map]
    simp [Function.comp_def, Nat.add_assoc, Nat.add_comm 1]

/-- What was written is read back. -/
theorem Memory.read_write (m : Memory) (h : m.wf = true) (a : Nat) (bs : List Byte) :
    (m.write a bs).read a bs.length = bs := by
  rw [Memory.read_eq]
  refine List.ext_getElem (by simp) fun i _ hi => ?_
  simpa using Memory.get_write_inside m h a bs i hi

/-- Two canonical memories that read alike everywhere are equal data. -/
theorem Memory.ext_of_wf (m n : Memory) (hm : m.wf = true) (hn : n.wf = true) (h : ∀ a, m.get a = n.get a) :
    m = n := by
  suffices ∀ (m n : Memory) (lo lo' : Option Nat), Memory.wfFrom lo m = true → Memory.wfFrom lo' n = true →
      (∀ a, m.get a = n.get a) → m = n from this m n none none hm hn h
  intro m
  induction m with
  | nil =>
    intro n lo lo' _ hn h
    cases n with
    | nil => rfl
    | cons q t =>
      obtain ⟨k, v⟩ := q
      simp only [Memory.wfFrom, Bool.and_eq_true, bne_iff_ne] at hn
      have := h k
      simp only [Memory.get, Nat.lt_irrefl, if_false, if_true] at this
      exact absurd this.symm hn.1.2
  | cons p t ih =>
    intro n lo lo' hm hn h
    obtain ⟨k, v⟩ := p
    simp only [Memory.wfFrom, Bool.and_eq_true, bne_iff_ne] at hm
    cases n with
    | nil =>
      have := h k
      simp only [Memory.get, Nat.lt_irrefl, if_false, if_true] at this
      exact absurd this hm.1.2
    | cons q u =>
      obtain ⟨j, w⟩ := q
      simp only [Memory.wfFrom, Bool.and_eq_true, bne_iff_ne] at hn
      have hk := h k
      have hj := h j
      simp only [Memory.get, Nat.lt_irrefl, if_false, if_true] at hk hj
      have e : k = j := by
        by_cases h1 : k < j
        · rw [if_pos h1] at hk; exact absurd hk hm.1.2
        · by_cases h2 : j < k
          · rw [if_pos h2] at hj; exact absurd hj.symm hn.1.2
          · omega
      subst e
      simp only [Nat.lt_irrefl, if_false, if_true] at hk
      subst hk
      congr 1
      refine ih u (some k) (some k) hm.2 hn.2 fun a => ?_
      by_cases h1 : a ≤ k
      · rw [Memory.get_low hm.2 h1, Memory.get_low hn.2 h1]
      · have := h a
        simpa [Memory.get, show ¬ a < k by omega, show a ≠ k by omega] using this

end Sys2Proof.Machine
end

