-- ==== Sys2Proof/Laws/State.lean ====
section
/-! SUPPORT. What each update of the state, of a wave and of a lane does to each field. -/

namespace Sys2Proof.Machine

/-! ## The tables of the state -/

@[simp] theorem State.setWave_time (s : State) (k : Nat) (w : Wave) : (s.setWave k w).time = s.time := rfl
@[simp] theorem State.setWave_free (s : State) (k : Nat) (w : Wave) : (s.setWave k w).free = s.free := rfl
@[simp] theorem State.setWave_agenda (s : State) (k : Nat) (w : Wave) : (s.setWave k w).agenda = s.agenda := rfl
@[simp] theorem State.setWave_iss (s : State) (k : Nat) (w : Wave) : (s.setWave k w).iss = s.iss := rfl
@[simp] theorem State.setWave_blocks (s : State) (k : Nat) (w : Wave) : (s.setWave k w).blocks = s.blocks := rfl
@[simp] theorem State.setWave_gangs (s : State) (k : Nat) (w : Wave) : (s.setWave k w).gangs = s.gangs := rfl
@[simp] theorem State.setWave_launches (s : State) (k : Nat) (w : Wave) : (s.setWave k w).launches = s.launches := rfl
@[simp] theorem State.setWave_mem (s : State) (k : Nat) (w : Wave) : (s.setWave k w).mem = s.mem := rfl
@[simp] theorem State.setWave_hist (s : State) (k : Nat) (w : Wave) : (s.setWave k w).hist = s.hist := rfl
@[simp] theorem State.setWave_stamp (s : State) (k : Nat) (w : Wave) : (s.setWave k w).stamp = s.stamp := rfl
@[simp] theorem State.setWave_pubBlk (s : State) (k : Nat) (w : Wave) : (s.setWave k w).pubBlk = s.pubBlk := rfl
@[simp] theorem State.setWave_pubGang (s : State) (k : Nat) (w : Wave) : (s.setWave k w).pubGang = s.pubGang := rfl
@[simp] theorem State.setWave_pubDev (s : State) (k : Nat) (w : Wave) : (s.setWave k w).pubDev = s.pubDev := rfl
@[simp] theorem State.setWave_pubSys (s : State) (k : Nat) (w : Wave) : (s.setWave k w).pubSys = s.pubSys := rfl
@[simp] theorem State.setWave_loose (s : State) (k : Nat) (w : Wave) : (s.setWave k w).loose = s.loose := rfl
@[simp] theorem State.setWave_pubs (s : State) (k : Nat) (w : Wave) : (s.setWave k w).pubs = s.pubs := rfl
@[simp] theorem State.setWave_carry (s : State) (k : Nat) (w : Wave) : (s.setWave k w).carry = s.carry := rfl
@[simp] theorem State.setWave_barKnown (s : State) (k : Nat) (w : Wave) : (s.setWave k w).barKnown = s.barKnown := rfl
@[simp] theorem State.setWave_flushed (s : State) (k : Nat) (w : Wave) : (s.setWave k w).flushed = s.flushed := rfl
@[simp] theorem State.setWave_pubNear (s : State) (k : Nat) (w : Wave) : (s.setWave k w).pubNear = s.pubNear := rfl
@[simp] theorem State.setWave_pubRem (s : State) (k : Nat) (w : Wave) : (s.setWave k w).pubRem = s.pubRem := rfl
@[simp] theorem State.setWave_vlines (s : State) (k : Nat) (w : Wave) : (s.setWave k w).vlines = s.vlines := rfl
@[simp] theorem State.setWave_access (s : State) (k : Nat) (w : Wave) : (s.setWave k w).access = s.access := rfl
@[simp] theorem State.setWave_bad (s : State) (k : Nat) (w : Wave) : (s.setWave k w).bad = s.bad := rfl
@[simp] theorem State.setWave_badNames (s : State) (k : Nat) (w : Wave) : (s.setWave k w).badNames = s.badNames := rfl
@[simp] theorem State.setWave_vault (s : State) (k : Nat) (w : Wave) : (s.setWave k w).vault = s.vault := rfl
@[simp] theorem State.setWave_parts (s : State) (k : Nat) (w : Wave) : (s.setWave k w).parts = s.parts := rfl
@[simp] theorem State.setWave_contexts (s : State) (k : Nat) (w : Wave) : (s.setWave k w).contexts = s.contexts := rfl
@[simp] theorem State.setWave_frames (s : State) (k : Nat) (w : Wave) : (s.setWave k w).frames = s.frames := rfl
@[simp] theorem State.setWave_tlb (s : State) (k : Nat) (w : Wave) : (s.setWave k w).tlb = s.tlb := rfl
@[simp] theorem State.setWave_tlb1 (s : State) (k : Nat) (w : Wave) : (s.setWave k w).tlb1 = s.tlb1 := rfl
@[simp] theorem State.setWave_notices (s : State) (k : Nat) (w : Wave) : (s.setWave k w).notices = s.notices := rfl
@[simp] theorem State.setWave_serviced (s : State) (k : Nat) (w : Wave) : (s.setWave k w).serviced = s.serviced := rfl
@[simp] theorem State.setWave_copies (s : State) (k : Nat) (w : Wave) : (s.setWave k w).copies = s.copies := rfl
@[simp] theorem State.setWave_mats (s : State) (k : Nat) (w : Wave) : (s.setWave k w).mats = s.mats := rfl
@[simp] theorem State.setWave_palps (s : State) (k : Nat) (w : Wave) : (s.setWave k w).palps = s.palps := rfl
@[simp] theorem State.setWave_colls (s : State) (k : Nat) (w : Wave) : (s.setWave k w).colls = s.colls := rfl
@[simp] theorem State.setWave_nextOp (s : State) (k : Nat) (w : Wave) : (s.setWave k w).nextOp = s.nextOp := rfl
@[simp] theorem State.setWave_hits (s : State) (k : Nat) (w : Wave) : (s.setWave k w).hits = s.hits := rfl
@[simp] theorem State.setWave_images (s : State) (k : Nat) (w : Wave) : (s.setWave k w).images = s.images := rfl
@[simp] theorem State.setWave_reports (s : State) (k : Nat) (w : Wave) : (s.setWave k w).reports = s.reports := rfl
@[simp] theorem State.setWave_ring (s : State) (k : Nat) (w : Wave) : (s.setWave k w).ring = s.ring := rfl
@[simp] theorem State.setWave_queues (s : State) (k : Nat) (w : Wave) : (s.setWave k w).queues = s.queues := rfl
@[simp] theorem State.setWave_reqs (s : State) (k : Nat) (w : Wave) : (s.setWave k w).reqs = s.reqs := rfl
@[simp] theorem State.setWave_replies (s : State) (k : Nat) (w : Wave) : (s.setWave k w).replies = s.replies := rfl
@[simp] theorem State.setWave_comms (s : State) (k : Nat) (w : Wave) : (s.setWave k w).comms = s.comms := rfl
@[simp] theorem State.setWave_collBox (s : State) (k : Nat) (w : Wave) : (s.setWave k w).collBox = s.collBox := rfl
@[simp] theorem State.setWave_objects (s : State) (k : Nat) (w : Wave) : (s.setWave k w).objects = s.objects := rfl
@[simp] theorem State.setWave_ctls (s : State) (k : Nat) (w : Wave) : (s.setWave k w).ctls = s.ctls := rfl
@[simp] theorem State.setWave_clinks (s : State) (k : Nat) (w : Wave) : (s.setWave k w).clinks = s.clinks := rfl
@[simp] theorem State.setWave_sched (s : State) (k : Nat) (w : Wave) : (s.setWave k w).sched = s.sched := rfl
@[simp] theorem State.setWave_beat (s : State) (k : Nat) (w : Wave) : (s.setWave k w).beat = s.beat := rfl
@[simp] theorem State.setWave_orders (s : State) (k : Nat) (w : Wave) : (s.setWave k w).orders = s.orders := rfl
@[simp] theorem State.setWave_nextId (s : State) (k : Nat) (w : Wave) : (s.setWave k w).nextId = s.nextId := rfl
@[simp] theorem State.setWave_log (s : State) (k : Nat) (w : Wave) : (s.setWave k w).log = s.log := rfl
@[simp] theorem State.setWave_vectors (s : State) (k : Nat) (w : Wave) : (s.setWave k w).vectors = s.vectors := rfl
@[simp] theorem State.setWave_msi (s : State) (k : Nat) (w : Wave) : (s.setWave k w).msi = s.msi := rfl
@[simp] theorem State.setWave_hostData (s : State) (k : Nat) (w : Wave) : (s.setWave k w).hostData = s.hostData := rfl
@[simp] theorem State.setWave_masks (s : State) (k : Nat) (w : Wave) : (s.setWave k w).masks = s.masks := rfl
@[simp] theorem State.setWave_glinks (s : State) (k : Nat) (w : Wave) : (s.setWave k w).glinks = s.glinks := rfl
@[simp] theorem State.setWave_remotes (s : State) (k : Nat) (w : Wave) : (s.setWave k w).remotes = s.remotes := rfl
@[simp] theorem State.setWave_lost (s : State) (k : Nat) (w : Wave) : (s.setWave k w).lost = s.lost := rfl
@[simp] theorem State.setWave_power (s : State) (k : Nat) (w : Wave) : (s.setWave k w).power = s.power := rfl
@[simp] theorem State.setWave_starved (s : State) (k : Nat) (w : Wave) : (s.setWave k w).starved = s.starved := rfl
@[simp] theorem State.setWave_boot (s : State) (k : Nat) (w : Wave) : (s.setWave k w).boot = s.boot := rfl
@[simp] theorem State.setWave_get_block (s : State) (k : Nat) (w : Wave) (j : Nat) : (s.setWave k w).block j = s.block j := rfl
@[simp] theorem State.setWave_get_gang (s : State) (k : Nat) (w : Wave) (j : Nat) : (s.setWave k w).gang j = s.gang j := rfl
@[simp] theorem State.setWave_get_launch (s : State) (k : Nat) (w : Wave) (j : Nat) : (s.setWave k w).launch j = s.launch j := rfl
@[simp] theorem State.setWave_get_context (s : State) (k : Nat) (w : Wave) (j : Nat) : (s.setWave k w).context j = s.context j := rfl
@[simp] theorem State.setWave_get_ctl (s : State) (k : Nat) (w : Wave) (j : Nat) : (s.setWave k w).ctl j = s.ctl j := rfl
@[simp] theorem State.setWave_get_copy (s : State) (k : Nat) (w : Wave) (j : Nat) : (s.setWave k w).copy j = s.copy j := rfl
@[simp] theorem State.setWave_get_mat (s : State) (k : Nat) (w : Wave) (j : Nat) : (s.setWave k w).mat j = s.mat j := rfl
@[simp] theorem State.setWave_get_palp (s : State) (k : Nat) (w : Wave) (j : Nat) : (s.setWave k w).palp j = s.palp j := rfl
@[simp] theorem State.setWave_get_collOp (s : State) (k : Nat) (w : Wave) (j : Nat) : (s.setWave k w).collOp j = s.collOp j := rfl
@[simp] theorem State.setWave_get_queue (s : State) (k : Nat) (w : Wave) (j : Nat) : (s.setWave k w).queue j = s.queue j := rfl
@[simp] theorem State.setWave_get_clink (s : State) (k : Nat) (w : Wave) (j : Nat) : (s.setWave k w).clink j = s.clink j := rfl
@[simp] theorem State.setWave_get_glink (s : State) (k : Nat) (w : Wave) (j : Nat) : (s.setWave k w).glink j = s.glink j := rfl
@[simp] theorem State.setBlock_time (s : State) (k : Nat) (b : Block) : (s.setBlock k b).time = s.time := rfl
@[simp] theorem State.setBlock_free (s : State) (k : Nat) (b : Block) : (s.setBlock k b).free = s.free := rfl
@[simp] theorem State.setBlock_agenda (s : State) (k : Nat) (b : Block) : (s.setBlock k b).agenda = s.agenda := rfl
@[simp] theorem State.setBlock_iss (s : State) (k : Nat) (b : Block) : (s.setBlock k b).iss = s.iss := rfl
@[simp] theorem State.setBlock_waves (s : State) (k : Nat) (b : Block) : (s.setBlock k b).waves = s.waves := rfl
@[simp] theorem State.setBlock_gangs (s : State) (k : Nat) (b : Block) : (s.setBlock k b).gangs = s.gangs := rfl
@[simp] theorem State.setBlock_launches (s : State) (k : Nat) (b : Block) : (s.setBlock k b).launches = s.launches := rfl
@[simp] theorem State.setBlock_mem (s : State) (k : Nat) (b : Block) : (s.setBlock k b).mem = s.mem := rfl
@[simp] theorem State.setBlock_hist (s : State) (k : Nat) (b : Block) : (s.setBlock k b).hist = s.hist := rfl
@[simp] theorem State.setBlock_stamp (s : State) (k : Nat) (b : Block) : (s.setBlock k b).stamp = s.stamp := rfl
@[simp] theorem State.setBlock_pubBlk (s : State) (k : Nat) (b : Block) : (s.setBlock k b).pubBlk = s.pubBlk := rfl
@[simp] theorem State.setBlock_pubGang (s : State) (k : Nat) (b : Block) : (s.setBlock k b).pubGang = s.pubGang := rfl
@[simp] theorem State.setBlock_pubDev (s : State) (k : Nat) (b : Block) : (s.setBlock k b).pubDev = s.pubDev := rfl
@[simp] theorem State.setBlock_pubSys (s : State) (k : Nat) (b : Block) : (s.setBlock k b).pubSys = s.pubSys := rfl
@[simp] theorem State.setBlock_loose (s : State) (k : Nat) (b : Block) : (s.setBlock k b).loose = s.loose := rfl
@[simp] theorem State.setBlock_pubs (s : State) (k : Nat) (b : Block) : (s.setBlock k b).pubs = s.pubs := rfl
@[simp] theorem State.setBlock_carry (s : State) (k : Nat) (b : Block) : (s.setBlock k b).carry = s.carry := rfl
@[simp] theorem State.setBlock_barKnown (s : State) (k : Nat) (b : Block) : (s.setBlock k b).barKnown = s.barKnown := rfl
@[simp] theorem State.setBlock_flushed (s : State) (k : Nat) (b : Block) : (s.setBlock k b).flushed = s.flushed := rfl
@[simp] theorem State.setBlock_pubNear (s : State) (k : Nat) (b : Block) : (s.setBlock k b).pubNear = s.pubNear := rfl
@[simp] theorem State.setBlock_pubRem (s : State) (k : Nat) (b : Block) : (s.setBlock k b).pubRem = s.pubRem := rfl
@[simp] theorem State.setBlock_vlines (s : State) (k : Nat) (b : Block) : (s.setBlock k b).vlines = s.vlines := rfl
@[simp] theorem State.setBlock_access (s : State) (k : Nat) (b : Block) : (s.setBlock k b).access = s.access := rfl
@[simp] theorem State.setBlock_bad (s : State) (k : Nat) (b : Block) : (s.setBlock k b).bad = s.bad := rfl
@[simp] theorem State.setBlock_badNames (s : State) (k : Nat) (b : Block) : (s.setBlock k b).badNames = s.badNames := rfl
@[simp] theorem State.setBlock_vault (s : State) (k : Nat) (b : Block) : (s.setBlock k b).vault = s.vault := rfl
@[simp] theorem State.setBlock_parts (s : State) (k : Nat) (b : Block) : (s.setBlock k b).parts = s.parts := rfl
@[simp] theorem State.setBlock_contexts (s : State) (k : Nat) (b : Block) : (s.setBlock k b).contexts = s.contexts := rfl
@[simp] theorem State.setBlock_frames (s : State) (k : Nat) (b : Block) : (s.setBlock k b).frames = s.frames := rfl
@[simp] theorem State.setBlock_tlb (s : State) (k : Nat) (b : Block) : (s.setBlock k b).tlb = s.tlb := rfl
@[simp] theorem State.setBlock_tlb1 (s : State) (k : Nat) (b : Block) : (s.setBlock k b).tlb1 = s.tlb1 := rfl
@[simp] theorem State.setBlock_notices (s : State) (k : Nat) (b : Block) : (s.setBlock k b).notices = s.notices := rfl
@[simp] theorem State.setBlock_serviced (s : State) (k : Nat) (b : Block) : (s.setBlock k b).serviced = s.serviced := rfl
@[simp] theorem State.setBlock_copies (s : State) (k : Nat) (b : Block) : (s.setBlock k b).copies = s.copies := rfl
@[simp] theorem State.setBlock_mats (s : State) (k : Nat) (b : Block) : (s.setBlock k b).mats = s.mats := rfl
@[simp] theorem State.setBlock_palps (s : State) (k : Nat) (b : Block) : (s.setBlock k b).palps = s.palps := rfl
@[simp] theorem State.setBlock_colls (s : State) (k : Nat) (b : Block) : (s.setBlock k b).colls = s.colls := rfl
@[simp] theorem State.setBlock_nextOp (s : State) (k : Nat) (b : Block) : (s.setBlock k b).nextOp = s.nextOp := rfl
@[simp] theorem State.setBlock_hits (s : State) (k : Nat) (b : Block) : (s.setBlock k b).hits = s.hits := rfl
@[simp] theorem State.setBlock_images (s : State) (k : Nat) (b : Block) : (s.setBlock k b).images = s.images := rfl
@[simp] theorem State.setBlock_reports (s : State) (k : Nat) (b : Block) : (s.setBlock k b).reports = s.reports := rfl
@[simp] theorem State.setBlock_ring (s : State) (k : Nat) (b : Block) : (s.setBlock k b).ring = s.ring := rfl
@[simp] theorem State.setBlock_queues (s : State) (k : Nat) (b : Block) : (s.setBlock k b).queues = s.queues := rfl
@[simp] theorem State.setBlock_reqs (s : State) (k : Nat) (b : Block) : (s.setBlock k b).reqs = s.reqs := rfl
@[simp] theorem State.setBlock_replies (s : State) (k : Nat) (b : Block) : (s.setBlock k b).replies = s.replies := rfl
@[simp] theorem State.setBlock_comms (s : State) (k : Nat) (b : Block) : (s.setBlock k b).comms = s.comms := rfl
@[simp] theorem State.setBlock_collBox (s : State) (k : Nat) (b : Block) : (s.setBlock k b).collBox = s.collBox := rfl
@[simp] theorem State.setBlock_objects (s : State) (k : Nat) (b : Block) : (s.setBlock k b).objects = s.objects := rfl
@[simp] theorem State.setBlock_ctls (s : State) (k : Nat) (b : Block) : (s.setBlock k b).ctls = s.ctls := rfl
@[simp] theorem State.setBlock_clinks (s : State) (k : Nat) (b : Block) : (s.setBlock k b).clinks = s.clinks := rfl
@[simp] theorem State.setBlock_sched (s : State) (k : Nat) (b : Block) : (s.setBlock k b).sched = s.sched := rfl
@[simp] theorem State.setBlock_beat (s : State) (k : Nat) (b : Block) : (s.setBlock k b).beat = s.beat := rfl
@[simp] theorem State.setBlock_orders (s : State) (k : Nat) (b : Block) : (s.setBlock k b).orders = s.orders := rfl
@[simp] theorem State.setBlock_nextId (s : State) (k : Nat) (b : Block) : (s.setBlock k b).nextId = s.nextId := rfl
@[simp] theorem State.setBlock_log (s : State) (k : Nat) (b : Block) : (s.setBlock k b).log = s.log := rfl
@[simp] theorem State.setBlock_vectors (s : State) (k : Nat) (b : Block) : (s.setBlock k b).vectors = s.vectors := rfl
@[simp] theorem State.setBlock_msi (s : State) (k : Nat) (b : Block) : (s.setBlock k b).msi = s.msi := rfl
@[simp] theorem State.setBlock_hostData (s : State) (k : Nat) (b : Block) : (s.setBlock k b).hostData = s.hostData := rfl
@[simp] theorem State.setBlock_masks (s : State) (k : Nat) (b : Block) : (s.setBlock k b).masks = s.masks := rfl
@[simp] theorem State.setBlock_glinks (s : State) (k : Nat) (b : Block) : (s.setBlock k b).glinks = s.glinks := rfl
@[simp] theorem State.setBlock_remotes (s : State) (k : Nat) (b : Block) : (s.setBlock k b).remotes = s.remotes := rfl
@[simp] theorem State.setBlock_lost (s : State) (k : Nat) (b : Block) : (s.setBlock k b).lost = s.lost := rfl
@[simp] theorem State.setBlock_power (s : State) (k : Nat) (b : Block) : (s.setBlock k b).power = s.power := rfl
@[simp] theorem State.setBlock_starved (s : State) (k : Nat) (b : Block) : (s.setBlock k b).starved = s.starved := rfl
@[simp] theorem State.setBlock_boot (s : State) (k : Nat) (b : Block) : (s.setBlock k b).boot = s.boot := rfl
@[simp] theorem State.setBlock_get_wave (s : State) (k : Nat) (b : Block) (j : Nat) : (s.setBlock k b).wave j = s.wave j := rfl
@[simp] theorem State.setBlock_get_gang (s : State) (k : Nat) (b : Block) (j : Nat) : (s.setBlock k b).gang j = s.gang j := rfl
@[simp] theorem State.setBlock_get_launch (s : State) (k : Nat) (b : Block) (j : Nat) : (s.setBlock k b).launch j = s.launch j := rfl
@[simp] theorem State.setBlock_get_context (s : State) (k : Nat) (b : Block) (j : Nat) : (s.setBlock k b).context j = s.context j := rfl
@[simp] theorem State.setBlock_get_ctl (s : State) (k : Nat) (b : Block) (j : Nat) : (s.setBlock k b).ctl j = s.ctl j := rfl
@[simp] theorem State.setBlock_get_copy (s : State) (k : Nat) (b : Block) (j : Nat) : (s.setBlock k b).copy j = s.copy j := rfl
@[simp] theorem State.setBlock_get_mat (s : State) (k : Nat) (b : Block) (j : Nat) : (s.setBlock k b).mat j = s.mat j := rfl
@[simp] theorem State.setBlock_get_palp (s : State) (k : Nat) (b : Block) (j : Nat) : (s.setBlock k b).palp j = s.palp j := rfl
@[simp] theorem State.setBlock_get_collOp (s : State) (k : Nat) (b : Block) (j : Nat) : (s.setBlock k b).collOp j = s.collOp j := rfl
@[simp] theorem State.setBlock_get_queue (s : State) (k : Nat) (b : Block) (j : Nat) : (s.setBlock k b).queue j = s.queue j := rfl
@[simp] theorem State.setBlock_get_clink (s : State) (k : Nat) (b : Block) (j : Nat) : (s.setBlock k b).clink j = s.clink j := rfl
@[simp] theorem State.setBlock_get_glink (s : State) (k : Nat) (b : Block) (j : Nat) : (s.setBlock k b).glink j = s.glink j := rfl
@[simp] theorem State.setGang_time (s : State) (k : Nat) (g : Gang) : (s.setGang k g).time = s.time := rfl
@[simp] theorem State.setGang_free (s : State) (k : Nat) (g : Gang) : (s.setGang k g).free = s.free := rfl
@[simp] theorem State.setGang_agenda (s : State) (k : Nat) (g : Gang) : (s.setGang k g).agenda = s.agenda := rfl
@[simp] theorem State.setGang_iss (s : State) (k : Nat) (g : Gang) : (s.setGang k g).iss = s.iss := rfl
@[simp] theorem State.setGang_waves (s : State) (k : Nat) (g : Gang) : (s.setGang k g).waves = s.waves := rfl
@[simp] theorem State.setGang_blocks (s : State) (k : Nat) (g : Gang) : (s.setGang k g).blocks = s.blocks := rfl
@[simp] theorem State.setGang_launches (s : State) (k : Nat) (g : Gang) : (s.setGang k g).launches = s.launches := rfl
@[simp] theorem State.setGang_mem (s : State) (k : Nat) (g : Gang) : (s.setGang k g).mem = s.mem := rfl
@[simp] theorem State.setGang_hist (s : State) (k : Nat) (g : Gang) : (s.setGang k g).hist = s.hist := rfl
@[simp] theorem State.setGang_stamp (s : State) (k : Nat) (g : Gang) : (s.setGang k g).stamp = s.stamp := rfl
@[simp] theorem State.setGang_pubBlk (s : State) (k : Nat) (g : Gang) : (s.setGang k g).pubBlk = s.pubBlk := rfl
@[simp] theorem State.setGang_pubGang (s : State) (k : Nat) (g : Gang) : (s.setGang k g).pubGang = s.pubGang := rfl
@[simp] theorem State.setGang_pubDev (s : State) (k : Nat) (g : Gang) : (s.setGang k g).pubDev = s.pubDev := rfl
@[simp] theorem State.setGang_pubSys (s : State) (k : Nat) (g : Gang) : (s.setGang k g).pubSys = s.pubSys := rfl
@[simp] theorem State.setGang_loose (s : State) (k : Nat) (g : Gang) : (s.setGang k g).loose = s.loose := rfl
@[simp] theorem State.setGang_pubs (s : State) (k : Nat) (g : Gang) : (s.setGang k g).pubs = s.pubs := rfl
@[simp] theorem State.setGang_carry (s : State) (k : Nat) (g : Gang) : (s.setGang k g).carry = s.carry := rfl
@[simp] theorem State.setGang_barKnown (s : State) (k : Nat) (g : Gang) : (s.setGang k g).barKnown = s.barKnown := rfl
@[simp] theorem State.setGang_flushed (s : State) (k : Nat) (g : Gang) : (s.setGang k g).flushed = s.flushed := rfl
@[simp] theorem State.setGang_pubNear (s : State) (k : Nat) (g : Gang) : (s.setGang k g).pubNear = s.pubNear := rfl
@[simp] theorem State.setGang_pubRem (s : State) (k : Nat) (g : Gang) : (s.setGang k g).pubRem = s.pubRem := rfl
@[simp] theorem State.setGang_vlines (s : State) (k : Nat) (g : Gang) : (s.setGang k g).vlines = s.vlines := rfl
@[simp] theorem State.setGang_access (s : State) (k : Nat) (g : Gang) : (s.setGang k g).access = s.access := rfl
@[simp] theorem State.setGang_bad (s : State) (k : Nat) (g : Gang) : (s.setGang k g).bad = s.bad := rfl
@[simp] theorem State.setGang_badNames (s : State) (k : Nat) (g : Gang) : (s.setGang k g).badNames = s.badNames := rfl
@[simp] theorem State.setGang_vault (s : State) (k : Nat) (g : Gang) : (s.setGang k g).vault = s.vault := rfl
@[simp] theorem State.setGang_parts (s : State) (k : Nat) (g : Gang) : (s.setGang k g).parts = s.parts := rfl
@[simp] theorem State.setGang_contexts (s : State) (k : Nat) (g : Gang) : (s.setGang k g).contexts = s.contexts := rfl
@[simp] theorem State.setGang_frames (s : State) (k : Nat) (g : Gang) : (s.setGang k g).frames = s.frames := rfl
@[simp] theorem State.setGang_tlb (s : State) (k : Nat) (g : Gang) : (s.setGang k g).tlb = s.tlb := rfl
@[simp] theorem State.setGang_tlb1 (s : State) (k : Nat) (g : Gang) : (s.setGang k g).tlb1 = s.tlb1 := rfl
@[simp] theorem State.setGang_notices (s : State) (k : Nat) (g : Gang) : (s.setGang k g).notices = s.notices := rfl
@[simp] theorem State.setGang_serviced (s : State) (k : Nat) (g : Gang) : (s.setGang k g).serviced = s.serviced := rfl
@[simp] theorem State.setGang_copies (s : State) (k : Nat) (g : Gang) : (s.setGang k g).copies = s.copies := rfl
@[simp] theorem State.setGang_mats (s : State) (k : Nat) (g : Gang) : (s.setGang k g).mats = s.mats := rfl
@[simp] theorem State.setGang_palps (s : State) (k : Nat) (g : Gang) : (s.setGang k g).palps = s.palps := rfl
@[simp] theorem State.setGang_colls (s : State) (k : Nat) (g : Gang) : (s.setGang k g).colls = s.colls := rfl
@[simp] theorem State.setGang_nextOp (s : State) (k : Nat) (g : Gang) : (s.setGang k g).nextOp = s.nextOp := rfl
@[simp] theorem State.setGang_hits (s : State) (k : Nat) (g : Gang) : (s.setGang k g).hits = s.hits := rfl
@[simp] theorem State.setGang_images (s : State) (k : Nat) (g : Gang) : (s.setGang k g).images = s.images := rfl
@[simp] theorem State.setGang_reports (s : State) (k : Nat) (g : Gang) : (s.setGang k g).reports = s.reports := rfl
@[simp] theorem State.setGang_ring (s : State) (k : Nat) (g : Gang) : (s.setGang k g).ring = s.ring := rfl
@[simp] theorem State.setGang_queues (s : State) (k : Nat) (g : Gang) : (s.setGang k g).queues = s.queues := rfl
@[simp] theorem State.setGang_reqs (s : State) (k : Nat) (g : Gang) : (s.setGang k g).reqs = s.reqs := rfl
@[simp] theorem State.setGang_replies (s : State) (k : Nat) (g : Gang) : (s.setGang k g).replies = s.replies := rfl
@[simp] theorem State.setGang_comms (s : State) (k : Nat) (g : Gang) : (s.setGang k g).comms = s.comms := rfl
@[simp] theorem State.setGang_collBox (s : State) (k : Nat) (g : Gang) : (s.setGang k g).collBox = s.collBox := rfl
@[simp] theorem State.setGang_objects (s : State) (k : Nat) (g : Gang) : (s.setGang k g).objects = s.objects := rfl
@[simp] theorem State.setGang_ctls (s : State) (k : Nat) (g : Gang) : (s.setGang k g).ctls = s.ctls := rfl
@[simp] theorem State.setGang_clinks (s : State) (k : Nat) (g : Gang) : (s.setGang k g).clinks = s.clinks := rfl
@[simp] theorem State.setGang_sched (s : State) (k : Nat) (g : Gang) : (s.setGang k g).sched = s.sched := rfl
@[simp] theorem State.setGang_beat (s : State) (k : Nat) (g : Gang) : (s.setGang k g).beat = s.beat := rfl
@[simp] theorem State.setGang_orders (s : State) (k : Nat) (g : Gang) : (s.setGang k g).orders = s.orders := rfl
@[simp] theorem State.setGang_nextId (s : State) (k : Nat) (g : Gang) : (s.setGang k g).nextId = s.nextId := rfl
@[simp] theorem State.setGang_log (s : State) (k : Nat) (g : Gang) : (s.setGang k g).log = s.log := rfl
@[simp] theorem State.setGang_vectors (s : State) (k : Nat) (g : Gang) : (s.setGang k g).vectors = s.vectors := rfl
@[simp] theorem State.setGang_msi (s : State) (k : Nat) (g : Gang) : (s.setGang k g).msi = s.msi := rfl
@[simp] theorem State.setGang_hostData (s : State) (k : Nat) (g : Gang) : (s.setGang k g).hostData = s.hostData := rfl
@[simp] theorem State.setGang_masks (s : State) (k : Nat) (g : Gang) : (s.setGang k g).masks = s.masks := rfl
@[simp] theorem State.setGang_glinks (s : State) (k : Nat) (g : Gang) : (s.setGang k g).glinks = s.glinks := rfl
@[simp] theorem State.setGang_remotes (s : State) (k : Nat) (g : Gang) : (s.setGang k g).remotes = s.remotes := rfl
@[simp] theorem State.setGang_lost (s : State) (k : Nat) (g : Gang) : (s.setGang k g).lost = s.lost := rfl
@[simp] theorem State.setGang_power (s : State) (k : Nat) (g : Gang) : (s.setGang k g).power = s.power := rfl
@[simp] theorem State.setGang_starved (s : State) (k : Nat) (g : Gang) : (s.setGang k g).starved = s.starved := rfl
@[simp] theorem State.setGang_boot (s : State) (k : Nat) (g : Gang) : (s.setGang k g).boot = s.boot := rfl
@[simp] theorem State.setGang_get_wave (s : State) (k : Nat) (g : Gang) (j : Nat) : (s.setGang k g).wave j = s.wave j := rfl
@[simp] theorem State.setGang_get_block (s : State) (k : Nat) (g : Gang) (j : Nat) : (s.setGang k g).block j = s.block j := rfl
@[simp] theorem State.setGang_get_launch (s : State) (k : Nat) (g : Gang) (j : Nat) : (s.setGang k g).launch j = s.launch j := rfl
@[simp] theorem State.setGang_get_context (s : State) (k : Nat) (g : Gang) (j : Nat) : (s.setGang k g).context j = s.context j := rfl
@[simp] theorem State.setGang_get_ctl (s : State) (k : Nat) (g : Gang) (j : Nat) : (s.setGang k g).ctl j = s.ctl j := rfl
@[simp] theorem State.setGang_get_copy (s : State) (k : Nat) (g : Gang) (j : Nat) : (s.setGang k g).copy j = s.copy j := rfl
@[simp] theorem State.setGang_get_mat (s : State) (k : Nat) (g : Gang) (j : Nat) : (s.setGang k g).mat j = s.mat j := rfl
@[simp] theorem State.setGang_get_palp (s : State) (k : Nat) (g : Gang) (j : Nat) : (s.setGang k g).palp j = s.palp j := rfl
@[simp] theorem State.setGang_get_collOp (s : State) (k : Nat) (g : Gang) (j : Nat) : (s.setGang k g).collOp j = s.collOp j := rfl
@[simp] theorem State.setGang_get_queue (s : State) (k : Nat) (g : Gang) (j : Nat) : (s.setGang k g).queue j = s.queue j := rfl
@[simp] theorem State.setGang_get_clink (s : State) (k : Nat) (g : Gang) (j : Nat) : (s.setGang k g).clink j = s.clink j := rfl
@[simp] theorem State.setGang_get_glink (s : State) (k : Nat) (g : Gang) (j : Nat) : (s.setGang k g).glink j = s.glink j := rfl
@[simp] theorem State.setLaunch_time (s : State) (k : Nat) (l : Launch) : (s.setLaunch k l).time = s.time := rfl
@[simp] theorem State.setLaunch_free (s : State) (k : Nat) (l : Launch) : (s.setLaunch k l).free = s.free := rfl
@[simp] theorem State.setLaunch_agenda (s : State) (k : Nat) (l : Launch) : (s.setLaunch k l).agenda = s.agenda := rfl
@[simp] theorem State.setLaunch_iss (s : State) (k : Nat) (l : Launch) : (s.setLaunch k l).iss = s.iss := rfl
@[simp] theorem State.setLaunch_waves (s : State) (k : Nat) (l : Launch) : (s.setLaunch k l).waves = s.waves := rfl
@[simp] theorem State.setLaunch_blocks (s : State) (k : Nat) (l : Launch) : (s.setLaunch k l).blocks = s.blocks := rfl
@[simp] theorem State.setLaunch_gangs (s : State) (k : Nat) (l : Launch) : (s.setLaunch k l).gangs = s.gangs := rfl
@[simp] theorem State.setLaunch_mem (s : State) (k : Nat) (l : Launch) : (s.setLaunch k l).mem = s.mem := rfl
@[simp] theorem State.setLaunch_hist (s : State) (k : Nat) (l : Launch) : (s.setLaunch k l).hist = s.hist := rfl
@[simp] theorem State.setLaunch_stamp (s : State) (k : Nat) (l : Launch) : (s.setLaunch k l).stamp = s.stamp := rfl
@[simp] theorem State.setLaunch_pubBlk (s : State) (k : Nat) (l : Launch) : (s.setLaunch k l).pubBlk = s.pubBlk := rfl
@[simp] theorem State.setLaunch_pubGang (s : State) (k : Nat) (l : Launch) : (s.setLaunch k l).pubGang = s.pubGang := rfl
@[simp] theorem State.setLaunch_pubDev (s : State) (k : Nat) (l : Launch) : (s.setLaunch k l).pubDev = s.pubDev := rfl
@[simp] theorem State.setLaunch_pubSys (s : State) (k : Nat) (l : Launch) : (s.setLaunch k l).pubSys = s.pubSys := rfl
@[simp] theorem State.setLaunch_loose (s : State) (k : Nat) (l : Launch) : (s.setLaunch k l).loose = s.loose := rfl
@[simp] theorem State.setLaunch_pubs (s : State) (k : Nat) (l : Launch) : (s.setLaunch k l).pubs = s.pubs := rfl
@[simp] theorem State.setLaunch_carry (s : State) (k : Nat) (l : Launch) : (s.setLaunch k l).carry = s.carry := rfl
@[simp] theorem State.setLaunch_barKnown (s : State) (k : Nat) (l : Launch) : (s.setLaunch k l).barKnown = s.barKnown := rfl
@[simp] theorem State.setLaunch_flushed (s : State) (k : Nat) (l : Launch) : (s.setLaunch k l).flushed = s.flushed := rfl
@[simp] theorem State.setLaunch_pubNear (s : State) (k : Nat) (l : Launch) : (s.setLaunch k l).pubNear = s.pubNear := rfl
@[simp] theorem State.setLaunch_pubRem (s : State) (k : Nat) (l : Launch) : (s.setLaunch k l).pubRem = s.pubRem := rfl
@[simp] theorem State.setLaunch_vlines (s : State) (k : Nat) (l : Launch) : (s.setLaunch k l).vlines = s.vlines := rfl
@[simp] theorem State.setLaunch_access (s : State) (k : Nat) (l : Launch) : (s.setLaunch k l).access = s.access := rfl
@[simp] theorem State.setLaunch_bad (s : State) (k : Nat) (l : Launch) : (s.setLaunch k l).bad = s.bad := rfl
@[simp] theorem State.setLaunch_badNames (s : State) (k : Nat) (l : Launch) : (s.setLaunch k l).badNames = s.badNames := rfl
@[simp] theorem State.setLaunch_vault (s : State) (k : Nat) (l : Launch) : (s.setLaunch k l).vault = s.vault := rfl
@[simp] theorem State.setLaunch_parts (s : State) (k : Nat) (l : Launch) : (s.setLaunch k l).parts = s.parts := rfl
@[simp] theorem State.setLaunch_contexts (s : State) (k : Nat) (l : Launch) : (s.setLaunch k l).contexts = s.contexts := rfl
@[simp] theorem State.setLaunch_frames (s : State) (k : Nat) (l : Launch) : (s.setLaunch k l).frames = s.frames := rfl
@[simp] theorem State.setLaunch_tlb (s : State) (k : Nat) (l : Launch) : (s.setLaunch k l).tlb = s.tlb := rfl
@[simp] theorem State.setLaunch_tlb1 (s : State) (k : Nat) (l : Launch) : (s.setLaunch k l).tlb1 = s.tlb1 := rfl
@[simp] theorem State.setLaunch_notices (s : State) (k : Nat) (l : Launch) : (s.setLaunch k l).notices = s.notices := rfl
@[simp] theorem State.setLaunch_serviced (s : State) (k : Nat) (l : Launch) : (s.setLaunch k l).serviced = s.serviced := rfl
@[simp] theorem State.setLaunch_copies (s : State) (k : Nat) (l : Launch) : (s.setLaunch k l).copies = s.copies := rfl
@[simp] theorem State.setLaunch_mats (s : State) (k : Nat) (l : Launch) : (s.setLaunch k l).mats = s.mats := rfl
@[simp] theorem State.setLaunch_palps (s : State) (k : Nat) (l : Launch) : (s.setLaunch k l).palps = s.palps := rfl
@[simp] theorem State.setLaunch_colls (s : State) (k : Nat) (l : Launch) : (s.setLaunch k l).colls = s.colls := rfl
@[simp] theorem State.setLaunch_nextOp (s : State) (k : Nat) (l : Launch) : (s.setLaunch k l).nextOp = s.nextOp := rfl
@[simp] theorem State.setLaunch_hits (s : State) (k : Nat) (l : Launch) : (s.setLaunch k l).hits = s.hits := rfl
@[simp] theorem State.setLaunch_images (s : State) (k : Nat) (l : Launch) : (s.setLaunch k l).images = s.images := rfl
@[simp] theorem State.setLaunch_reports (s : State) (k : Nat) (l : Launch) : (s.setLaunch k l).reports = s.reports := rfl
@[simp] theorem State.setLaunch_ring (s : State) (k : Nat) (l : Launch) : (s.setLaunch k l).ring = s.ring := rfl
@[simp] theorem State.setLaunch_queues (s : State) (k : Nat) (l : Launch) : (s.setLaunch k l).queues = s.queues := rfl
@[simp] theorem State.setLaunch_reqs (s : State) (k : Nat) (l : Launch) : (s.setLaunch k l).reqs = s.reqs := rfl
@[simp] theorem State.setLaunch_replies (s : State) (k : Nat) (l : Launch) : (s.setLaunch k l).replies = s.replies := rfl
@[simp] theorem State.setLaunch_comms (s : State) (k : Nat) (l : Launch) : (s.setLaunch k l).comms = s.comms := rfl
@[simp] theorem State.setLaunch_collBox (s : State) (k : Nat) (l : Launch) : (s.setLaunch k l).collBox = s.collBox := rfl
@[simp] theorem State.setLaunch_objects (s : State) (k : Nat) (l : Launch) : (s.setLaunch k l).objects = s.objects := rfl
@[simp] theorem State.setLaunch_ctls (s : State) (k : Nat) (l : Launch) : (s.setLaunch k l).ctls = s.ctls := rfl
@[simp] theorem State.setLaunch_clinks (s : State) (k : Nat) (l : Launch) : (s.setLaunch k l).clinks = s.clinks := rfl
@[simp] theorem State.setLaunch_sched (s : State) (k : Nat) (l : Launch) : (s.setLaunch k l).sched = s.sched := rfl
@[simp] theorem State.setLaunch_beat (s : State) (k : Nat) (l : Launch) : (s.setLaunch k l).beat = s.beat := rfl
@[simp] theorem State.setLaunch_orders (s : State) (k : Nat) (l : Launch) : (s.setLaunch k l).orders = s.orders := rfl
@[simp] theorem State.setLaunch_nextId (s : State) (k : Nat) (l : Launch) : (s.setLaunch k l).nextId = s.nextId := rfl
@[simp] theorem State.setLaunch_log (s : State) (k : Nat) (l : Launch) : (s.setLaunch k l).log = s.log := rfl
@[simp] theorem State.setLaunch_vectors (s : State) (k : Nat) (l : Launch) : (s.setLaunch k l).vectors = s.vectors := rfl
@[simp] theorem State.setLaunch_msi (s : State) (k : Nat) (l : Launch) : (s.setLaunch k l).msi = s.msi := rfl
@[simp] theorem State.setLaunch_hostData (s : State) (k : Nat) (l : Launch) : (s.setLaunch k l).hostData = s.hostData := rfl
@[simp] theorem State.setLaunch_masks (s : State) (k : Nat) (l : Launch) : (s.setLaunch k l).masks = s.masks := rfl
@[simp] theorem State.setLaunch_glinks (s : State) (k : Nat) (l : Launch) : (s.setLaunch k l).glinks = s.glinks := rfl
@[simp] theorem State.setLaunch_remotes (s : State) (k : Nat) (l : Launch) : (s.setLaunch k l).remotes = s.remotes := rfl
@[simp] theorem State.setLaunch_lost (s : State) (k : Nat) (l : Launch) : (s.setLaunch k l).lost = s.lost := rfl
@[simp] theorem State.setLaunch_power (s : State) (k : Nat) (l : Launch) : (s.setLaunch k l).power = s.power := rfl
@[simp] theorem State.setLaunch_starved (s : State) (k : Nat) (l : Launch) : (s.setLaunch k l).starved = s.starved := rfl
@[simp] theorem State.setLaunch_boot (s : State) (k : Nat) (l : Launch) : (s.setLaunch k l).boot = s.boot := rfl
@[simp] theorem State.setLaunch_get_wave (s : State) (k : Nat) (l : Launch) (j : Nat) : (s.setLaunch k l).wave j = s.wave j := rfl
@[simp] theorem State.setLaunch_get_block (s : State) (k : Nat) (l : Launch) (j : Nat) : (s.setLaunch k l).block j = s.block j := rfl
@[simp] theorem State.setLaunch_get_gang (s : State) (k : Nat) (l : Launch) (j : Nat) : (s.setLaunch k l).gang j = s.gang j := rfl
@[simp] theorem State.setLaunch_get_context (s : State) (k : Nat) (l : Launch) (j : Nat) : (s.setLaunch k l).context j = s.context j := rfl
@[simp] theorem State.setLaunch_get_ctl (s : State) (k : Nat) (l : Launch) (j : Nat) : (s.setLaunch k l).ctl j = s.ctl j := rfl
@[simp] theorem State.setLaunch_get_copy (s : State) (k : Nat) (l : Launch) (j : Nat) : (s.setLaunch k l).copy j = s.copy j := rfl
@[simp] theorem State.setLaunch_get_mat (s : State) (k : Nat) (l : Launch) (j : Nat) : (s.setLaunch k l).mat j = s.mat j := rfl
@[simp] theorem State.setLaunch_get_palp (s : State) (k : Nat) (l : Launch) (j : Nat) : (s.setLaunch k l).palp j = s.palp j := rfl
@[simp] theorem State.setLaunch_get_collOp (s : State) (k : Nat) (l : Launch) (j : Nat) : (s.setLaunch k l).collOp j = s.collOp j := rfl
@[simp] theorem State.setLaunch_get_queue (s : State) (k : Nat) (l : Launch) (j : Nat) : (s.setLaunch k l).queue j = s.queue j := rfl
@[simp] theorem State.setLaunch_get_clink (s : State) (k : Nat) (l : Launch) (j : Nat) : (s.setLaunch k l).clink j = s.clink j := rfl
@[simp] theorem State.setLaunch_get_glink (s : State) (k : Nat) (l : Launch) (j : Nat) : (s.setLaunch k l).glink j = s.glink j := rfl
@[simp] theorem State.setCtl_time (s : State) (k : Nat) (c : CtlCore) : (s.setCtl k c).time = s.time := rfl
@[simp] theorem State.setCtl_free (s : State) (k : Nat) (c : CtlCore) : (s.setCtl k c).free = s.free := rfl
@[simp] theorem State.setCtl_agenda (s : State) (k : Nat) (c : CtlCore) : (s.setCtl k c).agenda = s.agenda := rfl
@[simp] theorem State.setCtl_iss (s : State) (k : Nat) (c : CtlCore) : (s.setCtl k c).iss = s.iss := rfl
@[simp] theorem State.setCtl_waves (s : State) (k : Nat) (c : CtlCore) : (s.setCtl k c).waves = s.waves := rfl
@[simp] theorem State.setCtl_blocks (s : State) (k : Nat) (c : CtlCore) : (s.setCtl k c).blocks = s.blocks := rfl
@[simp] theorem State.setCtl_gangs (s : State) (k : Nat) (c : CtlCore) : (s.setCtl k c).gangs = s.gangs := rfl
@[simp] theorem State.setCtl_launches (s : State) (k : Nat) (c : CtlCore) : (s.setCtl k c).launches = s.launches := rfl
@[simp] theorem State.setCtl_mem (s : State) (k : Nat) (c : CtlCore) : (s.setCtl k c).mem = s.mem := rfl
@[simp] theorem State.setCtl_hist (s : State) (k : Nat) (c : CtlCore) : (s.setCtl k c).hist = s.hist := rfl
@[simp] theorem State.setCtl_stamp (s : State) (k : Nat) (c : CtlCore) : (s.setCtl k c).stamp = s.stamp := rfl
@[simp] theorem State.setCtl_pubBlk (s : State) (k : Nat) (c : CtlCore) : (s.setCtl k c).pubBlk = s.pubBlk := rfl
@[simp] theorem State.setCtl_pubGang (s : State) (k : Nat) (c : CtlCore) : (s.setCtl k c).pubGang = s.pubGang := rfl
@[simp] theorem State.setCtl_pubDev (s : State) (k : Nat) (c : CtlCore) : (s.setCtl k c).pubDev = s.pubDev := rfl
@[simp] theorem State.setCtl_pubSys (s : State) (k : Nat) (c : CtlCore) : (s.setCtl k c).pubSys = s.pubSys := rfl
@[simp] theorem State.setCtl_loose (s : State) (k : Nat) (c : CtlCore) : (s.setCtl k c).loose = s.loose := rfl
@[simp] theorem State.setCtl_pubs (s : State) (k : Nat) (c : CtlCore) : (s.setCtl k c).pubs = s.pubs := rfl
@[simp] theorem State.setCtl_carry (s : State) (k : Nat) (c : CtlCore) : (s.setCtl k c).carry = s.carry := rfl
@[simp] theorem State.setCtl_barKnown (s : State) (k : Nat) (c : CtlCore) : (s.setCtl k c).barKnown = s.barKnown := rfl
@[simp] theorem State.setCtl_flushed (s : State) (k : Nat) (c : CtlCore) : (s.setCtl k c).flushed = s.flushed := rfl
@[simp] theorem State.setCtl_pubNear (s : State) (k : Nat) (c : CtlCore) : (s.setCtl k c).pubNear = s.pubNear := rfl
@[simp] theorem State.setCtl_pubRem (s : State) (k : Nat) (c : CtlCore) : (s.setCtl k c).pubRem = s.pubRem := rfl
@[simp] theorem State.setCtl_vlines (s : State) (k : Nat) (c : CtlCore) : (s.setCtl k c).vlines = s.vlines := rfl
@[simp] theorem State.setCtl_access (s : State) (k : Nat) (c : CtlCore) : (s.setCtl k c).access = s.access := rfl
@[simp] theorem State.setCtl_bad (s : State) (k : Nat) (c : CtlCore) : (s.setCtl k c).bad = s.bad := rfl
@[simp] theorem State.setCtl_badNames (s : State) (k : Nat) (c : CtlCore) : (s.setCtl k c).badNames = s.badNames := rfl
@[simp] theorem State.setCtl_vault (s : State) (k : Nat) (c : CtlCore) : (s.setCtl k c).vault = s.vault := rfl
@[simp] theorem State.setCtl_parts (s : State) (k : Nat) (c : CtlCore) : (s.setCtl k c).parts = s.parts := rfl
@[simp] theorem State.setCtl_contexts (s : State) (k : Nat) (c : CtlCore) : (s.setCtl k c).contexts = s.contexts := rfl
@[simp] theorem State.setCtl_frames (s : State) (k : Nat) (c : CtlCore) : (s.setCtl k c).frames = s.frames := rfl
@[simp] theorem State.setCtl_tlb (s : State) (k : Nat) (c : CtlCore) : (s.setCtl k c).tlb = s.tlb := rfl
@[simp] theorem State.setCtl_tlb1 (s : State) (k : Nat) (c : CtlCore) : (s.setCtl k c).tlb1 = s.tlb1 := rfl
@[simp] theorem State.setCtl_notices (s : State) (k : Nat) (c : CtlCore) : (s.setCtl k c).notices = s.notices := rfl
@[simp] theorem State.setCtl_serviced (s : State) (k : Nat) (c : CtlCore) : (s.setCtl k c).serviced = s.serviced := rfl
@[simp] theorem State.setCtl_copies (s : State) (k : Nat) (c : CtlCore) : (s.setCtl k c).copies = s.copies := rfl
@[simp] theorem State.setCtl_mats (s : State) (k : Nat) (c : CtlCore) : (s.setCtl k c).mats = s.mats := rfl
@[simp] theorem State.setCtl_palps (s : State) (k : Nat) (c : CtlCore) : (s.setCtl k c).palps = s.palps := rfl
@[simp] theorem State.setCtl_colls (s : State) (k : Nat) (c : CtlCore) : (s.setCtl k c).colls = s.colls := rfl
@[simp] theorem State.setCtl_nextOp (s : State) (k : Nat) (c : CtlCore) : (s.setCtl k c).nextOp = s.nextOp := rfl
@[simp] theorem State.setCtl_hits (s : State) (k : Nat) (c : CtlCore) : (s.setCtl k c).hits = s.hits := rfl
@[simp] theorem State.setCtl_images (s : State) (k : Nat) (c : CtlCore) : (s.setCtl k c).images = s.images := rfl
@[simp] theorem State.setCtl_reports (s : State) (k : Nat) (c : CtlCore) : (s.setCtl k c).reports = s.reports := rfl
@[simp] theorem State.setCtl_ring (s : State) (k : Nat) (c : CtlCore) : (s.setCtl k c).ring = s.ring := rfl
@[simp] theorem State.setCtl_queues (s : State) (k : Nat) (c : CtlCore) : (s.setCtl k c).queues = s.queues := rfl
@[simp] theorem State.setCtl_reqs (s : State) (k : Nat) (c : CtlCore) : (s.setCtl k c).reqs = s.reqs := rfl
@[simp] theorem State.setCtl_replies (s : State) (k : Nat) (c : CtlCore) : (s.setCtl k c).replies = s.replies := rfl
@[simp] theorem State.setCtl_comms (s : State) (k : Nat) (c : CtlCore) : (s.setCtl k c).comms = s.comms := rfl
@[simp] theorem State.setCtl_collBox (s : State) (k : Nat) (c : CtlCore) : (s.setCtl k c).collBox = s.collBox := rfl
@[simp] theorem State.setCtl_objects (s : State) (k : Nat) (c : CtlCore) : (s.setCtl k c).objects = s.objects := rfl
@[simp] theorem State.setCtl_clinks (s : State) (k : Nat) (c : CtlCore) : (s.setCtl k c).clinks = s.clinks := rfl
@[simp] theorem State.setCtl_sched (s : State) (k : Nat) (c : CtlCore) : (s.setCtl k c).sched = s.sched := rfl
@[simp] theorem State.setCtl_beat (s : State) (k : Nat) (c : CtlCore) : (s.setCtl k c).beat = s.beat := rfl
@[simp] theorem State.setCtl_orders (s : State) (k : Nat) (c : CtlCore) : (s.setCtl k c).orders = s.orders := rfl
@[simp] theorem State.setCtl_nextId (s : State) (k : Nat) (c : CtlCore) : (s.setCtl k c).nextId = s.nextId := rfl
@[simp] theorem State.setCtl_log (s : State) (k : Nat) (c : CtlCore) : (s.setCtl k c).log = s.log := rfl
@[simp] theorem State.setCtl_vectors (s : State) (k : Nat) (c : CtlCore) : (s.setCtl k c).vectors = s.vectors := rfl
@[simp] theorem State.setCtl_msi (s : State) (k : Nat) (c : CtlCore) : (s.setCtl k c).msi = s.msi := rfl
@[simp] theorem State.setCtl_hostData (s : State) (k : Nat) (c : CtlCore) : (s.setCtl k c).hostData = s.hostData := rfl
@[simp] theorem State.setCtl_masks (s : State) (k : Nat) (c : CtlCore) : (s.setCtl k c).masks = s.masks := rfl
@[simp] theorem State.setCtl_glinks (s : State) (k : Nat) (c : CtlCore) : (s.setCtl k c).glinks = s.glinks := rfl
@[simp] theorem State.setCtl_remotes (s : State) (k : Nat) (c : CtlCore) : (s.setCtl k c).remotes = s.remotes := rfl
@[simp] theorem State.setCtl_lost (s : State) (k : Nat) (c : CtlCore) : (s.setCtl k c).lost = s.lost := rfl
@[simp] theorem State.setCtl_power (s : State) (k : Nat) (c : CtlCore) : (s.setCtl k c).power = s.power := rfl
@[simp] theorem State.setCtl_starved (s : State) (k : Nat) (c : CtlCore) : (s.setCtl k c).starved = s.starved := rfl
@[simp] theorem State.setCtl_boot (s : State) (k : Nat) (c : CtlCore) : (s.setCtl k c).boot = s.boot := rfl
@[simp] theorem State.setCtl_get_wave (s : State) (k : Nat) (c : CtlCore) (j : Nat) : (s.setCtl k c).wave j = s.wave j := rfl
@[simp] theorem State.setCtl_get_block (s : State) (k : Nat) (c : CtlCore) (j : Nat) : (s.setCtl k c).block j = s.block j := rfl
@[simp] theorem State.setCtl_get_gang (s : State) (k : Nat) (c : CtlCore) (j : Nat) : (s.setCtl k c).gang j = s.gang j := rfl
@[simp] theorem State.setCtl_get_launch (s : State) (k : Nat) (c : CtlCore) (j : Nat) : (s.setCtl k c).launch j = s.launch j := rfl
@[simp] theorem State.setCtl_get_context (s : State) (k : Nat) (c : CtlCore) (j : Nat) : (s.setCtl k c).context j = s.context j := rfl
@[simp] theorem State.setCtl_get_copy (s : State) (k : Nat) (c : CtlCore) (j : Nat) : (s.setCtl k c).copy j = s.copy j := rfl
@[simp] theorem State.setCtl_get_mat (s : State) (k : Nat) (c : CtlCore) (j : Nat) : (s.setCtl k c).mat j = s.mat j := rfl
@[simp] theorem State.setCtl_get_palp (s : State) (k : Nat) (c : CtlCore) (j : Nat) : (s.setCtl k c).palp j = s.palp j := rfl
@[simp] theorem State.setCtl_get_collOp (s : State) (k : Nat) (c : CtlCore) (j : Nat) : (s.setCtl k c).collOp j = s.collOp j := rfl
@[simp] theorem State.setCtl_get_queue (s : State) (k : Nat) (c : CtlCore) (j : Nat) : (s.setCtl k c).queue j = s.queue j := rfl
@[simp] theorem State.setCtl_get_clink (s : State) (k : Nat) (c : CtlCore) (j : Nat) : (s.setCtl k c).clink j = s.clink j := rfl
@[simp] theorem State.setCtl_get_glink (s : State) (k : Nat) (c : CtlCore) (j : Nat) : (s.setCtl k c).glink j = s.glink j := rfl
@[simp] theorem State.setCopy_time (s : State) (k : Nat) (c : CopyOp) : (s.setCopy k c).time = s.time := rfl
@[simp] theorem State.setCopy_free (s : State) (k : Nat) (c : CopyOp) : (s.setCopy k c).free = s.free := rfl
@[simp] theorem State.setCopy_agenda (s : State) (k : Nat) (c : CopyOp) : (s.setCopy k c).agenda = s.agenda := rfl
@[simp] theorem State.setCopy_iss (s : State) (k : Nat) (c : CopyOp) : (s.setCopy k c).iss = s.iss := rfl
@[simp] theorem State.setCopy_waves (s : State) (k : Nat) (c : CopyOp) : (s.setCopy k c).waves = s.waves := rfl
@[simp] theorem State.setCopy_blocks (s : State) (k : Nat) (c : CopyOp) : (s.setCopy k c).blocks = s.blocks := rfl
@[simp] theorem State.setCopy_gangs (s : State) (k : Nat) (c : CopyOp) : (s.setCopy k c).gangs = s.gangs := rfl
@[simp] theorem State.setCopy_launches (s : State) (k : Nat) (c : CopyOp) : (s.setCopy k c).launches = s.launches := rfl
@[simp] theorem State.setCopy_mem (s : State) (k : Nat) (c : CopyOp) : (s.setCopy k c).mem = s.mem := rfl
@[simp] theorem State.setCopy_hist (s : State) (k : Nat) (c : CopyOp) : (s.setCopy k c).hist = s.hist := rfl
@[simp] theorem State.setCopy_stamp (s : State) (k : Nat) (c : CopyOp) : (s.setCopy k c).stamp = s.stamp := rfl
@[simp] theorem State.setCopy_pubBlk (s : State) (k : Nat) (c : CopyOp) : (s.setCopy k c).pubBlk = s.pubBlk := rfl
@[simp] theorem State.setCopy_pubGang (s : State) (k : Nat) (c : CopyOp) : (s.setCopy k c).pubGang = s.pubGang := rfl
@[simp] theorem State.setCopy_pubDev (s : State) (k : Nat) (c : CopyOp) : (s.setCopy k c).pubDev = s.pubDev := rfl
@[simp] theorem State.setCopy_pubSys (s : State) (k : Nat) (c : CopyOp) : (s.setCopy k c).pubSys = s.pubSys := rfl
@[simp] theorem State.setCopy_loose (s : State) (k : Nat) (c : CopyOp) : (s.setCopy k c).loose = s.loose := rfl
@[simp] theorem State.setCopy_pubs (s : State) (k : Nat) (c : CopyOp) : (s.setCopy k c).pubs = s.pubs := rfl
@[simp] theorem State.setCopy_carry (s : State) (k : Nat) (c : CopyOp) : (s.setCopy k c).carry = s.carry := rfl
@[simp] theorem State.setCopy_barKnown (s : State) (k : Nat) (c : CopyOp) : (s.setCopy k c).barKnown = s.barKnown := rfl
@[simp] theorem State.setCopy_flushed (s : State) (k : Nat) (c : CopyOp) : (s.setCopy k c).flushed = s.flushed := rfl
@[simp] theorem State.setCopy_pubNear (s : State) (k : Nat) (c : CopyOp) : (s.setCopy k c).pubNear = s.pubNear := rfl
@[simp] theorem State.setCopy_pubRem (s : State) (k : Nat) (c : CopyOp) : (s.setCopy k c).pubRem = s.pubRem := rfl
@[simp] theorem State.setCopy_vlines (s : State) (k : Nat) (c : CopyOp) : (s.setCopy k c).vlines = s.vlines := rfl
@[simp] theorem State.setCopy_access (s : State) (k : Nat) (c : CopyOp) : (s.setCopy k c).access = s.access := rfl
@[simp] theorem State.setCopy_bad (s : State) (k : Nat) (c : CopyOp) : (s.setCopy k c).bad = s.bad := rfl
@[simp] theorem State.setCopy_badNames (s : State) (k : Nat) (c : CopyOp) : (s.setCopy k c).badNames = s.badNames := rfl
@[simp] theorem State.setCopy_vault (s : State) (k : Nat) (c : CopyOp) : (s.setCopy k c).vault = s.vault := rfl
@[simp] theorem State.setCopy_parts (s : State) (k : Nat) (c : CopyOp) : (s.setCopy k c).parts = s.parts := rfl
@[simp] theorem State.setCopy_contexts (s : State) (k : Nat) (c : CopyOp) : (s.setCopy k c).contexts = s.contexts := rfl
@[simp] theorem State.setCopy_frames (s : State) (k : Nat) (c : CopyOp) : (s.setCopy k c).frames = s.frames := rfl
@[simp] theorem State.setCopy_tlb (s : State) (k : Nat) (c : CopyOp) : (s.setCopy k c).tlb = s.tlb := rfl
@[simp] theorem State.setCopy_tlb1 (s : State) (k : Nat) (c : CopyOp) : (s.setCopy k c).tlb1 = s.tlb1 := rfl
@[simp] theorem State.setCopy_notices (s : State) (k : Nat) (c : CopyOp) : (s.setCopy k c).notices = s.notices := rfl
@[simp] theorem State.setCopy_serviced (s : State) (k : Nat) (c : CopyOp) : (s.setCopy k c).serviced = s.serviced := rfl
@[simp] theorem State.setCopy_mats (s : State) (k : Nat) (c : CopyOp) : (s.setCopy k c).mats = s.mats := rfl
@[simp] theorem State.setCopy_palps (s : State) (k : Nat) (c : CopyOp) : (s.setCopy k c).palps = s.palps := rfl
@[simp] theorem State.setCopy_colls (s : State) (k : Nat) (c : CopyOp) : (s.setCopy k c).colls = s.colls := rfl
@[simp] theorem State.setCopy_nextOp (s : State) (k : Nat) (c : CopyOp) : (s.setCopy k c).nextOp = s.nextOp := rfl
@[simp] theorem State.setCopy_hits (s : State) (k : Nat) (c : CopyOp) : (s.setCopy k c).hits = s.hits := rfl
@[simp] theorem State.setCopy_images (s : State) (k : Nat) (c : CopyOp) : (s.setCopy k c).images = s.images := rfl
@[simp] theorem State.setCopy_reports (s : State) (k : Nat) (c : CopyOp) : (s.setCopy k c).reports = s.reports := rfl
@[simp] theorem State.setCopy_ring (s : State) (k : Nat) (c : CopyOp) : (s.setCopy k c).ring = s.ring := rfl
@[simp] theorem State.setCopy_queues (s : State) (k : Nat) (c : CopyOp) : (s.setCopy k c).queues = s.queues := rfl
@[simp] theorem State.setCopy_reqs (s : State) (k : Nat) (c : CopyOp) : (s.setCopy k c).reqs = s.reqs := rfl
@[simp] theorem State.setCopy_replies (s : State) (k : Nat) (c : CopyOp) : (s.setCopy k c).replies = s.replies := rfl
@[simp] theorem State.setCopy_comms (s : State) (k : Nat) (c : CopyOp) : (s.setCopy k c).comms = s.comms := rfl
@[simp] theorem State.setCopy_collBox (s : State) (k : Nat) (c : CopyOp) : (s.setCopy k c).collBox = s.collBox := rfl
@[simp] theorem State.setCopy_objects (s : State) (k : Nat) (c : CopyOp) : (s.setCopy k c).objects = s.objects := rfl
@[simp] theorem State.setCopy_ctls (s : State) (k : Nat) (c : CopyOp) : (s.setCopy k c).ctls = s.ctls := rfl
@[simp] theorem State.setCopy_clinks (s : State) (k : Nat) (c : CopyOp) : (s.setCopy k c).clinks = s.clinks := rfl
@[simp] theorem State.setCopy_sched (s : State) (k : Nat) (c : CopyOp) : (s.setCopy k c).sched = s.sched := rfl
@[simp] theorem State.setCopy_beat (s : State) (k : Nat) (c : CopyOp) : (s.setCopy k c).beat = s.beat := rfl
@[simp] theorem State.setCopy_orders (s : State) (k : Nat) (c : CopyOp) : (s.setCopy k c).orders = s.orders := rfl
@[simp] theorem State.setCopy_nextId (s : State) (k : Nat) (c : CopyOp) : (s.setCopy k c).nextId = s.nextId := rfl
@[simp] theorem State.setCopy_log (s : State) (k : Nat) (c : CopyOp) : (s.setCopy k c).log = s.log := rfl
@[simp] theorem State.setCopy_vectors (s : State) (k : Nat) (c : CopyOp) : (s.setCopy k c).vectors = s.vectors := rfl
@[simp] theorem State.setCopy_msi (s : State) (k : Nat) (c : CopyOp) : (s.setCopy k c).msi = s.msi := rfl
@[simp] theorem State.setCopy_hostData (s : State) (k : Nat) (c : CopyOp) : (s.setCopy k c).hostData = s.hostData := rfl
@[simp] theorem State.setCopy_masks (s : State) (k : Nat) (c : CopyOp) : (s.setCopy k c).masks = s.masks := rfl
@[simp] theorem State.setCopy_glinks (s : State) (k : Nat) (c : CopyOp) : (s.setCopy k c).glinks = s.glinks := rfl
@[simp] theorem State.setCopy_remotes (s : State) (k : Nat) (c : CopyOp) : (s.setCopy k c).remotes = s.remotes := rfl
@[simp] theorem State.setCopy_lost (s : State) (k : Nat) (c : CopyOp) : (s.setCopy k c).lost = s.lost := rfl
@[simp] theorem State.setCopy_power (s : State) (k : Nat) (c : CopyOp) : (s.setCopy k c).power = s.power := rfl
@[simp] theorem State.setCopy_starved (s : State) (k : Nat) (c : CopyOp) : (s.setCopy k c).starved = s.starved := rfl
@[simp] theorem State.setCopy_boot (s : State) (k : Nat) (c : CopyOp) : (s.setCopy k c).boot = s.boot := rfl
@[simp] theorem State.setCopy_get_wave (s : State) (k : Nat) (c : CopyOp) (j : Nat) : (s.setCopy k c).wave j = s.wave j := rfl
@[simp] theorem State.setCopy_get_block (s : State) (k : Nat) (c : CopyOp) (j : Nat) : (s.setCopy k c).block j = s.block j := rfl
@[simp] theorem State.setCopy_get_gang (s : State) (k : Nat) (c : CopyOp) (j : Nat) : (s.setCopy k c).gang j = s.gang j := rfl
@[simp] theorem State.setCopy_get_launch (s : State) (k : Nat) (c : CopyOp) (j : Nat) : (s.setCopy k c).launch j = s.launch j := rfl
@[simp] theorem State.setCopy_get_context (s : State) (k : Nat) (c : CopyOp) (j : Nat) : (s.setCopy k c).context j = s.context j := rfl
@[simp] theorem State.setCopy_get_ctl (s : State) (k : Nat) (c : CopyOp) (j : Nat) : (s.setCopy k c).ctl j = s.ctl j := rfl
@[simp] theorem State.setCopy_get_mat (s : State) (k : Nat) (c : CopyOp) (j : Nat) : (s.setCopy k c).mat j = s.mat j := rfl
@[simp] theorem State.setCopy_get_palp (s : State) (k : Nat) (c : CopyOp) (j : Nat) : (s.setCopy k c).palp j = s.palp j := rfl
@[simp] theorem State.setCopy_get_collOp (s : State) (k : Nat) (c : CopyOp) (j : Nat) : (s.setCopy k c).collOp j = s.collOp j := rfl
@[simp] theorem State.setCopy_get_queue (s : State) (k : Nat) (c : CopyOp) (j : Nat) : (s.setCopy k c).queue j = s.queue j := rfl
@[simp] theorem State.setCopy_get_clink (s : State) (k : Nat) (c : CopyOp) (j : Nat) : (s.setCopy k c).clink j = s.clink j := rfl
@[simp] theorem State.setCopy_get_glink (s : State) (k : Nat) (c : CopyOp) (j : Nat) : (s.setCopy k c).glink j = s.glink j := rfl
@[simp] theorem State.setMat_time (s : State) (k : Nat) (m : MatOp) : (s.setMat k m).time = s.time := rfl
@[simp] theorem State.setMat_free (s : State) (k : Nat) (m : MatOp) : (s.setMat k m).free = s.free := rfl
@[simp] theorem State.setMat_agenda (s : State) (k : Nat) (m : MatOp) : (s.setMat k m).agenda = s.agenda := rfl
@[simp] theorem State.setMat_iss (s : State) (k : Nat) (m : MatOp) : (s.setMat k m).iss = s.iss := rfl
@[simp] theorem State.setMat_waves (s : State) (k : Nat) (m : MatOp) : (s.setMat k m).waves = s.waves := rfl
@[simp] theorem State.setMat_blocks (s : State) (k : Nat) (m : MatOp) : (s.setMat k m).blocks = s.blocks := rfl
@[simp] theorem State.setMat_gangs (s : State) (k : Nat) (m : MatOp) : (s.setMat k m).gangs = s.gangs := rfl
@[simp] theorem State.setMat_launches (s : State) (k : Nat) (m : MatOp) : (s.setMat k m).launches = s.launches := rfl
@[simp] theorem State.setMat_mem (s : State) (k : Nat) (m : MatOp) : (s.setMat k m).mem = s.mem := rfl
@[simp] theorem State.setMat_hist (s : State) (k : Nat) (m : MatOp) : (s.setMat k m).hist = s.hist := rfl
@[simp] theorem State.setMat_stamp (s : State) (k : Nat) (m : MatOp) : (s.setMat k m).stamp = s.stamp := rfl
@[simp] theorem State.setMat_pubBlk (s : State) (k : Nat) (m : MatOp) : (s.setMat k m).pubBlk = s.pubBlk := rfl
@[simp] theorem State.setMat_pubGang (s : State) (k : Nat) (m : MatOp) : (s.setMat k m).pubGang = s.pubGang := rfl
@[simp] theorem State.setMat_pubDev (s : State) (k : Nat) (m : MatOp) : (s.setMat k m).pubDev = s.pubDev := rfl
@[simp] theorem State.setMat_pubSys (s : State) (k : Nat) (m : MatOp) : (s.setMat k m).pubSys = s.pubSys := rfl
@[simp] theorem State.setMat_loose (s : State) (k : Nat) (m : MatOp) : (s.setMat k m).loose = s.loose := rfl
@[simp] theorem State.setMat_pubs (s : State) (k : Nat) (m : MatOp) : (s.setMat k m).pubs = s.pubs := rfl
@[simp] theorem State.setMat_carry (s : State) (k : Nat) (m : MatOp) : (s.setMat k m).carry = s.carry := rfl
@[simp] theorem State.setMat_barKnown (s : State) (k : Nat) (m : MatOp) : (s.setMat k m).barKnown = s.barKnown := rfl
@[simp] theorem State.setMat_flushed (s : State) (k : Nat) (m : MatOp) : (s.setMat k m).flushed = s.flushed := rfl
@[simp] theorem State.setMat_pubNear (s : State) (k : Nat) (m : MatOp) : (s.setMat k m).pubNear = s.pubNear := rfl
@[simp] theorem State.setMat_pubRem (s : State) (k : Nat) (m : MatOp) : (s.setMat k m).pubRem = s.pubRem := rfl
@[simp] theorem State.setMat_vlines (s : State) (k : Nat) (m : MatOp) : (s.setMat k m).vlines = s.vlines := rfl
@[simp] theorem State.setMat_access (s : State) (k : Nat) (m : MatOp) : (s.setMat k m).access = s.access := rfl
@[simp] theorem State.setMat_bad (s : State) (k : Nat) (m : MatOp) : (s.setMat k m).bad = s.bad := rfl
@[simp] theorem State.setMat_badNames (s : State) (k : Nat) (m : MatOp) : (s.setMat k m).badNames = s.badNames := rfl
@[simp] theorem State.setMat_vault (s : State) (k : Nat) (m : MatOp) : (s.setMat k m).vault = s.vault := rfl
@[simp] theorem State.setMat_parts (s : State) (k : Nat) (m : MatOp) : (s.setMat k m).parts = s.parts := rfl
@[simp] theorem State.setMat_contexts (s : State) (k : Nat) (m : MatOp) : (s.setMat k m).contexts = s.contexts := rfl
@[simp] theorem State.setMat_frames (s : State) (k : Nat) (m : MatOp) : (s.setMat k m).frames = s.frames := rfl
@[simp] theorem State.setMat_tlb (s : State) (k : Nat) (m : MatOp) : (s.setMat k m).tlb = s.tlb := rfl
@[simp] theorem State.setMat_tlb1 (s : State) (k : Nat) (m : MatOp) : (s.setMat k m).tlb1 = s.tlb1 := rfl
@[simp] theorem State.setMat_notices (s : State) (k : Nat) (m : MatOp) : (s.setMat k m).notices = s.notices := rfl
@[simp] theorem State.setMat_serviced (s : State) (k : Nat) (m : MatOp) : (s.setMat k m).serviced = s.serviced := rfl
@[simp] theorem State.setMat_copies (s : State) (k : Nat) (m : MatOp) : (s.setMat k m).copies = s.copies := rfl
@[simp] theorem State.setMat_palps (s : State) (k : Nat) (m : MatOp) : (s.setMat k m).palps = s.palps := rfl
@[simp] theorem State.setMat_colls (s : State) (k : Nat) (m : MatOp) : (s.setMat k m).colls = s.colls := rfl
@[simp] theorem State.setMat_nextOp (s : State) (k : Nat) (m : MatOp) : (s.setMat k m).nextOp = s.nextOp := rfl
@[simp] theorem State.setMat_hits (s : State) (k : Nat) (m : MatOp) : (s.setMat k m).hits = s.hits := rfl
@[simp] theorem State.setMat_images (s : State) (k : Nat) (m : MatOp) : (s.setMat k m).images = s.images := rfl
@[simp] theorem State.setMat_reports (s : State) (k : Nat) (m : MatOp) : (s.setMat k m).reports = s.reports := rfl
@[simp] theorem State.setMat_ring (s : State) (k : Nat) (m : MatOp) : (s.setMat k m).ring = s.ring := rfl
@[simp] theorem State.setMat_queues (s : State) (k : Nat) (m : MatOp) : (s.setMat k m).queues = s.queues := rfl
@[simp] theorem State.setMat_reqs (s : State) (k : Nat) (m : MatOp) : (s.setMat k m).reqs = s.reqs := rfl
@[simp] theorem State.setMat_replies (s : State) (k : Nat) (m : MatOp) : (s.setMat k m).replies = s.replies := rfl
@[simp] theorem State.setMat_comms (s : State) (k : Nat) (m : MatOp) : (s.setMat k m).comms = s.comms := rfl
@[simp] theorem State.setMat_collBox (s : State) (k : Nat) (m : MatOp) : (s.setMat k m).collBox = s.collBox := rfl
@[simp] theorem State.setMat_objects (s : State) (k : Nat) (m : MatOp) : (s.setMat k m).objects = s.objects := rfl
@[simp] theorem State.setMat_ctls (s : State) (k : Nat) (m : MatOp) : (s.setMat k m).ctls = s.ctls := rfl
@[simp] theorem State.setMat_clinks (s : State) (k : Nat) (m : MatOp) : (s.setMat k m).clinks = s.clinks := rfl
@[simp] theorem State.setMat_sched (s : State) (k : Nat) (m : MatOp) : (s.setMat k m).sched = s.sched := rfl
@[simp] theorem State.setMat_beat (s : State) (k : Nat) (m : MatOp) : (s.setMat k m).beat = s.beat := rfl
@[simp] theorem State.setMat_orders (s : State) (k : Nat) (m : MatOp) : (s.setMat k m).orders = s.orders := rfl
@[simp] theorem State.setMat_nextId (s : State) (k : Nat) (m : MatOp) : (s.setMat k m).nextId = s.nextId := rfl
@[simp] theorem State.setMat_log (s : State) (k : Nat) (m : MatOp) : (s.setMat k m).log = s.log := rfl
@[simp] theorem State.setMat_vectors (s : State) (k : Nat) (m : MatOp) : (s.setMat k m).vectors = s.vectors := rfl
@[simp] theorem State.setMat_msi (s : State) (k : Nat) (m : MatOp) : (s.setMat k m).msi = s.msi := rfl
@[simp] theorem State.setMat_hostData (s : State) (k : Nat) (m : MatOp) : (s.setMat k m).hostData = s.hostData := rfl
@[simp] theorem State.setMat_masks (s : State) (k : Nat) (m : MatOp) : (s.setMat k m).masks = s.masks := rfl
@[simp] theorem State.setMat_glinks (s : State) (k : Nat) (m : MatOp) : (s.setMat k m).glinks = s.glinks := rfl
@[simp] theorem State.setMat_remotes (s : State) (k : Nat) (m : MatOp) : (s.setMat k m).remotes = s.remotes := rfl
@[simp] theorem State.setMat_lost (s : State) (k : Nat) (m : MatOp) : (s.setMat k m).lost = s.lost := rfl
@[simp] theorem State.setMat_power (s : State) (k : Nat) (m : MatOp) : (s.setMat k m).power = s.power := rfl
@[simp] theorem State.setMat_starved (s : State) (k : Nat) (m : MatOp) : (s.setMat k m).starved = s.starved := rfl
@[simp] theorem State.setMat_boot (s : State) (k : Nat) (m : MatOp) : (s.setMat k m).boot = s.boot := rfl
@[simp] theorem State.setMat_get_wave (s : State) (k : Nat) (m : MatOp) (j : Nat) : (s.setMat k m).wave j = s.wave j := rfl
@[simp] theorem State.setMat_get_block (s : State) (k : Nat) (m : MatOp) (j : Nat) : (s.setMat k m).block j = s.block j := rfl
@[simp] theorem State.setMat_get_gang (s : State) (k : Nat) (m : MatOp) (j : Nat) : (s.setMat k m).gang j = s.gang j := rfl
@[simp] theorem State.setMat_get_launch (s : State) (k : Nat) (m : MatOp) (j : Nat) : (s.setMat k m).launch j = s.launch j := rfl
@[simp] theorem State.setMat_get_context (s : State) (k : Nat) (m : MatOp) (j : Nat) : (s.setMat k m).context j = s.context j := rfl
@[simp] theorem State.setMat_get_ctl (s : State) (k : Nat) (m : MatOp) (j : Nat) : (s.setMat k m).ctl j = s.ctl j := rfl
@[simp] theorem State.setMat_get_copy (s : State) (k : Nat) (m : MatOp) (j : Nat) : (s.setMat k m).copy j = s.copy j := rfl
@[simp] theorem State.setMat_get_palp (s : State) (k : Nat) (m : MatOp) (j : Nat) : (s.setMat k m).palp j = s.palp j := rfl
@[simp] theorem State.setMat_get_collOp (s : State) (k : Nat) (m : MatOp) (j : Nat) : (s.setMat k m).collOp j = s.collOp j := rfl
@[simp] theorem State.setMat_get_queue (s : State) (k : Nat) (m : MatOp) (j : Nat) : (s.setMat k m).queue j = s.queue j := rfl
@[simp] theorem State.setMat_get_clink (s : State) (k : Nat) (m : MatOp) (j : Nat) : (s.setMat k m).clink j = s.clink j := rfl
@[simp] theorem State.setMat_get_glink (s : State) (k : Nat) (m : MatOp) (j : Nat) : (s.setMat k m).glink j = s.glink j := rfl
@[simp] theorem State.setPalp_time (s : State) (k : Nat) (p : PalpOp) : (s.setPalp k p).time = s.time := rfl
@[simp] theorem State.setPalp_free (s : State) (k : Nat) (p : PalpOp) : (s.setPalp k p).free = s.free := rfl
@[simp] theorem State.setPalp_agenda (s : State) (k : Nat) (p : PalpOp) : (s.setPalp k p).agenda = s.agenda := rfl
@[simp] theorem State.setPalp_iss (s : State) (k : Nat) (p : PalpOp) : (s.setPalp k p).iss = s.iss := rfl
@[simp] theorem State.setPalp_waves (s : State) (k : Nat) (p : PalpOp) : (s.setPalp k p).waves = s.waves := rfl
@[simp] theorem State.setPalp_blocks (s : State) (k : Nat) (p : PalpOp) : (s.setPalp k p).blocks = s.blocks := rfl
@[simp] theorem State.setPalp_gangs (s : State) (k : Nat) (p : PalpOp) : (s.setPalp k p).gangs = s.gangs := rfl
@[simp] theorem State.setPalp_launches (s : State) (k : Nat) (p : PalpOp) : (s.setPalp k p).launches = s.launches := rfl
@[simp] theorem State.setPalp_mem (s : State) (k : Nat) (p : PalpOp) : (s.setPalp k p).mem = s.mem := rfl
@[simp] theorem State.setPalp_hist (s : State) (k : Nat) (p : PalpOp) : (s.setPalp k p).hist = s.hist := rfl
@[simp] theorem State.setPalp_stamp (s : State) (k : Nat) (p : PalpOp) : (s.setPalp k p).stamp = s.stamp := rfl
@[simp] theorem State.setPalp_pubBlk (s : State) (k : Nat) (p : PalpOp) : (s.setPalp k p).pubBlk = s.pubBlk := rfl
@[simp] theorem State.setPalp_pubGang (s : State) (k : Nat) (p : PalpOp) : (s.setPalp k p).pubGang = s.pubGang := rfl
@[simp] theorem State.setPalp_pubDev (s : State) (k : Nat) (p : PalpOp) : (s.setPalp k p).pubDev = s.pubDev := rfl
@[simp] theorem State.setPalp_pubSys (s : State) (k : Nat) (p : PalpOp) : (s.setPalp k p).pubSys = s.pubSys := rfl
@[simp] theorem State.setPalp_loose (s : State) (k : Nat) (p : PalpOp) : (s.setPalp k p).loose = s.loose := rfl
@[simp] theorem State.setPalp_pubs (s : State) (k : Nat) (p : PalpOp) : (s.setPalp k p).pubs = s.pubs := rfl
@[simp] theorem State.setPalp_carry (s : State) (k : Nat) (p : PalpOp) : (s.setPalp k p).carry = s.carry := rfl
@[simp] theorem State.setPalp_barKnown (s : State) (k : Nat) (p : PalpOp) : (s.setPalp k p).barKnown = s.barKnown := rfl
@[simp] theorem State.setPalp_flushed (s : State) (k : Nat) (p : PalpOp) : (s.setPalp k p).flushed = s.flushed := rfl
@[simp] theorem State.setPalp_pubNear (s : State) (k : Nat) (p : PalpOp) : (s.setPalp k p).pubNear = s.pubNear := rfl
@[simp] theorem State.setPalp_pubRem (s : State) (k : Nat) (p : PalpOp) : (s.setPalp k p).pubRem = s.pubRem := rfl
@[simp] theorem State.setPalp_vlines (s : State) (k : Nat) (p : PalpOp) : (s.setPalp k p).vlines = s.vlines := rfl
@[simp] theorem State.setPalp_access (s : State) (k : Nat) (p : PalpOp) : (s.setPalp k p).access = s.access := rfl
@[simp] theorem State.setPalp_bad (s : State) (k : Nat) (p : PalpOp) : (s.setPalp k p).bad = s.bad := rfl
@[simp] theorem State.setPalp_badNames (s : State) (k : Nat) (p : PalpOp) : (s.setPalp k p).badNames = s.badNames := rfl
@[simp] theorem State.setPalp_vault (s : State) (k : Nat) (p : PalpOp) : (s.setPalp k p).vault = s.vault := rfl
@[simp] theorem State.setPalp_parts (s : State) (k : Nat) (p : PalpOp) : (s.setPalp k p).parts = s.parts := rfl
@[simp] theorem State.setPalp_contexts (s : State) (k : Nat) (p : PalpOp) : (s.setPalp k p).contexts = s.contexts := rfl
@[simp] theorem State.setPalp_frames (s : State) (k : Nat) (p : PalpOp) : (s.setPalp k p).frames = s.frames := rfl
@[simp] theorem State.setPalp_tlb (s : State) (k : Nat) (p : PalpOp) : (s.setPalp k p).tlb = s.tlb := rfl
@[simp] theorem State.setPalp_tlb1 (s : State) (k : Nat) (p : PalpOp) : (s.setPalp k p).tlb1 = s.tlb1 := rfl
@[simp] theorem State.setPalp_notices (s : State) (k : Nat) (p : PalpOp) : (s.setPalp k p).notices = s.notices := rfl
@[simp] theorem State.setPalp_serviced (s : State) (k : Nat) (p : PalpOp) : (s.setPalp k p).serviced = s.serviced := rfl
@[simp] theorem State.setPalp_copies (s : State) (k : Nat) (p : PalpOp) : (s.setPalp k p).copies = s.copies := rfl
@[simp] theorem State.setPalp_mats (s : State) (k : Nat) (p : PalpOp) : (s.setPalp k p).mats = s.mats := rfl
@[simp] theorem State.setPalp_colls (s : State) (k : Nat) (p : PalpOp) : (s.setPalp k p).colls = s.colls := rfl
@[simp] theorem State.setPalp_nextOp (s : State) (k : Nat) (p : PalpOp) : (s.setPalp k p).nextOp = s.nextOp := rfl
@[simp] theorem State.setPalp_hits (s : State) (k : Nat) (p : PalpOp) : (s.setPalp k p).hits = s.hits := rfl
@[simp] theorem State.setPalp_images (s : State) (k : Nat) (p : PalpOp) : (s.setPalp k p).images = s.images := rfl
@[simp] theorem State.setPalp_reports (s : State) (k : Nat) (p : PalpOp) : (s.setPalp k p).reports = s.reports := rfl
@[simp] theorem State.setPalp_ring (s : State) (k : Nat) (p : PalpOp) : (s.setPalp k p).ring = s.ring := rfl
@[simp] theorem State.setPalp_queues (s : State) (k : Nat) (p : PalpOp) : (s.setPalp k p).queues = s.queues := rfl
@[simp] theorem State.setPalp_reqs (s : State) (k : Nat) (p : PalpOp) : (s.setPalp k p).reqs = s.reqs := rfl
@[simp] theorem State.setPalp_replies (s : State) (k : Nat) (p : PalpOp) : (s.setPalp k p).replies = s.replies := rfl
@[simp] theorem State.setPalp_comms (s : State) (k : Nat) (p : PalpOp) : (s.setPalp k p).comms = s.comms := rfl
@[simp] theorem State.setPalp_collBox (s : State) (k : Nat) (p : PalpOp) : (s.setPalp k p).collBox = s.collBox := rfl
@[simp] theorem State.setPalp_objects (s : State) (k : Nat) (p : PalpOp) : (s.setPalp k p).objects = s.objects := rfl
@[simp] theorem State.setPalp_ctls (s : State) (k : Nat) (p : PalpOp) : (s.setPalp k p).ctls = s.ctls := rfl
@[simp] theorem State.setPalp_clinks (s : State) (k : Nat) (p : PalpOp) : (s.setPalp k p).clinks = s.clinks := rfl
@[simp] theorem State.setPalp_sched (s : State) (k : Nat) (p : PalpOp) : (s.setPalp k p).sched = s.sched := rfl
@[simp] theorem State.setPalp_beat (s : State) (k : Nat) (p : PalpOp) : (s.setPalp k p).beat = s.beat := rfl
@[simp] theorem State.setPalp_orders (s : State) (k : Nat) (p : PalpOp) : (s.setPalp k p).orders = s.orders := rfl
@[simp] theorem State.setPalp_nextId (s : State) (k : Nat) (p : PalpOp) : (s.setPalp k p).nextId = s.nextId := rfl
@[simp] theorem State.setPalp_log (s : State) (k : Nat) (p : PalpOp) : (s.setPalp k p).log = s.log := rfl
@[simp] theorem State.setPalp_vectors (s : State) (k : Nat) (p : PalpOp) : (s.setPalp k p).vectors = s.vectors := rfl
@[simp] theorem State.setPalp_msi (s : State) (k : Nat) (p : PalpOp) : (s.setPalp k p).msi = s.msi := rfl
@[simp] theorem State.setPalp_hostData (s : State) (k : Nat) (p : PalpOp) : (s.setPalp k p).hostData = s.hostData := rfl
@[simp] theorem State.setPalp_masks (s : State) (k : Nat) (p : PalpOp) : (s.setPalp k p).masks = s.masks := rfl
@[simp] theorem State.setPalp_glinks (s : State) (k : Nat) (p : PalpOp) : (s.setPalp k p).glinks = s.glinks := rfl
@[simp] theorem State.setPalp_remotes (s : State) (k : Nat) (p : PalpOp) : (s.setPalp k p).remotes = s.remotes := rfl
@[simp] theorem State.setPalp_lost (s : State) (k : Nat) (p : PalpOp) : (s.setPalp k p).lost = s.lost := rfl
@[simp] theorem State.setPalp_power (s : State) (k : Nat) (p : PalpOp) : (s.setPalp k p).power = s.power := rfl
@[simp] theorem State.setPalp_starved (s : State) (k : Nat) (p : PalpOp) : (s.setPalp k p).starved = s.starved := rfl
@[simp] theorem State.setPalp_boot (s : State) (k : Nat) (p : PalpOp) : (s.setPalp k p).boot = s.boot := rfl
@[simp] theorem State.setPalp_get_wave (s : State) (k : Nat) (p : PalpOp) (j : Nat) : (s.setPalp k p).wave j = s.wave j := rfl
@[simp] theorem State.setPalp_get_block (s : State) (k : Nat) (p : PalpOp) (j : Nat) : (s.setPalp k p).block j = s.block j := rfl
@[simp] theorem State.setPalp_get_gang (s : State) (k : Nat) (p : PalpOp) (j : Nat) : (s.setPalp k p).gang j = s.gang j := rfl
@[simp] theorem State.setPalp_get_launch (s : State) (k : Nat) (p : PalpOp) (j : Nat) : (s.setPalp k p).launch j = s.launch j := rfl
@[simp] theorem State.setPalp_get_context (s : State) (k : Nat) (p : PalpOp) (j : Nat) : (s.setPalp k p).context j = s.context j := rfl
@[simp] theorem State.setPalp_get_ctl (s : State) (k : Nat) (p : PalpOp) (j : Nat) : (s.setPalp k p).ctl j = s.ctl j := rfl
@[simp] theorem State.setPalp_get_copy (s : State) (k : Nat) (p : PalpOp) (j : Nat) : (s.setPalp k p).copy j = s.copy j := rfl
@[simp] theorem State.setPalp_get_mat (s : State) (k : Nat) (p : PalpOp) (j : Nat) : (s.setPalp k p).mat j = s.mat j := rfl
@[simp] theorem State.setPalp_get_collOp (s : State) (k : Nat) (p : PalpOp) (j : Nat) : (s.setPalp k p).collOp j = s.collOp j := rfl
@[simp] theorem State.setPalp_get_queue (s : State) (k : Nat) (p : PalpOp) (j : Nat) : (s.setPalp k p).queue j = s.queue j := rfl
@[simp] theorem State.setPalp_get_clink (s : State) (k : Nat) (p : PalpOp) (j : Nat) : (s.setPalp k p).clink j = s.clink j := rfl
@[simp] theorem State.setPalp_get_glink (s : State) (k : Nat) (p : PalpOp) (j : Nat) : (s.setPalp k p).glink j = s.glink j := rfl
@[simp] theorem State.setColl_time (s : State) (k : Nat) (c : CollOp) : (s.setColl k c).time = s.time := rfl
@[simp] theorem State.setColl_free (s : State) (k : Nat) (c : CollOp) : (s.setColl k c).free = s.free := rfl
@[simp] theorem State.setColl_agenda (s : State) (k : Nat) (c : CollOp) : (s.setColl k c).agenda = s.agenda := rfl
@[simp] theorem State.setColl_iss (s : State) (k : Nat) (c : CollOp) : (s.setColl k c).iss = s.iss := rfl
@[simp] theorem State.setColl_waves (s : State) (k : Nat) (c : CollOp) : (s.setColl k c).waves = s.waves := rfl
@[simp] theorem State.setColl_blocks (s : State) (k : Nat) (c : CollOp) : (s.setColl k c).blocks = s.blocks := rfl
@[simp] theorem State.setColl_gangs (s : State) (k : Nat) (c : CollOp) : (s.setColl k c).gangs = s.gangs := rfl
@[simp] theorem State.setColl_launches (s : State) (k : Nat) (c : CollOp) : (s.setColl k c).launches = s.launches := rfl
@[simp] theorem State.setColl_mem (s : State) (k : Nat) (c : CollOp) : (s.setColl k c).mem = s.mem := rfl
@[simp] theorem State.setColl_hist (s : State) (k : Nat) (c : CollOp) : (s.setColl k c).hist = s.hist := rfl
@[simp] theorem State.setColl_stamp (s : State) (k : Nat) (c : CollOp) : (s.setColl k c).stamp = s.stamp := rfl
@[simp] theorem State.setColl_pubBlk (s : State) (k : Nat) (c : CollOp) : (s.setColl k c).pubBlk = s.pubBlk := rfl
@[simp] theorem State.setColl_pubGang (s : State) (k : Nat) (c : CollOp) : (s.setColl k c).pubGang = s.pubGang := rfl
@[simp] theorem State.setColl_pubDev (s : State) (k : Nat) (c : CollOp) : (s.setColl k c).pubDev = s.pubDev := rfl
@[simp] theorem State.setColl_pubSys (s : State) (k : Nat) (c : CollOp) : (s.setColl k c).pubSys = s.pubSys := rfl
@[simp] theorem State.setColl_loose (s : State) (k : Nat) (c : CollOp) : (s.setColl k c).loose = s.loose := rfl
@[simp] theorem State.setColl_pubs (s : State) (k : Nat) (c : CollOp) : (s.setColl k c).pubs = s.pubs := rfl
@[simp] theorem State.setColl_carry (s : State) (k : Nat) (c : CollOp) : (s.setColl k c).carry = s.carry := rfl
@[simp] theorem State.setColl_barKnown (s : State) (k : Nat) (c : CollOp) : (s.setColl k c).barKnown = s.barKnown := rfl
@[simp] theorem State.setColl_flushed (s : State) (k : Nat) (c : CollOp) : (s.setColl k c).flushed = s.flushed := rfl
@[simp] theorem State.setColl_pubNear (s : State) (k : Nat) (c : CollOp) : (s.setColl k c).pubNear = s.pubNear := rfl
@[simp] theorem State.setColl_pubRem (s : State) (k : Nat) (c : CollOp) : (s.setColl k c).pubRem = s.pubRem := rfl
@[simp] theorem State.setColl_vlines (s : State) (k : Nat) (c : CollOp) : (s.setColl k c).vlines = s.vlines := rfl
@[simp] theorem State.setColl_access (s : State) (k : Nat) (c : CollOp) : (s.setColl k c).access = s.access := rfl
@[simp] theorem State.setColl_bad (s : State) (k : Nat) (c : CollOp) : (s.setColl k c).bad = s.bad := rfl
@[simp] theorem State.setColl_badNames (s : State) (k : Nat) (c : CollOp) : (s.setColl k c).badNames = s.badNames := rfl
@[simp] theorem State.setColl_vault (s : State) (k : Nat) (c : CollOp) : (s.setColl k c).vault = s.vault := rfl
@[simp] theorem State.setColl_parts (s : State) (k : Nat) (c : CollOp) : (s.setColl k c).parts = s.parts := rfl
@[simp] theorem State.setColl_contexts (s : State) (k : Nat) (c : CollOp) : (s.setColl k c).contexts = s.contexts := rfl
@[simp] theorem State.setColl_frames (s : State) (k : Nat) (c : CollOp) : (s.setColl k c).frames = s.frames := rfl
@[simp] theorem State.setColl_tlb (s : State) (k : Nat) (c : CollOp) : (s.setColl k c).tlb = s.tlb := rfl
@[simp] theorem State.setColl_tlb1 (s : State) (k : Nat) (c : CollOp) : (s.setColl k c).tlb1 = s.tlb1 := rfl
@[simp] theorem State.setColl_notices (s : State) (k : Nat) (c : CollOp) : (s.setColl k c).notices = s.notices := rfl
@[simp] theorem State.setColl_serviced (s : State) (k : Nat) (c : CollOp) : (s.setColl k c).serviced = s.serviced := rfl
@[simp] theorem State.setColl_copies (s : State) (k : Nat) (c : CollOp) : (s.setColl k c).copies = s.copies := rfl
@[simp] theorem State.setColl_mats (s : State) (k : Nat) (c : CollOp) : (s.setColl k c).mats = s.mats := rfl
@[simp] theorem State.setColl_palps (s : State) (k : Nat) (c : CollOp) : (s.setColl k c).palps = s.palps := rfl
@[simp] theorem State.setColl_nextOp (s : State) (k : Nat) (c : CollOp) : (s.setColl k c).nextOp = s.nextOp := rfl
@[simp] theorem State.setColl_hits (s : State) (k : Nat) (c : CollOp) : (s.setColl k c).hits = s.hits := rfl
@[simp] theorem State.setColl_images (s : State) (k : Nat) (c : CollOp) : (s.setColl k c).images = s.images := rfl
@[simp] theorem State.setColl_reports (s : State) (k : Nat) (c : CollOp) : (s.setColl k c).reports = s.reports := rfl
@[simp] theorem State.setColl_ring (s : State) (k : Nat) (c : CollOp) : (s.setColl k c).ring = s.ring := rfl
@[simp] theorem State.setColl_queues (s : State) (k : Nat) (c : CollOp) : (s.setColl k c).queues = s.queues := rfl
@[simp] theorem State.setColl_reqs (s : State) (k : Nat) (c : CollOp) : (s.setColl k c).reqs = s.reqs := rfl
@[simp] theorem State.setColl_replies (s : State) (k : Nat) (c : CollOp) : (s.setColl k c).replies = s.replies := rfl
@[simp] theorem State.setColl_comms (s : State) (k : Nat) (c : CollOp) : (s.setColl k c).comms = s.comms := rfl
@[simp] theorem State.setColl_collBox (s : State) (k : Nat) (c : CollOp) : (s.setColl k c).collBox = s.collBox := rfl
@[simp] theorem State.setColl_objects (s : State) (k : Nat) (c : CollOp) : (s.setColl k c).objects = s.objects := rfl
@[simp] theorem State.setColl_ctls (s : State) (k : Nat) (c : CollOp) : (s.setColl k c).ctls = s.ctls := rfl
@[simp] theorem State.setColl_clinks (s : State) (k : Nat) (c : CollOp) : (s.setColl k c).clinks = s.clinks := rfl
@[simp] theorem State.setColl_sched (s : State) (k : Nat) (c : CollOp) : (s.setColl k c).sched = s.sched := rfl
@[simp] theorem State.setColl_beat (s : State) (k : Nat) (c : CollOp) : (s.setColl k c).beat = s.beat := rfl
@[simp] theorem State.setColl_orders (s : State) (k : Nat) (c : CollOp) : (s.setColl k c).orders = s.orders := rfl
@[simp] theorem State.setColl_nextId (s : State) (k : Nat) (c : CollOp) : (s.setColl k c).nextId = s.nextId := rfl
@[simp] theorem State.setColl_log (s : State) (k : Nat) (c : CollOp) : (s.setColl k c).log = s.log := rfl
@[simp] theorem State.setColl_vectors (s : State) (k : Nat) (c : CollOp) : (s.setColl k c).vectors = s.vectors := rfl
@[simp] theorem State.setColl_msi (s : State) (k : Nat) (c : CollOp) : (s.setColl k c).msi = s.msi := rfl
@[simp] theorem State.setColl_hostData (s : State) (k : Nat) (c : CollOp) : (s.setColl k c).hostData = s.hostData := rfl
@[simp] theorem State.setColl_masks (s : State) (k : Nat) (c : CollOp) : (s.setColl k c).masks = s.masks := rfl
@[simp] theorem State.setColl_glinks (s : State) (k : Nat) (c : CollOp) : (s.setColl k c).glinks = s.glinks := rfl
@[simp] theorem State.setColl_remotes (s : State) (k : Nat) (c : CollOp) : (s.setColl k c).remotes = s.remotes := rfl
@[simp] theorem State.setColl_lost (s : State) (k : Nat) (c : CollOp) : (s.setColl k c).lost = s.lost := rfl
@[simp] theorem State.setColl_power (s : State) (k : Nat) (c : CollOp) : (s.setColl k c).power = s.power := rfl
@[simp] theorem State.setColl_starved (s : State) (k : Nat) (c : CollOp) : (s.setColl k c).starved = s.starved := rfl
@[simp] theorem State.setColl_boot (s : State) (k : Nat) (c : CollOp) : (s.setColl k c).boot = s.boot := rfl
@[simp] theorem State.setColl_get_wave (s : State) (k : Nat) (c : CollOp) (j : Nat) : (s.setColl k c).wave j = s.wave j := rfl
@[simp] theorem State.setColl_get_block (s : State) (k : Nat) (c : CollOp) (j : Nat) : (s.setColl k c).block j = s.block j := rfl
@[simp] theorem State.setColl_get_gang (s : State) (k : Nat) (c : CollOp) (j : Nat) : (s.setColl k c).gang j = s.gang j := rfl
@[simp] theorem State.setColl_get_launch (s : State) (k : Nat) (c : CollOp) (j : Nat) : (s.setColl k c).launch j = s.launch j := rfl
@[simp] theorem State.setColl_get_context (s : State) (k : Nat) (c : CollOp) (j : Nat) : (s.setColl k c).context j = s.context j := rfl
@[simp] theorem State.setColl_get_ctl (s : State) (k : Nat) (c : CollOp) (j : Nat) : (s.setColl k c).ctl j = s.ctl j := rfl
@[simp] theorem State.setColl_get_copy (s : State) (k : Nat) (c : CollOp) (j : Nat) : (s.setColl k c).copy j = s.copy j := rfl
@[simp] theorem State.setColl_get_mat (s : State) (k : Nat) (c : CollOp) (j : Nat) : (s.setColl k c).mat j = s.mat j := rfl
@[simp] theorem State.setColl_get_palp (s : State) (k : Nat) (c : CollOp) (j : Nat) : (s.setColl k c).palp j = s.palp j := rfl
@[simp] theorem State.setColl_get_queue (s : State) (k : Nat) (c : CollOp) (j : Nat) : (s.setColl k c).queue j = s.queue j := rfl
@[simp] theorem State.setColl_get_clink (s : State) (k : Nat) (c : CollOp) (j : Nat) : (s.setColl k c).clink j = s.clink j := rfl
@[simp] theorem State.setColl_get_glink (s : State) (k : Nat) (c : CollOp) (j : Nat) : (s.setColl k c).glink j = s.glink j := rfl
@[simp] theorem State.setQueue_time (s : State) (k : Nat) (q : Queue) : (s.setQueue k q).time = s.time := rfl
@[simp] theorem State.setQueue_free (s : State) (k : Nat) (q : Queue) : (s.setQueue k q).free = s.free := rfl
@[simp] theorem State.setQueue_agenda (s : State) (k : Nat) (q : Queue) : (s.setQueue k q).agenda = s.agenda := rfl
@[simp] theorem State.setQueue_iss (s : State) (k : Nat) (q : Queue) : (s.setQueue k q).iss = s.iss := rfl
@[simp] theorem State.setQueue_waves (s : State) (k : Nat) (q : Queue) : (s.setQueue k q).waves = s.waves := rfl
@[simp] theorem State.setQueue_blocks (s : State) (k : Nat) (q : Queue) : (s.setQueue k q).blocks = s.blocks := rfl
@[simp] theorem State.setQueue_gangs (s : State) (k : Nat) (q : Queue) : (s.setQueue k q).gangs = s.gangs := rfl
@[simp] theorem State.setQueue_launches (s : State) (k : Nat) (q : Queue) : (s.setQueue k q).launches = s.launches := rfl
@[simp] theorem State.setQueue_mem (s : State) (k : Nat) (q : Queue) : (s.setQueue k q).mem = s.mem := rfl
@[simp] theorem State.setQueue_hist (s : State) (k : Nat) (q : Queue) : (s.setQueue k q).hist = s.hist := rfl
@[simp] theorem State.setQueue_stamp (s : State) (k : Nat) (q : Queue) : (s.setQueue k q).stamp = s.stamp := rfl
@[simp] theorem State.setQueue_pubBlk (s : State) (k : Nat) (q : Queue) : (s.setQueue k q).pubBlk = s.pubBlk := rfl
@[simp] theorem State.setQueue_pubGang (s : State) (k : Nat) (q : Queue) : (s.setQueue k q).pubGang = s.pubGang := rfl
@[simp] theorem State.setQueue_pubDev (s : State) (k : Nat) (q : Queue) : (s.setQueue k q).pubDev = s.pubDev := rfl
@[simp] theorem State.setQueue_pubSys (s : State) (k : Nat) (q : Queue) : (s.setQueue k q).pubSys = s.pubSys := rfl
@[simp] theorem State.setQueue_loose (s : State) (k : Nat) (q : Queue) : (s.setQueue k q).loose = s.loose := rfl
@[simp] theorem State.setQueue_pubs (s : State) (k : Nat) (q : Queue) : (s.setQueue k q).pubs = s.pubs := rfl
@[simp] theorem State.setQueue_carry (s : State) (k : Nat) (q : Queue) : (s.setQueue k q).carry = s.carry := rfl
@[simp] theorem State.setQueue_barKnown (s : State) (k : Nat) (q : Queue) : (s.setQueue k q).barKnown = s.barKnown := rfl
@[simp] theorem State.setQueue_flushed (s : State) (k : Nat) (q : Queue) : (s.setQueue k q).flushed = s.flushed := rfl
@[simp] theorem State.setQueue_pubNear (s : State) (k : Nat) (q : Queue) : (s.setQueue k q).pubNear = s.pubNear := rfl
@[simp] theorem State.setQueue_pubRem (s : State) (k : Nat) (q : Queue) : (s.setQueue k q).pubRem = s.pubRem := rfl
@[simp] theorem State.setQueue_vlines (s : State) (k : Nat) (q : Queue) : (s.setQueue k q).vlines = s.vlines := rfl
@[simp] theorem State.setQueue_access (s : State) (k : Nat) (q : Queue) : (s.setQueue k q).access = s.access := rfl
@[simp] theorem State.setQueue_bad (s : State) (k : Nat) (q : Queue) : (s.setQueue k q).bad = s.bad := rfl
@[simp] theorem State.setQueue_badNames (s : State) (k : Nat) (q : Queue) : (s.setQueue k q).badNames = s.badNames := rfl
@[simp] theorem State.setQueue_vault (s : State) (k : Nat) (q : Queue) : (s.setQueue k q).vault = s.vault := rfl
@[simp] theorem State.setQueue_parts (s : State) (k : Nat) (q : Queue) : (s.setQueue k q).parts = s.parts := rfl
@[simp] theorem State.setQueue_contexts (s : State) (k : Nat) (q : Queue) : (s.setQueue k q).contexts = s.contexts := rfl
@[simp] theorem State.setQueue_frames (s : State) (k : Nat) (q : Queue) : (s.setQueue k q).frames = s.frames := rfl
@[simp] theorem State.setQueue_tlb (s : State) (k : Nat) (q : Queue) : (s.setQueue k q).tlb = s.tlb := rfl
@[simp] theorem State.setQueue_tlb1 (s : State) (k : Nat) (q : Queue) : (s.setQueue k q).tlb1 = s.tlb1 := rfl
@[simp] theorem State.setQueue_notices (s : State) (k : Nat) (q : Queue) : (s.setQueue k q).notices = s.notices := rfl
@[simp] theorem State.setQueue_serviced (s : State) (k : Nat) (q : Queue) : (s.setQueue k q).serviced = s.serviced := rfl
@[simp] theorem State.setQueue_copies (s : State) (k : Nat) (q : Queue) : (s.setQueue k q).copies = s.copies := rfl
@[simp] theorem State.setQueue_mats (s : State) (k : Nat) (q : Queue) : (s.setQueue k q).mats = s.mats := rfl
@[simp] theorem State.setQueue_palps (s : State) (k : Nat) (q : Queue) : (s.setQueue k q).palps = s.palps := rfl
@[simp] theorem State.setQueue_colls (s : State) (k : Nat) (q : Queue) : (s.setQueue k q).colls = s.colls := rfl
@[simp] theorem State.setQueue_nextOp (s : State) (k : Nat) (q : Queue) : (s.setQueue k q).nextOp = s.nextOp := rfl
@[simp] theorem State.setQueue_hits (s : State) (k : Nat) (q : Queue) : (s.setQueue k q).hits = s.hits := rfl
@[simp] theorem State.setQueue_images (s : State) (k : Nat) (q : Queue) : (s.setQueue k q).images = s.images := rfl
@[simp] theorem State.setQueue_reports (s : State) (k : Nat) (q : Queue) : (s.setQueue k q).reports = s.reports := rfl
@[simp] theorem State.setQueue_ring (s : State) (k : Nat) (q : Queue) : (s.setQueue k q).ring = s.ring := rfl
@[simp] theorem State.setQueue_reqs (s : State) (k : Nat) (q : Queue) : (s.setQueue k q).reqs = s.reqs := rfl
@[simp] theorem State.setQueue_replies (s : State) (k : Nat) (q : Queue) : (s.setQueue k q).replies = s.replies := rfl
@[simp] theorem State.setQueue_comms (s : State) (k : Nat) (q : Queue) : (s.setQueue k q).comms = s.comms := rfl
@[simp] theorem State.setQueue_collBox (s : State) (k : Nat) (q : Queue) : (s.setQueue k q).collBox = s.collBox := rfl
@[simp] theorem State.setQueue_objects (s : State) (k : Nat) (q : Queue) : (s.setQueue k q).objects = s.objects := rfl
@[simp] theorem State.setQueue_ctls (s : State) (k : Nat) (q : Queue) : (s.setQueue k q).ctls = s.ctls := rfl
@[simp] theorem State.setQueue_clinks (s : State) (k : Nat) (q : Queue) : (s.setQueue k q).clinks = s.clinks := rfl
@[simp] theorem State.setQueue_sched (s : State) (k : Nat) (q : Queue) : (s.setQueue k q).sched = s.sched := rfl
@[simp] theorem State.setQueue_beat (s : State) (k : Nat) (q : Queue) : (s.setQueue k q).beat = s.beat := rfl
@[simp] theorem State.setQueue_orders (s : State) (k : Nat) (q : Queue) : (s.setQueue k q).orders = s.orders := rfl
@[simp] theorem State.setQueue_nextId (s : State) (k : Nat) (q : Queue) : (s.setQueue k q).nextId = s.nextId := rfl
@[simp] theorem State.setQueue_log (s : State) (k : Nat) (q : Queue) : (s.setQueue k q).log = s.log := rfl
@[simp] theorem State.setQueue_vectors (s : State) (k : Nat) (q : Queue) : (s.setQueue k q).vectors = s.vectors := rfl
@[simp] theorem State.setQueue_msi (s : State) (k : Nat) (q : Queue) : (s.setQueue k q).msi = s.msi := rfl
@[simp] theorem State.setQueue_hostData (s : State) (k : Nat) (q : Queue) : (s.setQueue k q).hostData = s.hostData := rfl
@[simp] theorem State.setQueue_masks (s : State) (k : Nat) (q : Queue) : (s.setQueue k q).masks = s.masks := rfl
@[simp] theorem State.setQueue_glinks (s : State) (k : Nat) (q : Queue) : (s.setQueue k q).glinks = s.glinks := rfl
@[simp] theorem State.setQueue_remotes (s : State) (k : Nat) (q : Queue) : (s.setQueue k q).remotes = s.remotes := rfl
@[simp] theorem State.setQueue_lost (s : State) (k : Nat) (q : Queue) : (s.setQueue k q).lost = s.lost := rfl
@[simp] theorem State.setQueue_power (s : State) (k : Nat) (q : Queue) : (s.setQueue k q).power = s.power := rfl
@[simp] theorem State.setQueue_starved (s : State) (k : Nat) (q : Queue) : (s.setQueue k q).starved = s.starved := rfl
@[simp] theorem State.setQueue_boot (s : State) (k : Nat) (q : Queue) : (s.setQueue k q).boot = s.boot := rfl
@[simp] theorem State.setQueue_get_wave (s : State) (k : Nat) (q : Queue) (j : Nat) : (s.setQueue k q).wave j = s.wave j := rfl
@[simp] theorem State.setQueue_get_block (s : State) (k : Nat) (q : Queue) (j : Nat) : (s.setQueue k q).block j = s.block j := rfl
@[simp] theorem State.setQueue_get_gang (s : State) (k : Nat) (q : Queue) (j : Nat) : (s.setQueue k q).gang j = s.gang j := rfl
@[simp] theorem State.setQueue_get_launch (s : State) (k : Nat) (q : Queue) (j : Nat) : (s.setQueue k q).launch j = s.launch j := rfl
@[simp] theorem State.setQueue_get_context (s : State) (k : Nat) (q : Queue) (j : Nat) : (s.setQueue k q).context j = s.context j := rfl
@[simp] theorem State.setQueue_get_ctl (s : State) (k : Nat) (q : Queue) (j : Nat) : (s.setQueue k q).ctl j = s.ctl j := rfl
@[simp] theorem State.setQueue_get_copy (s : State) (k : Nat) (q : Queue) (j : Nat) : (s.setQueue k q).copy j = s.copy j := rfl
@[simp] theorem State.setQueue_get_mat (s : State) (k : Nat) (q : Queue) (j : Nat) : (s.setQueue k q).mat j = s.mat j := rfl
@[simp] theorem State.setQueue_get_palp (s : State) (k : Nat) (q : Queue) (j : Nat) : (s.setQueue k q).palp j = s.palp j := rfl
@[simp] theorem State.setQueue_get_collOp (s : State) (k : Nat) (q : Queue) (j : Nat) : (s.setQueue k q).collOp j = s.collOp j := rfl
@[simp] theorem State.setQueue_get_clink (s : State) (k : Nat) (q : Queue) (j : Nat) : (s.setQueue k q).clink j = s.clink j := rfl
@[simp] theorem State.setQueue_get_glink (s : State) (k : Nat) (q : Queue) (j : Nat) : (s.setQueue k q).glink j = s.glink j := rfl
@[simp] theorem State.setClink_time (s : State) (k : Nat) (c : CmdLink) : (s.setClink k c).time = s.time := rfl
@[simp] theorem State.setClink_free (s : State) (k : Nat) (c : CmdLink) : (s.setClink k c).free = s.free := rfl
@[simp] theorem State.setClink_agenda (s : State) (k : Nat) (c : CmdLink) : (s.setClink k c).agenda = s.agenda := rfl
@[simp] theorem State.setClink_iss (s : State) (k : Nat) (c : CmdLink) : (s.setClink k c).iss = s.iss := rfl
@[simp] theorem State.setClink_waves (s : State) (k : Nat) (c : CmdLink) : (s.setClink k c).waves = s.waves := rfl
@[simp] theorem State.setClink_blocks (s : State) (k : Nat) (c : CmdLink) : (s.setClink k c).blocks = s.blocks := rfl
@[simp] theorem State.setClink_gangs (s : State) (k : Nat) (c : CmdLink) : (s.setClink k c).gangs = s.gangs := rfl
@[simp] theorem State.setClink_launches (s : State) (k : Nat) (c : CmdLink) : (s.setClink k c).launches = s.launches := rfl
@[simp] theorem State.setClink_mem (s : State) (k : Nat) (c : CmdLink) : (s.setClink k c).mem = s.mem := rfl
@[simp] theorem State.setClink_hist (s : State) (k : Nat) (c : CmdLink) : (s.setClink k c).hist = s.hist := rfl
@[simp] theorem State.setClink_stamp (s : State) (k : Nat) (c : CmdLink) : (s.setClink k c).stamp = s.stamp := rfl
@[simp] theorem State.setClink_pubBlk (s : State) (k : Nat) (c : CmdLink) : (s.setClink k c).pubBlk = s.pubBlk := rfl
@[simp] theorem State.setClink_pubGang (s : State) (k : Nat) (c : CmdLink) : (s.setClink k c).pubGang = s.pubGang := rfl
@[simp] theorem State.setClink_pubDev (s : State) (k : Nat) (c : CmdLink) : (s.setClink k c).pubDev = s.pubDev := rfl
@[simp] theorem State.setClink_pubSys (s : State) (k : Nat) (c : CmdLink) : (s.setClink k c).pubSys = s.pubSys := rfl
@[simp] theorem State.setClink_loose (s : State) (k : Nat) (c : CmdLink) : (s.setClink k c).loose = s.loose := rfl
@[simp] theorem State.setClink_pubs (s : State) (k : Nat) (c : CmdLink) : (s.setClink k c).pubs = s.pubs := rfl
@[simp] theorem State.setClink_carry (s : State) (k : Nat) (c : CmdLink) : (s.setClink k c).carry = s.carry := rfl
@[simp] theorem State.setClink_barKnown (s : State) (k : Nat) (c : CmdLink) : (s.setClink k c).barKnown = s.barKnown := rfl
@[simp] theorem State.setClink_flushed (s : State) (k : Nat) (c : CmdLink) : (s.setClink k c).flushed = s.flushed := rfl
@[simp] theorem State.setClink_pubNear (s : State) (k : Nat) (c : CmdLink) : (s.setClink k c).pubNear = s.pubNear := rfl
@[simp] theorem State.setClink_pubRem (s : State) (k : Nat) (c : CmdLink) : (s.setClink k c).pubRem = s.pubRem := rfl
@[simp] theorem State.setClink_vlines (s : State) (k : Nat) (c : CmdLink) : (s.setClink k c).vlines = s.vlines := rfl
@[simp] theorem State.setClink_access (s : State) (k : Nat) (c : CmdLink) : (s.setClink k c).access = s.access := rfl
@[simp] theorem State.setClink_bad (s : State) (k : Nat) (c : CmdLink) : (s.setClink k c).bad = s.bad := rfl
@[simp] theorem State.setClink_badNames (s : State) (k : Nat) (c : CmdLink) : (s.setClink k c).badNames = s.badNames := rfl
@[simp] theorem State.setClink_vault (s : State) (k : Nat) (c : CmdLink) : (s.setClink k c).vault = s.vault := rfl
@[simp] theorem State.setClink_parts (s : State) (k : Nat) (c : CmdLink) : (s.setClink k c).parts = s.parts := rfl
@[simp] theorem State.setClink_contexts (s : State) (k : Nat) (c : CmdLink) : (s.setClink k c).contexts = s.contexts := rfl
@[simp] theorem State.setClink_frames (s : State) (k : Nat) (c : CmdLink) : (s.setClink k c).frames = s.frames := rfl
@[simp] theorem State.setClink_tlb (s : State) (k : Nat) (c : CmdLink) : (s.setClink k c).tlb = s.tlb := rfl
@[simp] theorem State.setClink_tlb1 (s : State) (k : Nat) (c : CmdLink) : (s.setClink k c).tlb1 = s.tlb1 := rfl
@[simp] theorem State.setClink_notices (s : State) (k : Nat) (c : CmdLink) : (s.setClink k c).notices = s.notices := rfl
@[simp] theorem State.setClink_serviced (s : State) (k : Nat) (c : CmdLink) : (s.setClink k c).serviced = s.serviced := rfl
@[simp] theorem State.setClink_copies (s : State) (k : Nat) (c : CmdLink) : (s.setClink k c).copies = s.copies := rfl
@[simp] theorem State.setClink_mats (s : State) (k : Nat) (c : CmdLink) : (s.setClink k c).mats = s.mats := rfl
@[simp] theorem State.setClink_palps (s : State) (k : Nat) (c : CmdLink) : (s.setClink k c).palps = s.palps := rfl
@[simp] theorem State.setClink_colls (s : State) (k : Nat) (c : CmdLink) : (s.setClink k c).colls = s.colls := rfl
@[simp] theorem State.setClink_nextOp (s : State) (k : Nat) (c : CmdLink) : (s.setClink k c).nextOp = s.nextOp := rfl
@[simp] theorem State.setClink_hits (s : State) (k : Nat) (c : CmdLink) : (s.setClink k c).hits = s.hits := rfl
@[simp] theorem State.setClink_images (s : State) (k : Nat) (c : CmdLink) : (s.setClink k c).images = s.images := rfl
@[simp] theorem State.setClink_reports (s : State) (k : Nat) (c : CmdLink) : (s.setClink k c).reports = s.reports := rfl
@[simp] theorem State.setClink_ring (s : State) (k : Nat) (c : CmdLink) : (s.setClink k c).ring = s.ring := rfl
@[simp] theorem State.setClink_queues (s : State) (k : Nat) (c : CmdLink) : (s.setClink k c).queues = s.queues := rfl
@[simp] theorem State.setClink_reqs (s : State) (k : Nat) (c : CmdLink) : (s.setClink k c).reqs = s.reqs := rfl
@[simp] theorem State.setClink_replies (s : State) (k : Nat) (c : CmdLink) : (s.setClink k c).replies = s.replies := rfl
@[simp] theorem State.setClink_comms (s : State) (k : Nat) (c : CmdLink) : (s.setClink k c).comms = s.comms := rfl
@[simp] theorem State.setClink_collBox (s : State) (k : Nat) (c : CmdLink) : (s.setClink k c).collBox = s.collBox := rfl
@[simp] theorem State.setClink_objects (s : State) (k : Nat) (c : CmdLink) : (s.setClink k c).objects = s.objects := rfl
@[simp] theorem State.setClink_ctls (s : State) (k : Nat) (c : CmdLink) : (s.setClink k c).ctls = s.ctls := rfl
@[simp] theorem State.setClink_sched (s : State) (k : Nat) (c : CmdLink) : (s.setClink k c).sched = s.sched := rfl
@[simp] theorem State.setClink_beat (s : State) (k : Nat) (c : CmdLink) : (s.setClink k c).beat = s.beat := rfl
@[simp] theorem State.setClink_orders (s : State) (k : Nat) (c : CmdLink) : (s.setClink k c).orders = s.orders := rfl
@[simp] theorem State.setClink_nextId (s : State) (k : Nat) (c : CmdLink) : (s.setClink k c).nextId = s.nextId := rfl
@[simp] theorem State.setClink_log (s : State) (k : Nat) (c : CmdLink) : (s.setClink k c).log = s.log := rfl
@[simp] theorem State.setClink_vectors (s : State) (k : Nat) (c : CmdLink) : (s.setClink k c).vectors = s.vectors := rfl
@[simp] theorem State.setClink_msi (s : State) (k : Nat) (c : CmdLink) : (s.setClink k c).msi = s.msi := rfl
@[simp] theorem State.setClink_hostData (s : State) (k : Nat) (c : CmdLink) : (s.setClink k c).hostData = s.hostData := rfl
@[simp] theorem State.setClink_masks (s : State) (k : Nat) (c : CmdLink) : (s.setClink k c).masks = s.masks := rfl
@[simp] theorem State.setClink_glinks (s : State) (k : Nat) (c : CmdLink) : (s.setClink k c).glinks = s.glinks := rfl
@[simp] theorem State.setClink_remotes (s : State) (k : Nat) (c : CmdLink) : (s.setClink k c).remotes = s.remotes := rfl
@[simp] theorem State.setClink_lost (s : State) (k : Nat) (c : CmdLink) : (s.setClink k c).lost = s.lost := rfl
@[simp] theorem State.setClink_power (s : State) (k : Nat) (c : CmdLink) : (s.setClink k c).power = s.power := rfl
@[simp] theorem State.setClink_starved (s : State) (k : Nat) (c : CmdLink) : (s.setClink k c).starved = s.starved := rfl
@[simp] theorem State.setClink_boot (s : State) (k : Nat) (c : CmdLink) : (s.setClink k c).boot = s.boot := rfl
@[simp] theorem State.setClink_get_wave (s : State) (k : Nat) (c : CmdLink) (j : Nat) : (s.setClink k c).wave j = s.wave j := rfl
@[simp] theorem State.setClink_get_block (s : State) (k : Nat) (c : CmdLink) (j : Nat) : (s.setClink k c).block j = s.block j := rfl
@[simp] theorem State.setClink_get_gang (s : State) (k : Nat) (c : CmdLink) (j : Nat) : (s.setClink k c).gang j = s.gang j := rfl
@[simp] theorem State.setClink_get_launch (s : State) (k : Nat) (c : CmdLink) (j : Nat) : (s.setClink k c).launch j = s.launch j := rfl
@[simp] theorem State.setClink_get_context (s : State) (k : Nat) (c : CmdLink) (j : Nat) : (s.setClink k c).context j = s.context j := rfl
@[simp] theorem State.setClink_get_ctl (s : State) (k : Nat) (c : CmdLink) (j : Nat) : (s.setClink k c).ctl j = s.ctl j := rfl
@[simp] theorem State.setClink_get_copy (s : State) (k : Nat) (c : CmdLink) (j : Nat) : (s.setClink k c).copy j = s.copy j := rfl
@[simp] theorem State.setClink_get_mat (s : State) (k : Nat) (c : CmdLink) (j : Nat) : (s.setClink k c).mat j = s.mat j := rfl
@[simp] theorem State.setClink_get_palp (s : State) (k : Nat) (c : CmdLink) (j : Nat) : (s.setClink k c).palp j = s.palp j := rfl
@[simp] theorem State.setClink_get_collOp (s : State) (k : Nat) (c : CmdLink) (j : Nat) : (s.setClink k c).collOp j = s.collOp j := rfl
@[simp] theorem State.setClink_get_queue (s : State) (k : Nat) (c : CmdLink) (j : Nat) : (s.setClink k c).queue j = s.queue j := rfl
@[simp] theorem State.setClink_get_glink (s : State) (k : Nat) (c : CmdLink) (j : Nat) : (s.setClink k c).glink j = s.glink j := rfl
@[simp] theorem State.setGlink_time (s : State) (k : Nat) (g : GLink) : (s.setGlink k g).time = s.time := rfl
@[simp] theorem State.setGlink_free (s : State) (k : Nat) (g : GLink) : (s.setGlink k g).free = s.free := rfl
@[simp] theorem State.setGlink_agenda (s : State) (k : Nat) (g : GLink) : (s.setGlink k g).agenda = s.agenda := rfl
@[simp] theorem State.setGlink_iss (s : State) (k : Nat) (g : GLink) : (s.setGlink k g).iss = s.iss := rfl
@[simp] theorem State.setGlink_waves (s : State) (k : Nat) (g : GLink) : (s.setGlink k g).waves = s.waves := rfl
@[simp] theorem State.setGlink_blocks (s : State) (k : Nat) (g : GLink) : (s.setGlink k g).blocks = s.blocks := rfl
@[simp] theorem State.setGlink_gangs (s : State) (k : Nat) (g : GLink) : (s.setGlink k g).gangs = s.gangs := rfl
@[simp] theorem State.setGlink_launches (s : State) (k : Nat) (g : GLink) : (s.setGlink k g).launches = s.launches := rfl
@[simp] theorem State.setGlink_mem (s : State) (k : Nat) (g : GLink) : (s.setGlink k g).mem = s.mem := rfl
@[simp] theorem State.setGlink_hist (s : State) (k : Nat) (g : GLink) : (s.setGlink k g).hist = s.hist := rfl
@[simp] theorem State.setGlink_stamp (s : State) (k : Nat) (g : GLink) : (s.setGlink k g).stamp = s.stamp := rfl
@[simp] theorem State.setGlink_pubBlk (s : State) (k : Nat) (g : GLink) : (s.setGlink k g).pubBlk = s.pubBlk := rfl
@[simp] theorem State.setGlink_pubGang (s : State) (k : Nat) (g : GLink) : (s.setGlink k g).pubGang = s.pubGang := rfl
@[simp] theorem State.setGlink_pubDev (s : State) (k : Nat) (g : GLink) : (s.setGlink k g).pubDev = s.pubDev := rfl
@[simp] theorem State.setGlink_pubSys (s : State) (k : Nat) (g : GLink) : (s.setGlink k g).pubSys = s.pubSys := rfl
@[simp] theorem State.setGlink_loose (s : State) (k : Nat) (g : GLink) : (s.setGlink k g).loose = s.loose := rfl
@[simp] theorem State.setGlink_pubs (s : State) (k : Nat) (g : GLink) : (s.setGlink k g).pubs = s.pubs := rfl
@[simp] theorem State.setGlink_carry (s : State) (k : Nat) (g : GLink) : (s.setGlink k g).carry = s.carry := rfl
@[simp] theorem State.setGlink_barKnown (s : State) (k : Nat) (g : GLink) : (s.setGlink k g).barKnown = s.barKnown := rfl
@[simp] theorem State.setGlink_flushed (s : State) (k : Nat) (g : GLink) : (s.setGlink k g).flushed = s.flushed := rfl
@[simp] theorem State.setGlink_pubNear (s : State) (k : Nat) (g : GLink) : (s.setGlink k g).pubNear = s.pubNear := rfl
@[simp] theorem State.setGlink_pubRem (s : State) (k : Nat) (g : GLink) : (s.setGlink k g).pubRem = s.pubRem := rfl
@[simp] theorem State.setGlink_vlines (s : State) (k : Nat) (g : GLink) : (s.setGlink k g).vlines = s.vlines := rfl
@[simp] theorem State.setGlink_access (s : State) (k : Nat) (g : GLink) : (s.setGlink k g).access = s.access := rfl
@[simp] theorem State.setGlink_bad (s : State) (k : Nat) (g : GLink) : (s.setGlink k g).bad = s.bad := rfl
@[simp] theorem State.setGlink_badNames (s : State) (k : Nat) (g : GLink) : (s.setGlink k g).badNames = s.badNames := rfl
@[simp] theorem State.setGlink_vault (s : State) (k : Nat) (g : GLink) : (s.setGlink k g).vault = s.vault := rfl
@[simp] theorem State.setGlink_parts (s : State) (k : Nat) (g : GLink) : (s.setGlink k g).parts = s.parts := rfl
@[simp] theorem State.setGlink_contexts (s : State) (k : Nat) (g : GLink) : (s.setGlink k g).contexts = s.contexts := rfl
@[simp] theorem State.setGlink_frames (s : State) (k : Nat) (g : GLink) : (s.setGlink k g).frames = s.frames := rfl
@[simp] theorem State.setGlink_tlb (s : State) (k : Nat) (g : GLink) : (s.setGlink k g).tlb = s.tlb := rfl
@[simp] theorem State.setGlink_tlb1 (s : State) (k : Nat) (g : GLink) : (s.setGlink k g).tlb1 = s.tlb1 := rfl
@[simp] theorem State.setGlink_notices (s : State) (k : Nat) (g : GLink) : (s.setGlink k g).notices = s.notices := rfl
@[simp] theorem State.setGlink_serviced (s : State) (k : Nat) (g : GLink) : (s.setGlink k g).serviced = s.serviced := rfl
@[simp] theorem State.setGlink_copies (s : State) (k : Nat) (g : GLink) : (s.setGlink k g).copies = s.copies := rfl
@[simp] theorem State.setGlink_mats (s : State) (k : Nat) (g : GLink) : (s.setGlink k g).mats = s.mats := rfl
@[simp] theorem State.setGlink_palps (s : State) (k : Nat) (g : GLink) : (s.setGlink k g).palps = s.palps := rfl
@[simp] theorem State.setGlink_colls (s : State) (k : Nat) (g : GLink) : (s.setGlink k g).colls = s.colls := rfl
@[simp] theorem State.setGlink_nextOp (s : State) (k : Nat) (g : GLink) : (s.setGlink k g).nextOp = s.nextOp := rfl
@[simp] theorem State.setGlink_hits (s : State) (k : Nat) (g : GLink) : (s.setGlink k g).hits = s.hits := rfl
@[simp] theorem State.setGlink_images (s : State) (k : Nat) (g : GLink) : (s.setGlink k g).images = s.images := rfl
@[simp] theorem State.setGlink_reports (s : State) (k : Nat) (g : GLink) : (s.setGlink k g).reports = s.reports := rfl
@[simp] theorem State.setGlink_ring (s : State) (k : Nat) (g : GLink) : (s.setGlink k g).ring = s.ring := rfl
@[simp] theorem State.setGlink_queues (s : State) (k : Nat) (g : GLink) : (s.setGlink k g).queues = s.queues := rfl
@[simp] theorem State.setGlink_reqs (s : State) (k : Nat) (g : GLink) : (s.setGlink k g).reqs = s.reqs := rfl
@[simp] theorem State.setGlink_replies (s : State) (k : Nat) (g : GLink) : (s.setGlink k g).replies = s.replies := rfl
@[simp] theorem State.setGlink_comms (s : State) (k : Nat) (g : GLink) : (s.setGlink k g).comms = s.comms := rfl
@[simp] theorem State.setGlink_collBox (s : State) (k : Nat) (g : GLink) : (s.setGlink k g).collBox = s.collBox := rfl
@[simp] theorem State.setGlink_objects (s : State) (k : Nat) (g : GLink) : (s.setGlink k g).objects = s.objects := rfl
@[simp] theorem State.setGlink_ctls (s : State) (k : Nat) (g : GLink) : (s.setGlink k g).ctls = s.ctls := rfl
@[simp] theorem State.setGlink_clinks (s : State) (k : Nat) (g : GLink) : (s.setGlink k g).clinks = s.clinks := rfl
@[simp] theorem State.setGlink_sched (s : State) (k : Nat) (g : GLink) : (s.setGlink k g).sched = s.sched := rfl
@[simp] theorem State.setGlink_beat (s : State) (k : Nat) (g : GLink) : (s.setGlink k g).beat = s.beat := rfl
@[simp] theorem State.setGlink_orders (s : State) (k : Nat) (g : GLink) : (s.setGlink k g).orders = s.orders := rfl
@[simp] theorem State.setGlink_nextId (s : State) (k : Nat) (g : GLink) : (s.setGlink k g).nextId = s.nextId := rfl
@[simp] theorem State.setGlink_log (s : State) (k : Nat) (g : GLink) : (s.setGlink k g).log = s.log := rfl
@[simp] theorem State.setGlink_vectors (s : State) (k : Nat) (g : GLink) : (s.setGlink k g).vectors = s.vectors := rfl
@[simp] theorem State.setGlink_msi (s : State) (k : Nat) (g : GLink) : (s.setGlink k g).msi = s.msi := rfl
@[simp] theorem State.setGlink_hostData (s : State) (k : Nat) (g : GLink) : (s.setGlink k g).hostData = s.hostData := rfl
@[simp] theorem State.setGlink_masks (s : State) (k : Nat) (g : GLink) : (s.setGlink k g).masks = s.masks := rfl
@[simp] theorem State.setGlink_remotes (s : State) (k : Nat) (g : GLink) : (s.setGlink k g).remotes = s.remotes := rfl
@[simp] theorem State.setGlink_lost (s : State) (k : Nat) (g : GLink) : (s.setGlink k g).lost = s.lost := rfl
@[simp] theorem State.setGlink_power (s : State) (k : Nat) (g : GLink) : (s.setGlink k g).power = s.power := rfl
@[simp] theorem State.setGlink_starved (s : State) (k : Nat) (g : GLink) : (s.setGlink k g).starved = s.starved := rfl
@[simp] theorem State.setGlink_boot (s : State) (k : Nat) (g : GLink) : (s.setGlink k g).boot = s.boot := rfl
@[simp] theorem State.setGlink_get_wave (s : State) (k : Nat) (g : GLink) (j : Nat) : (s.setGlink k g).wave j = s.wave j := rfl
@[simp] theorem State.setGlink_get_block (s : State) (k : Nat) (g : GLink) (j : Nat) : (s.setGlink k g).block j = s.block j := rfl
@[simp] theorem State.setGlink_get_gang (s : State) (k : Nat) (g : GLink) (j : Nat) : (s.setGlink k g).gang j = s.gang j := rfl
@[simp] theorem State.setGlink_get_launch (s : State) (k : Nat) (g : GLink) (j : Nat) : (s.setGlink k g).launch j = s.launch j := rfl
@[simp] theorem State.setGlink_get_context (s : State) (k : Nat) (g : GLink) (j : Nat) : (s.setGlink k g).context j = s.context j := rfl
@[simp] theorem State.setGlink_get_ctl (s : State) (k : Nat) (g : GLink) (j : Nat) : (s.setGlink k g).ctl j = s.ctl j := rfl
@[simp] theorem State.setGlink_get_copy (s : State) (k : Nat) (g : GLink) (j : Nat) : (s.setGlink k g).copy j = s.copy j := rfl
@[simp] theorem State.setGlink_get_mat (s : State) (k : Nat) (g : GLink) (j : Nat) : (s.setGlink k g).mat j = s.mat j := rfl
@[simp] theorem State.setGlink_get_palp (s : State) (k : Nat) (g : GLink) (j : Nat) : (s.setGlink k g).palp j = s.palp j := rfl
@[simp] theorem State.setGlink_get_collOp (s : State) (k : Nat) (g : GLink) (j : Nat) : (s.setGlink k g).collOp j = s.collOp j := rfl
@[simp] theorem State.setGlink_get_queue (s : State) (k : Nat) (g : GLink) (j : Nat) : (s.setGlink k g).queue j = s.queue j := rfl
@[simp] theorem State.setGlink_get_clink (s : State) (k : Nat) (g : GLink) (j : Nat) : (s.setGlink k g).clink j = s.clink j := rfl
@[simp] theorem State.onWave_time (s : State) (k : Nat) (f : Wave → Wave) : (s.onWave k f).time = s.time := rfl
@[simp] theorem State.onWave_free (s : State) (k : Nat) (f : Wave → Wave) : (s.onWave k f).free = s.free := rfl
@[simp] theorem State.onWave_agenda (s : State) (k : Nat) (f : Wave → Wave) : (s.onWave k f).agenda = s.agenda := rfl
@[simp] theorem State.onWave_iss (s : State) (k : Nat) (f : Wave → Wave) : (s.onWave k f).iss = s.iss := rfl
@[simp] theorem State.onWave_blocks (s : State) (k : Nat) (f : Wave → Wave) : (s.onWave k f).blocks = s.blocks := rfl
@[simp] theorem State.onWave_gangs (s : State) (k : Nat) (f : Wave → Wave) : (s.onWave k f).gangs = s.gangs := rfl
@[simp] theorem State.onWave_launches (s : State) (k : Nat) (f : Wave → Wave) : (s.onWave k f).launches = s.launches := rfl
@[simp] theorem State.onWave_mem (s : State) (k : Nat) (f : Wave → Wave) : (s.onWave k f).mem = s.mem := rfl
@[simp] theorem State.onWave_hist (s : State) (k : Nat) (f : Wave → Wave) : (s.onWave k f).hist = s.hist := rfl
@[simp] theorem State.onWave_stamp (s : State) (k : Nat) (f : Wave → Wave) : (s.onWave k f).stamp = s.stamp := rfl
@[simp] theorem State.onWave_pubBlk (s : State) (k : Nat) (f : Wave → Wave) : (s.onWave k f).pubBlk = s.pubBlk := rfl
@[simp] theorem State.onWave_pubGang (s : State) (k : Nat) (f : Wave → Wave) : (s.onWave k f).pubGang = s.pubGang := rfl
@[simp] theorem State.onWave_pubDev (s : State) (k : Nat) (f : Wave → Wave) : (s.onWave k f).pubDev = s.pubDev := rfl
@[simp] theorem State.onWave_pubSys (s : State) (k : Nat) (f : Wave → Wave) : (s.onWave k f).pubSys = s.pubSys := rfl
@[simp] theorem State.onWave_loose (s : State) (k : Nat) (f : Wave → Wave) : (s.onWave k f).loose = s.loose := rfl
@[simp] theorem State.onWave_pubs (s : State) (k : Nat) (f : Wave → Wave) : (s.onWave k f).pubs = s.pubs := rfl
@[simp] theorem State.onWave_carry (s : State) (k : Nat) (f : Wave → Wave) : (s.onWave k f).carry = s.carry := rfl
@[simp] theorem State.onWave_barKnown (s : State) (k : Nat) (f : Wave → Wave) : (s.onWave k f).barKnown = s.barKnown := rfl
@[simp] theorem State.onWave_flushed (s : State) (k : Nat) (f : Wave → Wave) : (s.onWave k f).flushed = s.flushed := rfl
@[simp] theorem State.onWave_pubNear (s : State) (k : Nat) (f : Wave → Wave) : (s.onWave k f).pubNear = s.pubNear := rfl
@[simp] theorem State.onWave_pubRem (s : State) (k : Nat) (f : Wave → Wave) : (s.onWave k f).pubRem = s.pubRem := rfl
@[simp] theorem State.onWave_vlines (s : State) (k : Nat) (f : Wave → Wave) : (s.onWave k f).vlines = s.vlines := rfl
@[simp] theorem State.onWave_access (s : State) (k : Nat) (f : Wave → Wave) : (s.onWave k f).access = s.access := rfl
@[simp] theorem State.onWave_bad (s : State) (k : Nat) (f : Wave → Wave) : (s.onWave k f).bad = s.bad := rfl
@[simp] theorem State.onWave_badNames (s : State) (k : Nat) (f : Wave → Wave) : (s.onWave k f).badNames = s.badNames := rfl
@[simp] theorem State.onWave_vault (s : State) (k : Nat) (f : Wave → Wave) : (s.onWave k f).vault = s.vault := rfl
@[simp] theorem State.onWave_parts (s : State) (k : Nat) (f : Wave → Wave) : (s.onWave k f).parts = s.parts := rfl
@[simp] theorem State.onWave_contexts (s : State) (k : Nat) (f : Wave → Wave) : (s.onWave k f).contexts = s.contexts := rfl
@[simp] theorem State.onWave_frames (s : State) (k : Nat) (f : Wave → Wave) : (s.onWave k f).frames = s.frames := rfl
@[simp] theorem State.onWave_tlb (s : State) (k : Nat) (f : Wave → Wave) : (s.onWave k f).tlb = s.tlb := rfl
@[simp] theorem State.onWave_tlb1 (s : State) (k : Nat) (f : Wave → Wave) : (s.onWave k f).tlb1 = s.tlb1 := rfl
@[simp] theorem State.onWave_notices (s : State) (k : Nat) (f : Wave → Wave) : (s.onWave k f).notices = s.notices := rfl
@[simp] theorem State.onWave_serviced (s : State) (k : Nat) (f : Wave → Wave) : (s.onWave k f).serviced = s.serviced := rfl
@[simp] theorem State.onWave_copies (s : State) (k : Nat) (f : Wave → Wave) : (s.onWave k f).copies = s.copies := rfl
@[simp] theorem State.onWave_mats (s : State) (k : Nat) (f : Wave → Wave) : (s.onWave k f).mats = s.mats := rfl
@[simp] theorem State.onWave_palps (s : State) (k : Nat) (f : Wave → Wave) : (s.onWave k f).palps = s.palps := rfl
@[simp] theorem State.onWave_colls (s : State) (k : Nat) (f : Wave → Wave) : (s.onWave k f).colls = s.colls := rfl
@[simp] theorem State.onWave_nextOp (s : State) (k : Nat) (f : Wave → Wave) : (s.onWave k f).nextOp = s.nextOp := rfl
@[simp] theorem State.onWave_hits (s : State) (k : Nat) (f : Wave → Wave) : (s.onWave k f).hits = s.hits := rfl
@[simp] theorem State.onWave_images (s : State) (k : Nat) (f : Wave → Wave) : (s.onWave k f).images = s.images := rfl
@[simp] theorem State.onWave_reports (s : State) (k : Nat) (f : Wave → Wave) : (s.onWave k f).reports = s.reports := rfl
@[simp] theorem State.onWave_ring (s : State) (k : Nat) (f : Wave → Wave) : (s.onWave k f).ring = s.ring := rfl
@[simp] theorem State.onWave_queues (s : State) (k : Nat) (f : Wave → Wave) : (s.onWave k f).queues = s.queues := rfl
@[simp] theorem State.onWave_reqs (s : State) (k : Nat) (f : Wave → Wave) : (s.onWave k f).reqs = s.reqs := rfl
@[simp] theorem State.onWave_replies (s : State) (k : Nat) (f : Wave → Wave) : (s.onWave k f).replies = s.replies := rfl
@[simp] theorem State.onWave_comms (s : State) (k : Nat) (f : Wave → Wave) : (s.onWave k f).comms = s.comms := rfl
@[simp] theorem State.onWave_collBox (s : State) (k : Nat) (f : Wave → Wave) : (s.onWave k f).collBox = s.collBox := rfl
@[simp] theorem State.onWave_objects (s : State) (k : Nat) (f : Wave → Wave) : (s.onWave k f).objects = s.objects := rfl
@[simp] theorem State.onWave_ctls (s : State) (k : Nat) (f : Wave → Wave) : (s.onWave k f).ctls = s.ctls := rfl
@[simp] theorem State.onWave_clinks (s : State) (k : Nat) (f : Wave → Wave) : (s.onWave k f).clinks = s.clinks := rfl
@[simp] theorem State.onWave_sched (s : State) (k : Nat) (f : Wave → Wave) : (s.onWave k f).sched = s.sched := rfl
@[simp] theorem State.onWave_beat (s : State) (k : Nat) (f : Wave → Wave) : (s.onWave k f).beat = s.beat := rfl
@[simp] theorem State.onWave_orders (s : State) (k : Nat) (f : Wave → Wave) : (s.onWave k f).orders = s.orders := rfl
@[simp] theorem State.onWave_nextId (s : State) (k : Nat) (f : Wave → Wave) : (s.onWave k f).nextId = s.nextId := rfl
@[simp] theorem State.onWave_log (s : State) (k : Nat) (f : Wave → Wave) : (s.onWave k f).log = s.log := rfl
@[simp] theorem State.onWave_vectors (s : State) (k : Nat) (f : Wave → Wave) : (s.onWave k f).vectors = s.vectors := rfl
@[simp] theorem State.onWave_msi (s : State) (k : Nat) (f : Wave → Wave) : (s.onWave k f).msi = s.msi := rfl
@[simp] theorem State.onWave_hostData (s : State) (k : Nat) (f : Wave → Wave) : (s.onWave k f).hostData = s.hostData := rfl
@[simp] theorem State.onWave_masks (s : State) (k : Nat) (f : Wave → Wave) : (s.onWave k f).masks = s.masks := rfl
@[simp] theorem State.onWave_glinks (s : State) (k : Nat) (f : Wave → Wave) : (s.onWave k f).glinks = s.glinks := rfl
@[simp] theorem State.onWave_remotes (s : State) (k : Nat) (f : Wave → Wave) : (s.onWave k f).remotes = s.remotes := rfl
@[simp] theorem State.onWave_lost (s : State) (k : Nat) (f : Wave → Wave) : (s.onWave k f).lost = s.lost := rfl
@[simp] theorem State.onWave_power (s : State) (k : Nat) (f : Wave → Wave) : (s.onWave k f).power = s.power := rfl
@[simp] theorem State.onWave_starved (s : State) (k : Nat) (f : Wave → Wave) : (s.onWave k f).starved = s.starved := rfl
@[simp] theorem State.onWave_boot (s : State) (k : Nat) (f : Wave → Wave) : (s.onWave k f).boot = s.boot := rfl
@[simp] theorem State.onWave_get_block (s : State) (k : Nat) (f : Wave → Wave) (j : Nat) : (s.onWave k f).block j = s.block j := rfl
@[simp] theorem State.onWave_get_gang (s : State) (k : Nat) (f : Wave → Wave) (j : Nat) : (s.onWave k f).gang j = s.gang j := rfl
@[simp] theorem State.onWave_get_launch (s : State) (k : Nat) (f : Wave → Wave) (j : Nat) : (s.onWave k f).launch j = s.launch j := rfl
@[simp] theorem State.onWave_get_context (s : State) (k : Nat) (f : Wave → Wave) (j : Nat) : (s.onWave k f).context j = s.context j := rfl
@[simp] theorem State.onWave_get_ctl (s : State) (k : Nat) (f : Wave → Wave) (j : Nat) : (s.onWave k f).ctl j = s.ctl j := rfl
@[simp] theorem State.onWave_get_copy (s : State) (k : Nat) (f : Wave → Wave) (j : Nat) : (s.onWave k f).copy j = s.copy j := rfl
@[simp] theorem State.onWave_get_mat (s : State) (k : Nat) (f : Wave → Wave) (j : Nat) : (s.onWave k f).mat j = s.mat j := rfl
@[simp] theorem State.onWave_get_palp (s : State) (k : Nat) (f : Wave → Wave) (j : Nat) : (s.onWave k f).palp j = s.palp j := rfl
@[simp] theorem State.onWave_get_collOp (s : State) (k : Nat) (f : Wave → Wave) (j : Nat) : (s.onWave k f).collOp j = s.collOp j := rfl
@[simp] theorem State.onWave_get_queue (s : State) (k : Nat) (f : Wave → Wave) (j : Nat) : (s.onWave k f).queue j = s.queue j := rfl
@[simp] theorem State.onWave_get_clink (s : State) (k : Nat) (f : Wave → Wave) (j : Nat) : (s.onWave k f).clink j = s.clink j := rfl
@[simp] theorem State.onWave_get_glink (s : State) (k : Nat) (f : Wave → Wave) (j : Nat) : (s.onWave k f).glink j = s.glink j := rfl

/-! ## An entry after its own update -/

theorem State.wave_setWave (s : State) (k : Nat) (w : Wave) (j : Nat) :
    (s.setWave k w).wave j = if j = k then w else s.wave j := Tab.get_put ..

@[simp] theorem State.wave_setWave_same (s : State) (k : Nat) (w : Wave) : (s.setWave k w).wave k = w := by
  simp [State.wave_setWave]

theorem State.block_setBlock (s : State) (k : Nat) (b : Block) (j : Nat) :
    (s.setBlock k b).block j = if j = k then b else s.block j := Tab.get_put ..

@[simp] theorem State.block_setBlock_same (s : State) (k : Nat) (b : Block) : (s.setBlock k b).block k = b := by
  simp [State.block_setBlock]

theorem State.gang_setGang (s : State) (k : Nat) (g : Gang) (j : Nat) :
    (s.setGang k g).gang j = if j = k then g else s.gang j := Tab.get_put ..

@[simp] theorem State.gang_setGang_same (s : State) (k : Nat) (g : Gang) : (s.setGang k g).gang k = g := by
  simp [State.gang_setGang]

theorem State.launch_setLaunch (s : State) (k : Nat) (l : Launch) (j : Nat) :
    (s.setLaunch k l).launch j = if j = k then l else s.launch j := Tab.get_put ..

@[simp] theorem State.launch_setLaunch_same (s : State) (k : Nat) (l : Launch) : (s.setLaunch k l).launch k = l := by
  simp [State.launch_setLaunch]

theorem State.ctl_setCtl (s : State) (k : Nat) (c : CtlCore) (j : Nat) :
    (s.setCtl k c).ctl j = if j = k then c else s.ctl j := Tab.get_put ..

@[simp] theorem State.ctl_setCtl_same (s : State) (k : Nat) (c : CtlCore) : (s.setCtl k c).ctl k = c := by
  simp [State.ctl_setCtl]

theorem State.copy_setCopy (s : State) (k : Nat) (c : CopyOp) (j : Nat) :
    (s.setCopy k c).copy j = if j = k then c else s.copy j := Tab.get_put ..

@[simp] theorem State.copy_setCopy_same (s : State) (k : Nat) (c : CopyOp) : (s.setCopy k c).copy k = c := by
  simp [State.copy_setCopy]

theorem State.mat_setMat (s : State) (k : Nat) (m : MatOp) (j : Nat) :
    (s.setMat k m).mat j = if j = k then m else s.mat j := Tab.get_put ..

@[simp] theorem State.mat_setMat_same (s : State) (k : Nat) (m : MatOp) : (s.setMat k m).mat k = m := by
  simp [State.mat_setMat]

theorem State.palp_setPalp (s : State) (k : Nat) (p : PalpOp) (j : Nat) :
    (s.setPalp k p).palp j = if j = k then p else s.palp j := Tab.get_put ..

@[simp] theorem State.palp_setPalp_same (s : State) (k : Nat) (p : PalpOp) : (s.setPalp k p).palp k = p := by
  simp [State.palp_setPalp]

theorem State.collOp_setColl (s : State) (k : Nat) (c : CollOp) (j : Nat) :
    (s.setColl k c).collOp j = if j = k then c else s.collOp j := Tab.get_put ..

@[simp] theorem State.collOp_setColl_same (s : State) (k : Nat) (c : CollOp) : (s.setColl k c).collOp k = c := by
  simp [State.collOp_setColl]

theorem State.queue_setQueue (s : State) (k : Nat) (q : Queue) (j : Nat) :
    (s.setQueue k q).queue j = if j = k then q else s.queue j := Tab.get_put ..

@[simp] theorem State.queue_setQueue_same (s : State) (k : Nat) (q : Queue) : (s.setQueue k q).queue k = q := by
  simp [State.queue_setQueue]

theorem State.clink_setClink (s : State) (k : Nat) (c : CmdLink) (j : Nat) :
    (s.setClink k c).clink j = if j = k then c else s.clink j := Tab.get_put ..

@[simp] theorem State.clink_setClink_same (s : State) (k : Nat) (c : CmdLink) : (s.setClink k c).clink k = c := by
  simp [State.clink_setClink]

theorem State.glink_setGlink (s : State) (k : Nat) (g : GLink) (j : Nat) :
    (s.setGlink k g).glink j = if j = k then g else s.glink j := Tab.get_put ..

@[simp] theorem State.glink_setGlink_same (s : State) (k : Nat) (g : GLink) : (s.setGlink k g).glink k = g := by
  simp [State.glink_setGlink]

theorem State.wave_onWave (s : State) (k : Nat) (f : Wave → Wave) (j : Nat) :
    (s.onWave k f).wave j = if j = k then f (s.wave k) else s.wave j := State.wave_setWave ..

@[simp] theorem State.wave_onWave_same (s : State) (k : Nat) (f : Wave → Wave) : (s.onWave k f).wave k = f (s.wave k) := by
  simp [State.wave_onWave]

/-! ## Lanes of a wave -/

@[simp] theorem Wave.setLane_used (w : Wave) (l : Nat) (t : Lane) : (w.setLane l t).used = w.used := rfl
@[simp] theorem Wave.setLane_block (w : Wave) (l : Nat) (t : Lane) : (w.setLane l t).block = w.block := rfl
@[simp] theorem Wave.setLane_index (w : Wave) (l : Nat) (t : Lane) : (w.setLane l t).index = w.index := rfl
@[simp] theorem Wave.setLane_slot (w : Wave) (l : Nat) (t : Lane) : (w.setLane l t).slot = w.slot := rfl
@[simp] theorem Wave.setLane_width (w : Wave) (l : Nat) (t : Lane) : (w.setLane l t).width = w.width := rfl
@[simp] theorem Wave.setLane_control (w : Wave) (l : Nat) (t : Lane) : (w.setLane l t).control = w.control := rfl
@[simp] theorem Wave.setLane_unif (w : Wave) (l : Nat) (t : Lane) : (w.setLane l t).unif = w.unif := rfl
@[simp] theorem Wave.setLane_udead (w : Wave) (l : Nat) (t : Lane) : (w.setLane l t).udead = w.udead := rfl
@[simp] theorem Wave.setLane_urecent (w : Wave) (l : Nat) (t : Lane) : (w.setLane l t).urecent = w.urecent := rfl
@[simp] theorem Wave.setLane_uvague (w : Wave) (l : Nat) (t : Lane) : (w.setLane l t).uvague = w.uvague := rfl
@[simp] theorem Wave.setLane_issued (w : Wave) (l : Nat) (t : Lane) : (w.setLane l t).issued = w.issued := rfl
@[simp] theorem Wave.setLane_fwd (w : Wave) (l : Nat) (t : Lane) : (w.setLane l t).fwd = w.fwd := rfl
@[simp] theorem Wave.setLane_part (w : Wave) (l : Nat) (t : Lane) : (w.setLane l t).part = w.part := rfl
@[simp] theorem Wave.setLane_fflags (w : Wave) (l : Nat) (t : Lane) : (w.setLane l t).fflags = w.fflags := rfl
@[simp] theorem Wave.setLane_rmode (w : Wave) (l : Nat) (t : Lane) : (w.setLane l t).rmode = w.rmode := rfl
@[simp] theorem Wave.setLane_mmw (w : Wave) (l : Nat) (t : Lane) : (w.setLane l t).mmw = w.mmw := rfl
@[simp] theorem Wave.setLane_mmerr (w : Wave) (l : Nat) (t : Lane) : (w.setLane l t).mmerr = w.mmerr := rfl
@[simp] theorem Wave.setLane_errs (w : Wave) (l : Nat) (t : Lane) : (w.setLane l t).errs = w.errs := rfl
@[simp] theorem Wave.setLane_instar (w : Wave) (l : Nat) (t : Lane) : (w.setLane l t).instar = w.instar := rfl
@[simp] theorem Wave.setLane_trapm (w : Wave) (l : Nat) (t : Lane) : (w.setLane l t).trapm = w.trapm := rfl
@[simp] theorem Wave.setLane_single (w : Wave) (l : Nat) (t : Lane) : (w.setLane l t).single = w.single := rfl
@[simp] theorem Wave.setLane_stopped (w : Wave) (l : Nat) (t : Lane) : (w.setLane l t).stopped = w.stopped := rfl
@[simp] theorem Wave.setLane_trapc (w : Wave) (l : Nat) (t : Lane) : (w.setLane l t).trapc = w.trapc := rfl
@[simp] theorem Wave.setLane_trapa (w : Wave) (l : Nat) (t : Lane) : (w.setLane l t).trapa = w.trapa := rfl
@[simp] theorem Wave.setLane_handler (w : Wave) (l : Nat) (t : Lane) : (w.setLane l t).handler = w.handler := rfl
@[simp] theorem Wave.setLane_flights (w : Wave) (l : Nat) (t : Lane) : (w.setLane l t).flights = w.flights := rfl
@[simp] theorem Wave.setLane_tokens (w : Wave) (l : Nat) (t : Lane) : (w.setLane l t).tokens = w.tokens := rfl
@[simp] theorem Wave.setLane_phases (w : Wave) (l : Nat) (t : Lane) : (w.setLane l t).phases = w.phases := rfl
@[simp] theorem Wave.setLane_flipped (w : Wave) (l : Nat) (t : Lane) : (w.setLane l t).flipped = w.flipped := rfl
@[simp] theorem Wave.setLane_view (w : Wave) (l : Nat) (t : Lane) : (w.setLane l t).view = w.view := rfl
@[simp] theorem Wave.setLane_known (w : Wave) (l : Nat) (t : Lane) : (w.setLane l t).known = w.known := rfl
@[simp] theorem Wave.setLane_told (w : Wave) (l : Nat) (t : Lane) : (w.setLane l t).told = w.told := rfl
@[simp] theorem Wave.setLane_heard (w : Wave) (l : Nat) (t : Lane) : (w.setLane l t).heard = w.heard := rfl
@[simp] theorem Wave.setLane_since (w : Wave) (l : Nat) (t : Lane) : (w.setLane l t).since = w.since := rfl
@[simp] theorem Wave.setLane_retired (w : Wave) (l : Nat) (t : Lane) : (w.setLane l t).retired = w.retired := rfl
@[simp] theorem Wave.setLane_pend (w : Wave) (l : Nat) (t : Lane) : (w.setLane l t).pend = w.pend := rfl
@[simp] theorem Wave.setLane_later (w : Wave) (l : Nat) (t : Lane) : (w.setLane l t).later = w.later := rfl
@[simp] theorem Wave.setLane_service (w : Wave) (l : Nat) (t : Lane) : (w.setLane l t).service = w.service := rfl
@[simp] theorem Wave.setLane_code (w : Wave) (l : Nat) (t : Lane) : (w.setLane l t).code = w.code := rfl
@[simp] theorem Wave.setLane_dirty (w : Wave) (l : Nat) (t : Lane) : (w.setLane l t).dirty = w.dirty := rfl

theorem Wave.lane_setLane (w : Wave) (l : Nat) (t : Lane) (j : Nat) :
    (w.setLane l t).lane j = if j = l then t else w.lane j := Tab.get_put ..

@[simp] theorem Wave.lane_setLane_same (w : Wave) (l : Nat) (t : Lane) : (w.setLane l t).lane l = t := by
  simp [Wave.lane_setLane]

/-- A fold that only changes lanes keeps what no lane change touches. -/
theorem Wave.foldl_keep {α β : Type} (π : Wave → β) (g : Wave → α → Wave) (h : ∀ w a, π (g w a) = π w)
    (as : List α) (w : Wave) : π (as.foldl g w) = π w := by
  induction as generalizing w with
  | nil => rfl
  | cons a as ih => rw [List.foldl_cons, ih, h]

/-- A fold over states that keeps a part of the state. -/
theorem State.foldl_keep {α β : Type} (π : State → β) (g : State → α → State) (h : ∀ s a, π (g s a) = π s)
    (as : List α) (s : State) : π (as.foldl g s) = π s := by
  induction as generalizing s with
  | nil => rfl
  | cons a as ih => rw [List.foldl_cons, ih, h]

/-- An update of lanes changes nothing else of a wave. -/
theorem Wave.onLanes_shape (w : Wave) (ls : List Nat) (f : Lane → Lane) :
    w.onLanes ls f = { w with lanes := (w.onLanes ls f).lanes } := by
  unfold Wave.onLanes
  induction ls generalizing w with
  | nil => rfl
  | cons l ls ih => rw [List.foldl_cons, ih]; rfl

@[simp] theorem Wave.onLanes_used (w : Wave) (ls : List Nat) (f : Lane → Lane) : (w.onLanes ls f).used = w.used :=
  (congrArg Wave.used (Wave.onLanes_shape w ls f) :)
@[simp] theorem Wave.onLanes_block (w : Wave) (ls : List Nat) (f : Lane → Lane) : (w.onLanes ls f).block = w.block :=
  (congrArg Wave.block (Wave.onLanes_shape w ls f) :)
@[simp] theorem Wave.onLanes_index (w : Wave) (ls : List Nat) (f : Lane → Lane) : (w.onLanes ls f).index = w.index :=
  (congrArg Wave.index (Wave.onLanes_shape w ls f) :)
@[simp] theorem Wave.onLanes_slot (w : Wave) (ls : List Nat) (f : Lane → Lane) : (w.onLanes ls f).slot = w.slot :=
  (congrArg Wave.slot (Wave.onLanes_shape w ls f) :)
@[simp] theorem Wave.onLanes_width (w : Wave) (ls : List Nat) (f : Lane → Lane) : (w.onLanes ls f).width = w.width :=
  (congrArg Wave.width (Wave.onLanes_shape w ls f) :)
@[simp] theorem Wave.onLanes_control (w : Wave) (ls : List Nat) (f : Lane → Lane) : (w.onLanes ls f).control = w.control :=
  (congrArg Wave.control (Wave.onLanes_shape w ls f) :)
@[simp] theorem Wave.onLanes_unif (w : Wave) (ls : List Nat) (f : Lane → Lane) : (w.onLanes ls f).unif = w.unif :=
  (congrArg Wave.unif (Wave.onLanes_shape w ls f) :)
@[simp] theorem Wave.onLanes_udead (w : Wave) (ls : List Nat) (f : Lane → Lane) : (w.onLanes ls f).udead = w.udead :=
  (congrArg Wave.udead (Wave.onLanes_shape w ls f) :)
@[simp] theorem Wave.onLanes_urecent (w : Wave) (ls : List Nat) (f : Lane → Lane) : (w.onLanes ls f).urecent = w.urecent :=
  (congrArg Wave.urecent (Wave.onLanes_shape w ls f) :)
@[simp] theorem Wave.onLanes_uvague (w : Wave) (ls : List Nat) (f : Lane → Lane) : (w.onLanes ls f).uvague = w.uvague :=
  (congrArg Wave.uvague (Wave.onLanes_shape w ls f) :)
@[simp] theorem Wave.onLanes_issued (w : Wave) (ls : List Nat) (f : Lane → Lane) : (w.onLanes ls f).issued = w.issued :=
  (congrArg Wave.issued (Wave.onLanes_shape w ls f) :)
@[simp] theorem Wave.onLanes_fwd (w : Wave) (ls : List Nat) (f : Lane → Lane) : (w.onLanes ls f).fwd = w.fwd :=
  (congrArg Wave.fwd (Wave.onLanes_shape w ls f) :)
@[simp] theorem Wave.onLanes_part (w : Wave) (ls : List Nat) (f : Lane → Lane) : (w.onLanes ls f).part = w.part :=
  (congrArg Wave.part (Wave.onLanes_shape w ls f) :)
@[simp] theorem Wave.onLanes_fflags (w : Wave) (ls : List Nat) (f : Lane → Lane) : (w.onLanes ls f).fflags = w.fflags :=
  (congrArg Wave.fflags (Wave.onLanes_shape w ls f) :)
@[simp] theorem Wave.onLanes_rmode (w : Wave) (ls : List Nat) (f : Lane → Lane) : (w.onLanes ls f).rmode = w.rmode :=
  (congrArg Wave.rmode (Wave.onLanes_shape w ls f) :)
@[simp] theorem Wave.onLanes_mmw (w : Wave) (ls : List Nat) (f : Lane → Lane) : (w.onLanes ls f).mmw = w.mmw :=
  (congrArg Wave.mmw (Wave.onLanes_shape w ls f) :)
@[simp] theorem Wave.onLanes_mmerr (w : Wave) (ls : List Nat) (f : Lane → Lane) : (w.onLanes ls f).mmerr = w.mmerr :=
  (congrArg Wave.mmerr (Wave.onLanes_shape w ls f) :)
@[simp] theorem Wave.onLanes_errs (w : Wave) (ls : List Nat) (f : Lane → Lane) : (w.onLanes ls f).errs = w.errs :=
  (congrArg Wave.errs (Wave.onLanes_shape w ls f) :)
@[simp] theorem Wave.onLanes_instar (w : Wave) (ls : List Nat) (f : Lane → Lane) : (w.onLanes ls f).instar = w.instar :=
  (congrArg Wave.instar (Wave.onLanes_shape w ls f) :)
@[simp] theorem Wave.onLanes_trapm (w : Wave) (ls : List Nat) (f : Lane → Lane) : (w.onLanes ls f).trapm = w.trapm :=
  (congrArg Wave.trapm (Wave.onLanes_shape w ls f) :)
@[simp] theorem Wave.onLanes_single (w : Wave) (ls : List Nat) (f : Lane → Lane) : (w.onLanes ls f).single = w.single :=
  (congrArg Wave.single (Wave.onLanes_shape w ls f) :)
@[simp] theorem Wave.onLanes_stopped (w : Wave) (ls : List Nat) (f : Lane → Lane) : (w.onLanes ls f).stopped = w.stopped :=
  (congrArg Wave.stopped (Wave.onLanes_shape w ls f) :)
@[simp] theorem Wave.onLanes_trapc (w : Wave) (ls : List Nat) (f : Lane → Lane) : (w.onLanes ls f).trapc = w.trapc :=
  (congrArg Wave.trapc (Wave.onLanes_shape w ls f) :)
@[simp] theorem Wave.onLanes_trapa (w : Wave) (ls : List Nat) (f : Lane → Lane) : (w.onLanes ls f).trapa = w.trapa :=
  (congrArg Wave.trapa (Wave.onLanes_shape w ls f) :)
@[simp] theorem Wave.onLanes_handler (w : Wave) (ls : List Nat) (f : Lane → Lane) : (w.onLanes ls f).handler = w.handler :=
  (congrArg Wave.handler (Wave.onLanes_shape w ls f) :)
@[simp] theorem Wave.onLanes_flights (w : Wave) (ls : List Nat) (f : Lane → Lane) : (w.onLanes ls f).flights = w.flights :=
  (congrArg Wave.flights (Wave.onLanes_shape w ls f) :)
@[simp] theorem Wave.onLanes_tokens (w : Wave) (ls : List Nat) (f : Lane → Lane) : (w.onLanes ls f).tokens = w.tokens :=
  (congrArg Wave.tokens (Wave.onLanes_shape w ls f) :)
@[simp] theorem Wave.onLanes_phases (w : Wave) (ls : List Nat) (f : Lane → Lane) : (w.onLanes ls f).phases = w.phases :=
  (congrArg Wave.phases (Wave.onLanes_shape w ls f) :)
@[simp] theorem Wave.onLanes_flipped (w : Wave) (ls : List Nat) (f : Lane → Lane) : (w.onLanes ls f).flipped = w.flipped :=
  (congrArg Wave.flipped (Wave.onLanes_shape w ls f) :)
@[simp] theorem Wave.onLanes_view (w : Wave) (ls : List Nat) (f : Lane → Lane) : (w.onLanes ls f).view = w.view :=
  (congrArg Wave.view (Wave.onLanes_shape w ls f) :)
@[simp] theorem Wave.onLanes_known (w : Wave) (ls : List Nat) (f : Lane → Lane) : (w.onLanes ls f).known = w.known :=
  (congrArg Wave.known (Wave.onLanes_shape w ls f) :)
@[simp] theorem Wave.onLanes_told (w : Wave) (ls : List Nat) (f : Lane → Lane) : (w.onLanes ls f).told = w.told :=
  (congrArg Wave.told (Wave.onLanes_shape w ls f) :)
@[simp] theorem Wave.onLanes_heard (w : Wave) (ls : List Nat) (f : Lane → Lane) : (w.onLanes ls f).heard = w.heard :=
  (congrArg Wave.heard (Wave.onLanes_shape w ls f) :)
@[simp] theorem Wave.onLanes_since (w : Wave) (ls : List Nat) (f : Lane → Lane) : (w.onLanes ls f).since = w.since :=
  (congrArg Wave.since (Wave.onLanes_shape w ls f) :)
@[simp] theorem Wave.onLanes_retired (w : Wave) (ls : List Nat) (f : Lane → Lane) : (w.onLanes ls f).retired = w.retired :=
  (congrArg Wave.retired (Wave.onLanes_shape w ls f) :)
@[simp] theorem Wave.onLanes_pend (w : Wave) (ls : List Nat) (f : Lane → Lane) : (w.onLanes ls f).pend = w.pend :=
  (congrArg Wave.pend (Wave.onLanes_shape w ls f) :)
@[simp] theorem Wave.onLanes_later (w : Wave) (ls : List Nat) (f : Lane → Lane) : (w.onLanes ls f).later = w.later :=
  (congrArg Wave.later (Wave.onLanes_shape w ls f) :)
@[simp] theorem Wave.onLanes_service (w : Wave) (ls : List Nat) (f : Lane → Lane) : (w.onLanes ls f).service = w.service :=
  (congrArg Wave.service (Wave.onLanes_shape w ls f) :)
@[simp] theorem Wave.onLanes_code (w : Wave) (ls : List Nat) (f : Lane → Lane) : (w.onLanes ls f).code = w.code :=
  (congrArg Wave.code (Wave.onLanes_shape w ls f) :)
@[simp] theorem Wave.onLanes_dirty (w : Wave) (ls : List Nat) (f : Lane → Lane) : (w.onLanes ls f).dirty = w.dirty :=
  (congrArg Wave.dirty (Wave.onLanes_shape w ls f) :)

/-- What an update of some lanes leaves of a lane, where the update keeps it. -/
theorem Wave.lane_onLanes_keep {β : Type} (π : Lane → β) (w : Wave) (ls : List Nat) (f : Lane → Lane)
    (h : ∀ t, π (f t) = π t) (j : Nat) : π ((w.onLanes ls f).lane j) = π (w.lane j) := by
  unfold Wave.onLanes
  exact Wave.foldl_keep (fun w => π (w.lane j)) _ (fun w l => by
    simp only [Wave.lane_setLane]
    split
    · rename_i e; rw [h, e]
    · rfl) ls w

/-- A lane outside an update of some lanes. -/
theorem Wave.lane_onLanes_ne (w : Wave) (ls : List Nat) (f : Lane → Lane) (j : Nat) (h : j ∉ ls) :
    (w.onLanes ls f).lane j = w.lane j := by
  unfold Wave.onLanes
  induction ls generalizing w with
  | nil => rfl
  | cons l ls ih =>
    simp only [List.mem_cons, not_or] at h
    rw [List.foldl_cons, ih _ h.2, Wave.lane_setLane, if_neg h.1]

/-- A lane inside an update of distinct lanes. -/
theorem Wave.lane_onLanes_mem (w : Wave) (ls : List Nat) (f : Lane → Lane) (j : Nat) (h : j ∈ ls) (hn : ls.Nodup) :
    (w.onLanes ls f).lane j = f (w.lane j) := by
  induction ls generalizing w with
  | nil => exact absurd h (List.not_mem_nil)
  | cons l ls ih =>
    rw [List.nodup_cons] at hn
    show (Wave.onLanes (w.setLane l (f (w.lane l))) ls f).lane j = f (w.lane j)
    by_cases e : j = l
    · subst e
      rw [Wave.lane_onLanes_ne _ _ _ _ hn.1, Wave.lane_setLane_same]
    · rw [ih _ ((List.mem_cons.mp h).resolve_left e) hn.2, Wave.lane_setLane, if_neg e]

end Sys2Proof.Machine
end

