-- ==== Sys2Proof/Laws/Issue.lean ====
section
/-! SUPPORT. What a Sirgen instruction's end does, said once: the turn's end, retirement, and the frame that every
instruction keeps whose effect is on its own threads (R38, R143-R151). -/

namespace Sys2Proof.Machine

/-! ## The end of a turn -/

theorem State.endTurn_shape (s : State) (more : Option Pipe) : s.endTurn more = { s with iss := s.nextIssue more } :=
  rfl

theorem State.stepped_of_not_single (s : State) (h : s.cur.single = false) : s.stepped = s := by
  unfold State.stepped
  have h' : (s.wave s.iss.wave).single = false := h
  simp [h']

/-! ## Kills -/

theorem State.killTiles_shape (s : State) (k : Nat) (ns : List (Nat × Nat)) :
    s.killTiles k ns = { s with blocks := (s.killTiles k ns).blocks } := by
  unfold State.killTiles
  induction ns generalizing s with
  | nil => rfl
  | cons n ns ih =>
    rw [List.foldl_cons, ih]
    split <;> rfl

/-- Kills of tiles look at the blocks alone. -/
theorem State.killTiles_blocks (s t : State) (hb : s.blocks = t.blocks) (b : Nat) (ns : List (Nat × Nat)) :
    (s.killTiles b ns).blocks = (t.killTiles b ns).blocks := by
  unfold State.killTiles
  induction ns generalizing s t with
  | nil => exact hb
  | cons n ns ih =>
    rw [List.foldl_cons, List.foldl_cons]
    apply ih
    split
    · simp only [State.setBlock, State.block, hb]
    · exact hb

/-- Names of other classes leave the tiles. -/
theorem State.killTiles_none (s : State) (b : Nat) (ns : List (Nat × Nat)) (h : ∀ n ∈ ns, n.1 ≠ 5) :
    s.killTiles b ns = s := by
  unfold State.killTiles
  induction ns with
  | nil => rfl
  | cons n ns ih =>
    rw [List.foldl_cons, if_neg]
    · exact ih fun m hm => h m (List.mem_cons_of_mem _ hm)
    · simpa using h n (List.mem_cons_self ..)

theorem Wave.kill_arch (w : Wave) (act : List Nat) (ns : List (Nat × Nat)) : (w.kill act ns).arch = w.arch := by
  unfold Wave.kill
  refine Wave.foldl_keep Wave.arch _ (fun w n => ?_) ns w
  split
  · rw [Wave.onLanes_shape]; rfl
  · rfl
  · rfl

theorem Wave.kill_lane (w : Wave) (act : List Nat) (ns : List (Nat × Nat)) (l : Nat) :
    ((w.kill act ns).lane l).arch = (w.lane l).arch := by
  unfold Wave.kill
  refine Wave.foldl_keep (fun w => (w.lane l).arch) _ (fun w n => ?_) ns w
  split
  · refine Wave.lane_onLanes_keep Lane.arch w act _ ?_ l
    intro t; rfl
  · rfl
  · rfl

/-! ## Advancing -/

theorem Lane.goto_arch (t : Lane) (pc : BitVec 64) : (t.goto pc).arch = { t.arch with pc := pc } := rfl

theorem Wave.foldl_goto_arch (ls : List Nat) (f : Nat → BitVec 64) (w : Wave) :
    (ls.foldl (fun w l => w.setLane l ((w.lane l).goto (f l))) w).arch = w.arch := by
  refine Wave.foldl_keep Wave.arch _ ?_ ls w
  intro w l; rfl

theorem Wave.foldl_goto_lane (ls : List Nat) (f : Nat → BitVec 64) (w : Wave) (l : Nat) :
    ((ls.foldl (fun w l => w.setLane l ((w.lane l).goto (f l))) w).lane l).arch =
      if l ∈ ls then { (w.lane l).arch with pc := f l } else (w.lane l).arch := by
  induction ls generalizing w with
  | nil => rfl
  | cons a ls ih =>
    rw [List.foldl_cons, ih]
    by_cases h : l = a
    · subst h
      simp only [Wave.lane_setLane, if_pos, Lane.goto_arch, List.mem_cons_self, ite_self]
    · have hm : l ∈ a :: ls ↔ l ∈ ls := by simp [h]
      simp only [Wave.lane_setLane, if_neg h, hm]

theorem Wave.advance_arch (w : Wave) (ls : List Nat) (next : BitVec 64) (dest : List (Nat × BitVec 64))
    (chain : Bool) : (w.advance ls next dest chain).arch = w.arch := by
  unfold Wave.advance
  rw [Wave.foldl_goto_arch ls (fun l => ((dest.find? fun p => p.1 == l).map Prod.snd).getD next)]
  rw [Wave.onLanes_shape]
  rfl

theorem Wave.advance_lane (w : Wave) (ls : List Nat) (next : BitVec 64) (dest : List (Nat × BitVec 64))
    (chain : Bool) (l : Nat) : ((w.advance ls next dest chain).lane l).arch =
      if l ∈ ls then { (w.lane l).arch with pc := ((dest.find? fun p => p.1 == l).map Prod.snd).getD next }
      else (w.lane l).arch := by
  unfold Wave.advance
  rw [Wave.foldl_goto_lane ls (fun l => ((dest.find? fun p => p.1 == l).map Prod.snd).getD next)]
  rw [Wave.lane_onLanes_keep (fun t => t.arch) w ls
    (fun t => { t.tick with wait := .none, passed := 0, held := false, chain := chain }) (fun t => rfl) l]

theorem Wave.slide_arch (w : Wave) : w.slide.arch = w.arch := rfl

theorem Wave.slide_lane (w : Wave) (l : Nat) : w.slide.lane l = w.lane l := rfl

theorem Wave.wake_arch (w : Wave) (p : Wait → Bool) : (w.wake p).arch = w.arch := by
  unfold Wave.wake
  rw [Wave.onLanes_shape]
  rfl

theorem Wave.wake_lane (w : Wave) (p : Wait → Bool) (l : Nat) : ((w.wake p).lane l).arch = (w.lane l).arch := by
  refine Wave.lane_onLanes_keep Lane.arch w _ _ ?_ l
  intro t; rfl

/-- What completing does to a wave's registers. -/
theorem Wave.complete_arch (w : Wave) (i : Instr) (act ls : List Nat) (pc next : BitVec 64)
    (dest : List (Nat × BitVec 64)) (mark : Bool) : (w.complete i act ls pc next dest mark).arch = w.arch := by
  have key : ((w.kill act (endedNames i act)).advance ls next dest (chainOf i)).slide.arch = w.arch := by
    rw [Wave.slide_arch, Wave.advance_arch, Wave.kill_arch]
  simp only [Wave.complete]
  split
  · refine (Wave.foldl_keep Wave.arch _ ?_ dest _).trans key
    intro w p; rfl
  · exact key

/-- What completing does to a lane. -/
theorem Wave.complete_lane (w : Wave) (i : Instr) (act ls : List Nat) (pc next : BitVec 64)
    (dest : List (Nat × BitVec 64)) (mark : Bool) (l : Nat) :
    ((w.complete i act ls pc next dest mark).lane l).arch =
      if l ∈ ls then { (w.lane l).arch with pc := ((dest.find? fun p => p.1 == l).map Prod.snd).getD next }
      else (w.lane l).arch := by
  have key : ((((w.kill act (endedNames i act)).advance ls next dest (chainOf i)).slide).lane l).arch =
      if l ∈ ls then { (w.lane l).arch with pc := ((dest.find? fun p => p.1 == l).map Prod.snd).getD next }
      else (w.lane l).arch := by
    rw [Wave.slide_lane, Wave.advance_lane, Wave.kill_lane]
  simp only [Wave.complete]
  split
  · refine (Wave.foldl_keep (fun w => (w.lane l).arch) _ ?_ dest _).trans key
    intro w p
    simp only [Wave.lane_setLane]
    split
    · rename_i h; subst h; rfl
    · rfl
  · exact key

/-! ## Retirement -/

theorem State.countIr_shape (s : State) (k : Nat) : s.countIr k = { s with gangs := (s.countIr k).gangs } := by
  unfold State.countIr
  split <;> rfl

theorem State.countIr_gang (s : State) (k g : Nat) :
    (s.countIr k).gang g = { s.gang g with ir := ((s.countIr k).gang g).ir } := by
  unfold State.countIr
  split
  · rfl
  · simp only [State.gang_setGang]
    split
    · rename_i h; subst h; rfl
    · rfl

theorem State.commit_shape (s t : State) (i : Instr) (act : List Nat) (dest : List (Nat × BitVec 64)) (mark : Bool) :
    s.commit t i act dest mark = { t with
      waves := (s.commit t i act dest mark).waves, gangs := (s.commit t i act dest mark).gangs
      blocks := (s.commit t i act dest mark).blocks } := by
  unfold State.commit
  rw [State.killTiles_shape, State.countIr_shape]
  rfl

theorem State.commit_blocks (s t : State) (i : Instr) (act : List Nat) (dest : List (Nat × BitVec 64)) (mark : Bool) :
    (s.commit t i act dest mark).blocks = (t.killTiles s.cur.block (endedNames i act)).blocks := by
  refine State.killTiles_blocks (t.countIr s.iss.wave) t ?_ _ _
  rw [State.countIr_shape]

theorem State.commit_gang (s t : State) (i : Instr) (act : List Nat) (dest : List (Nat × BitVec 64)) (mark : Bool)
    (g : Nat) : (s.commit t i act dest mark).gang g = (t.countIr s.iss.wave).gang g := by
  unfold State.commit
  rw [State.killTiles_shape]
  rfl

theorem State.commit_wave (s t : State) (i : Instr) (act : List Nat) (dest : List (Nat × BitVec 64)) (mark : Bool)
    (j : Nat) : (s.commit t i act dest mark).wave j =
      if j = s.iss.wave then (t.wave j).complete i act s.issuing s.iss.pc s.iss.next dest mark else t.wave j := by
  unfold State.commit
  rw [State.wave_onWave, State.killTiles_shape, State.countIr_shape]
  split
  · rename_i h; subst h; rfl
  · rfl

theorem State.commit_retired (s t : State) (i : Instr) (act : List Nat) (dest : List (Nat × BitVec 64)) (mark : Bool) :
    Retired s t i act dest (s.commit t i act dest mark) where
  device := by rw [State.commit_shape]
  blocks := State.commit_blocks ..
  gangs g := by rw [State.commit_gang]; exact State.countIr_gang t s.iss.wave g
  waves j h := by rw [State.commit_wave, if_neg h]
  wave := by rw [State.commit_wave, if_pos rfl]; exact Wave.complete_arch ..
  lanes l := by rw [State.commit_wave, if_pos rfl]; exact Wave.complete_lane ..

theorem State.commit_iss (s t : State) (i : Instr) (act : List Nat) (dest : List (Nat × BitVec 64)) (mark : Bool) :
    (s.commit t i act dest mark).iss = t.iss := by
  rw [State.commit_shape]

/-- The end of an instruction of a wave that no debugger steps. -/
theorem State.retire_retired (s t : State) (i : Instr) (act : List Nat) (dest : List (Nat × BitVec 64)) (mark : Bool)
    (hk : t.iss.wave = s.iss.wave) (hs : t.cur.single = false) :
    Retired s t i act dest (s.retire t i act dest mark) := by
  have h := State.commit_retired s t i act dest mark
  have hi := State.commit_iss s t i act dest mark
  unfold State.retire
  generalize s.commit t i act dest mark = r at h hi
  have hst : r.stepped = r := by
    apply State.stepped_of_not_single
    show (r.wave r.iss.wave).single = false
    rw [hi, hk]
    refine (congrArg Wave.single h.wave).trans ?_
    rw [← hk]
    exact hs
  rw [hst, State.endTurn_shape]
  exact ⟨h.device, h.blocks, h.gangs, h.waves, h.wave, h.lanes⟩

end Sys2Proof.Machine
end

