-- ==== Sys2Proof/Laws/Lane.lean ====
section
/-! SUPPORT. What the effects of Sirgen instructions do, said once for each operation: writes of lane names and
uniform names, pushes, results that leave, flags. -/

namespace Sys2Proof.Machine

/-! ## The lanes of an issue -/

theorem State.issuing_nodup (s : State) : s.issuing.Nodup :=
  (List.nodup_range.filter _).filter _

theorem State.active_nodup (s : State) (i : Instr) : (s.active i).Nodup := s.issuing_nodup.filter _

theorem State.active_issuing (s : State) (i : Instr) (l : Nat) (h : l ∈ s.active i) : l ∈ s.issuing :=
  (List.mem_filter.mp h).1

/-- A ready lane set has its instruction's effect. -/
theorem State.issue_ready (s : State) (i : Instr) (f : State → List Nat → Eff) (h : s.ready i = true) :
    s.issue i f = s.finish i (s.active i) (f s (s.active i)) := by
  simp only [State.ready, Bool.and_eq_true, Bool.not_eq_true'] at h
  obtain ⟨⟨⟨⟨⟨⟨_, h1⟩, h2⟩, h3⟩, h5⟩, h4⟩, _⟩ := h
  simp only [State.issue, h1, h2, h3, h5, State.counted, h4, Bool.false_eq_true, if_false, if_true]

theorem State.ready_single (s : State) (i : Instr) (h : s.ready i = true) : s.cur.single = false := by
  simp only [State.ready, Bool.and_eq_true, Bool.not_eq_true'] at h
  exact h.2

theorem State.ready_active (s : State) (i : Instr) (h : s.ready i = true) : s.active i ≠ [] := by
  simp only [State.ready, Bool.and_eq_true, Bool.not_eq_true'] at h
  intro e
  simp [e] at h

theorem State.ready_badNames (s : State) (i : Instr) (h : s.ready i = true) : s.badNames = [] := by
  simp only [State.ready, Bool.and_eq_true, Bool.not_eq_true', List.isEmpty_iff] at h
  exact h.1.2

theorem State.endedNames_ready (s : State) (i : Instr) (h : s.ready i = true) :
    endedNames i (s.active i) = killedNames i := by
  have := s.ready_active i h
  simp [endedNames, this]

/-- An effect on a ready lane set's own threads and registers gives a `ThreadResult`. -/
theorem State.retire_result (s t : State) (i : Instr) (dest : List (Nat × BitVec 64)) (mark : Bool)
    (lane : Nat → Lane → Lane) (wave : Wave → Wave) (h : s.ready i = true)
    (hi : t.iss.wave = s.iss.wave)
    (hd : { t with waves := s.waves, iss := s.iss } = s)
    (hw : ∀ j, j ≠ s.iss.wave → t.wave j = s.wave j)
    (hr : (t.wave s.iss.wave).arch = wave s.cur.arch)
    (hs : (t.wave s.iss.wave).single = false)
    (hl : ∀ l, l ∈ s.issuing →
      { ((t.wave s.iss.wave).lane l).arch with pc := s.pcAfter dest l } = lane l (s.cur.lane l).arch)
    (ho : ∀ l, l ∉ s.issuing → ((t.wave s.iss.wave).lane l).arch = (s.cur.lane l).arch) :
    ThreadResult i s (s.retire t i (s.active i) dest mark) lane wave := by
  have q := State.retire_retired s t i (s.active i) dest mark hi
    (by show (t.wave t.iss.wave).single = false; rw [hi]; exact hs)
  generalize s.retire t i (s.active i) dest mark = r at q
  have hb : t.blocks = s.blocks := (congrArg State.blocks hd :)
  have hg : t.gangs = s.gangs := (congrArg State.gangs hd :)
  have hm : r.mem = s.mem := by
    have h1 : r.mem = t.mem := (congrArg State.mem q.device :)
    have h2 : t.mem = s.mem := (congrArg State.mem hd :)
    exact h1.trans h2
  refine ⟨⟨?_, ?_, ?_, ?_, ?_, ?_⟩, ?_, ?_⟩
  · have e := q.device
    unfold State.sameDevice
    calc _ = { { r with waves := t.waves, gangs := t.gangs, blocks := t.blocks, iss := t.iss } with
                 waves := s.waves, gangs := s.gangs, blocks := s.blocks, iss := s.iss } := rfl
      _ = { t with waves := s.waves, gangs := s.gangs, blocks := s.blocks, iss := s.iss } := by rw [e]
      _ = { { t with waves := s.waves, iss := s.iss } with gangs := s.gangs, blocks := s.blocks } := rfl
      _ = s := by rw [hd]
  · intro a; rw [hm]
  · rw [q.blocks, s.endedNames_ready i h]
    exact State.killTiles_blocks t s hb _ _
  · intro g
    have := q.gangs g
    simp only [State.gang, hg] at this ⊢
    exact this
  · intro j hj; rw [q.waves j hj, hw j hj]
  · intro l hl'; rw [q.lanes l, if_neg hl', ho l hl']
  · intro l hl'; rw [q.lanes l, if_pos hl', hl l hl']
  · rw [q.wave, hr]

/-! ## Folds over lanes -/

/-- A fold that sets distinct lanes, each by a value. -/
theorem Wave.foldl_setLane {β : Type} (G : β → Lane → Lane) (v : Nat → β) (ls : List Nat) (hn : ls.Nodup) (w : Wave)
    (j : Nat) : (((ls.map fun l => (l, v l)).foldl (fun w p => w.setLane p.1 (G p.2 (w.lane p.1))) w).lane j) =
      if j ∈ ls then G (v j) (w.lane j) else w.lane j := by
  induction ls generalizing w with
  | nil => rfl
  | cons l ls ih =>
    rw [List.nodup_cons] at hn
    rw [List.map_cons, List.foldl_cons, ih hn.2]
    by_cases h : j = l
    · subst h
      simp [hn.1]
    · simp [Wave.lane_setLane, h]

theorem Wave.foldl_setLane_arch {β : Type} (G : Wave → Nat × β → Lane) (ps : List (Nat × β)) (w : Wave) :
    (ps.foldl (fun w p => w.setLane p.1 (G w p)) w).arch = w.arch := by
  refine Wave.foldl_keep Wave.arch _ ?_ ps w
  intro w p; rfl

theorem Wave.foldl_setLane_shape {β : Type} (G : Wave → Nat × β → Lane) (ps : List (Nat × β)) (w : Wave) :
    ps.foldl (fun w p => w.setLane p.1 (G w p)) w =
      { w with lanes := (ps.foldl (fun w p => w.setLane p.1 (G w p)) w).lanes } := by
  induction ps generalizing w with
  | nil => rfl
  | cons p ps ih => rw [List.foldl_cons, ih]; rfl

/-! ## Lane names -/

theorem Lane.write_arch (t : Lane) (width name : Nat) (v : BitVec 64) : (t.write width name v).arch =
    { t.arch with names := t.names.put name (BitVec.ofNat 64 (v.toNat % 2 ^ width)) } := rfl

theorem Wave.soil_lane (w : Wave) (width name : Nat) (ls : List Nat) (l : Nat) :
    (w.soil width name ls).lane l = w.lane l := by
  unfold Wave.soil
  simp only []
  split <;> rfl

theorem Wave.soil_arch (w : Wave) (width name : Nat) (ls : List Nat) : (w.soil width name ls).arch = w.arch := by
  unfold Wave.soil
  simp only []
  split <;> rfl

theorem Wave.forward_lane (w : Wave) (c n : Nat) (ls : List Nat) (l : Nat) : (w.forward c n ls).lane l = w.lane l := rfl

theorem Wave.forward_arch (w : Wave) (c n : Nat) (ls : List Nat) : (w.forward c n ls).arch = w.arch := rfl

/-- What a write of a lane name does to the wave. -/
theorem State.writeLanesOf_wave (s : State) (k name : Nat) (ls : List Nat) (hn : ls.Nodup) (v : Nat → BitVec 64) :
    ∃ w, (s.writeLanesOf k name (ls.map fun l => (l, v l))).wave k = w ∧
      w.arch = ((s.wave k).cancelLane name ls).arch ∧
      ∀ l, (w.lane l).arch = if l ∈ ls then
        { ((s.wave k).lane l).arch with
          names := ((s.wave k).lane l).names.put name
            (BitVec.ofNat 64 ((v l).toNat % 2 ^ s.laneWidth (s.wave k) name)) }
        else ((s.wave k).lane l).arch := by
  have hm : (ls.map fun l => (l, v l)).map Prod.fst = ls := by simp [Function.comp_def]
  refine ⟨_, rfl, ?_, ?_⟩
  · unfold State.writeLanesOf
    rw [State.wave_onWave_same, hm]
    refine (Wave.foldl_setLane_arch (fun w p => (w.lane p.1).write _ name p.2) _ _).trans ?_
    rw [Wave.forward_arch, Wave.soil_arch]
    rfl
  · intro l
    unfold State.writeLanesOf
    rw [State.wave_onWave_same, hm,
      Wave.foldl_setLane (fun x t => Lane.write t (s.laneWidth (s.wave k) name) name x) v ls hn, Wave.forward_lane,
      Wave.soil_lane]
    split <;> rfl

theorem State.laneWidth_dvd (s : State) (w : Wave) (d : Nat) : 2 ^ s.laneWidth w d ∣ 2 ^ 64 := by
  unfold State.laneWidth
  split
  · split <;> decide
  · decide

theorem State.atWidth_ofNat (s : State) (d x : Nat) :
    BitVec.ofNat 64 ((BitVec.ofNat 64 x).toNat % 2 ^ s.laneWidth s.cur d) = s.atWidth d x := by
  unfold State.atWidth
  rw [BitVec.toNat_ofNat, Nat.mod_mod_of_dvd _ (s.laneWidth_dvd s.cur d)]

/-- A write of a lane name in a ready lane set's active lanes, and what it leaves. -/
theorem State.issue_laneEff (s : State) (i : Instr) (d : Nat) (f : Nat → Nat) (h : s.ready i = true)
    (g : State → List Nat → Eff) (hg : g s (s.active i) = s.laneEff d (s.active i) f) :
    ThreadResult i s (s.issue i g)
      (s.toNext i fun l a => { a with names := a.names.put d (s.atWidth d (f l)) })
      (fun w => w.cancelLane d (s.active i)) := by
  rw [s.issue_ready i g h, hg]
  show ThreadResult i s (s.retire (s.writeLanes d _) i (s.active i) [] false) _ _
  obtain ⟨w, e, ha, hl⟩ := s.writeLanesOf_wave s.iss.wave d (s.active i) (s.active_nodup i)
    fun l => BitVec.ofNat 64 (f l)
  apply State.retire_result
  · exact h
  · rfl
  · have hb := s.ready_badNames i h
    show ({ s with badNames := s.badNames.filter _ } : State) = s
    rw [hb]
    cases s
    cases hb
    rfl
  · intro j hj
    show (State.onWave _ _ _).wave j = _
    rw [State.wave_onWave, if_neg hj]
    rfl
  · show ((s.writeLanesOf _ _ _).wave _).arch = _
    rw [e, ha]
    rfl
  · show ((s.writeLanesOf _ _ _).wave _).single = _
    rw [e]
    refine (congrArg Wave.single ha).trans ?_
    exact s.ready_single i h
  · intro l hi
    show ({ Lane.arch (((s.writeLanesOf _ _ _).wave _).lane l) with pc := _ } : Lane) = _
    rw [e, hl]
    unfold State.toNext
    split
    · exact congrArg (fun v => { (s.cur.lane l).arch with
        pc := s.iss.next, names := (s.cur.lane l).names.put d v }) (s.atWidth_ofNat d (f l))
    · rfl
  · intro l hi
    show Lane.arch (((s.writeLanesOf _ _ _).wave _).lane l) = _
    rw [e, hl, if_neg fun hm => hi (s.active_issuing i l hm)]
    rfl

/-! ## Effects on the issuing wave alone -/

/-- An effect that is an update of the issuing wave, with flags raised in the cycle or not. -/
theorem State.issue_wave (s : State) (i : Instr) (F : Wave → Wave) (x y : Flags) (lane : Nat → Lane → Lane)
    (wave : Wave → Wave) (g : State → List Nat → Eff) (h : s.ready i = true)
    (hg : g s (s.active i) = .done { s.onWave s.iss.wave F with iss := { s.iss with raised := x, mine := y } })
    (hs : (F s.cur).single = s.cur.single)
    (hr : (F s.cur).arch = wave s.cur.arch)
    (hl : ∀ l ∈ s.issuing, { ((F s.cur).lane l).arch with pc := s.iss.next } = lane l (s.cur.lane l).arch)
    (ho : ∀ l, l ∉ s.issuing → ((F s.cur).lane l).arch = (s.cur.lane l).arch) :
    ThreadResult i s (s.issue i g) lane wave := by
  rw [s.issue_ready i g h, hg]
  show ThreadResult i s (s.retire _ i (s.active i) [] false) _ _
  have e : ({ s.onWave s.iss.wave F with iss := { s.iss with raised := x, mine := y } } : State).wave s.iss.wave = F s.cur :=
    State.wave_onWave_same s s.iss.wave F
  refine State.retire_result s _ i [] false lane wave h rfl rfl ?_ ?_ ?_ ?_ ?_
  · intro j hj
    show (State.onWave _ _ _).wave j = _
    rw [State.wave_onWave, if_neg hj]
  · rw [e, hr]
  · rw [e, hs]; exact s.ready_single i h
  · intro l hi; rw [e]; exact hl l hi
  · intro l hi; rw [e]; exact ho l hi

theorem State.raised_same (s : State) (F : Wave → Wave) :
    ({ s.onWave s.iss.wave F with iss := { s.iss with raised := s.iss.raised, mine := s.iss.mine } } : State) =
      s.onWave s.iss.wave F := rfl

/-! ## Uniform names -/

theorem Wave.closeOn_lane (w : Wave) (ls : List Nat) (u : Bool) (name l : Nat) :
    ((w.onLanes ls fun t => t.closeOn u name).lane l).arch = (w.lane l).arch :=
  Wave.lane_onLanes_keep Lane.arch w ls (fun t => t.closeOn u name) (fun _ => rfl) l

/-- A write of a uniform name by a ready lane set. -/
theorem State.issue_unifEff (s : State) (i : Instr) (d v : Nat) (g : State → List Nat → Eff) (h : s.ready i = true)
    (hg : g s (s.active i) = s.unifEff d v) :
    ThreadResult i s (s.issue i g) (s.toNext i fun _ a => a)
      (fun w => { w.cancelUnif d with uvague := w.uvague.del d, unif := w.unif.put d (BitVec.ofNat 64 v) }) := by
  refine State.issue_wave s i (fun w =>
    let w := ((w.cancelUnif d).forward 1 d []).onLanes s.issuing fun t => t.closeOn true d
    { w with
      udead := w.udead.filter (· != d), urecent := d :: w.urecent.filter (· != d)
      uvague := w.uvague.del d, unif := w.unif.put d (BitVec.ofNat 64 v) })
    s.iss.raised s.iss.mine _ _ g h
    ?_ ?_ ?_ ?_ ?_
  · rw [hg]
    have hb := s.ready_badNames i h
    show Eff.done _ = Eff.done _
    congr 1
    unfold State.writeUnif State.writeUnifOf
    rw [hb]
    cases s
    cases hb
    rfl
  · show (Wave.onLanes _ _ _).single = _
    rw [Wave.onLanes_shape]; rfl
  · show Wave.arch { Wave.onLanes _ _ _ with udead := _, urecent := _, uvague := _, unif := _ } = _
    rw [Wave.onLanes_shape]; rfl
  · intro l hl
    unfold State.toNext
    split <;>
    exact congrArg (fun a : Lane => { a with pc := s.iss.next }) (Wave.closeOn_lane ((s.cur.cancelUnif d).forward 1 d []) s.issuing true d l)
  · intro l _
    exact Wave.closeOn_lane ((s.cur.cancelUnif d).forward 1 d []) s.issuing true d l

/-! ## Windows and results in flight -/

theorem State.openWindow_iss (s : State) (k : Nat) (ls : List Nat) (u : Bool) (name n : Nat) :
    (s.openWindow k ls u name n).iss = s.iss := rfl

/-- What opening windows leaves of the wave: all but the windows. -/
theorem State.openWindow_wave (s : State) (ls : List Nat) (u : Bool) (name n : Nat) :
    ∃ w : Wave, s.openWindow s.iss.wave ls u name n = { s with waves := (s.openWindow s.iss.wave ls u name n).waves } ∧
      (s.openWindow s.iss.wave ls u name n).wave s.iss.wave = w ∧
      (∀ j, j ≠ s.iss.wave → (s.openWindow s.iss.wave ls u name n).wave j = s.wave j) ∧
      w = { s.cur with lanes := w.lanes } ∧ ∀ l, (w.lane l).arch = (s.cur.lane l).arch := by
  unfold State.openWindow
  refine ⟨_, rfl, rfl, ?_, ?_, ?_⟩
  · intro j hj; rw [State.wave_onWave, if_neg hj]
  · rw [State.wave_onWave_same]
    have key : ∀ (G : Wave → Nat → Lane) (ls : List Nat) (w : Wave),
        ls.foldl (fun w l => w.setLane l (G w l)) w =
          { w with lanes := (ls.foldl (fun w l => w.setLane l (G w l)) w).lanes } := by
      intro G ls
      induction ls with
      | nil => intro w; rfl
      | cons l ls ih => intro w; rw [List.foldl_cons, ih]; rfl
    exact key _ ls _
  · intro l
    rw [State.wave_onWave_same]
    refine (Wave.foldl_keep (fun w => (w.lane l).arch) _ ?_ ls (s.wave s.iss.wave)).trans rfl
    intro w j
    simp only [Wave.lane_setLane]
    split
    · rename_i e; subst e
      split <;> rfl
    · rfl

/-- The general form of a flight: windows, then the wave's own update. -/
theorem State.issue_flight (s : State) (i : Instr) (ls : List Nat) (u : Bool) (name : Nat) (F : Wave → Wave)
    (wave : Wave → Wave) (g : State → List Nat → Eff) (h : s.ready i = true)
    (hg : g s (s.active i) = .done ((s.openWindow s.iss.wave ls u name s.iss.look).onWave s.iss.wave F))
    (hs : ∀ w, (F w).single = w.single) (hr : ∀ w, (F w).arch = wave w.arch)
    (hl : ∀ w l, ((F w).lane l).arch = (w.lane l).arch) :
    ThreadResult i s (s.issue i g) (s.toNext i fun _ a => a) wave := by
  obtain ⟨w, e, ew, eo, es, el⟩ := s.openWindow_wave ls u name s.iss.look
  rw [s.issue_ready i g h, hg]
  show ThreadResult i s (s.retire _ i (s.active i) [] false) _ _
  generalize s.openWindow s.iss.wave ls u name s.iss.look = t at e ew eo es
  have hd : { t with waves := s.waves } = s := by rw [e]
  have hi : t.iss = s.iss := by rw [e]
  refine State.retire_result s _ i [] false _ wave h ?_ ?_ ?_ ?_ ?_ ?_ ?_
  · show t.iss.wave = _; rw [hi]
  · show ({ t with waves := s.waves, iss := s.iss } : State) = s
    rw [e]
  · intro j hj
    rw [State.wave_onWave, if_neg hj, eo j hj]
  · rw [State.wave_onWave_same, ew, hr, es]; rfl
  · rw [State.wave_onWave_same, ew, hs, es]; exact s.ready_single i h
  · intro l hl'
    rw [State.wave_onWave_same, ew]
    show ({ Lane.arch ((F w).lane l) with pc := _ } : Lane) = _
    rw [hl, el]
    unfold State.toNext
    split <;> rfl
  · intro l _
    rw [State.wave_onWave_same, ew, hl, el]

/-- Results that leave for a lane name (R43, R44, R114). -/
theorem State.issue_flyLanes (s : State) (i : Instr) (d : Nat) (vals : List (Nat × BitVec 64)) (fl : Flags)
    (g : State → List Nat → Eff) (h : s.ready i = true)
    (hg : g s (s.active i) = .done (s.flyLanes (s.active i) d vals fl)) :
    ThreadResult i s (s.issue i g) (s.toNext i fun _ a => a)
      (fun w => { w.cancelLane d (s.active i) with
        flights := (w.cancelLane d (s.active i)).flights ++ [⟨false, d, vals, s.active i, fl, none, 0⟩] }) := by
  refine State.issue_flight s i (s.active i) false d (fun w =>
    let w := w.cancelLane d (s.active i)
    { w with
      lanes := (w.onLanes (s.active i) fun t => { t with dead := t.dead.filter (· != d) }).lanes
      flights := w.flights ++ [⟨false, d, vals, s.active i, fl, none, 0⟩] }) _ g h
    (by rw [hg]; unfold State.flyLanes; dsimp only; rw [State.openWindow_iss]) (fun _ => rfl) (fun _ => rfl) ?_
  intro w l
  exact Wave.lane_onLanes_keep Lane.arch (w.cancelLane d (s.active i)) (s.active i)
    (fun t => { t with dead := t.dead.filter (· != d) }) (fun _ => rfl) l

/-- A result that leaves for a uniform name. -/
theorem State.issue_flyUnif (s : State) (i : Instr) (d : Nat) (v : BitVec 64) (g : State → List Nat → Eff)
    (h : s.ready i = true) (hg : g s (s.active i) = .done (s.flyUnif (s.active i) d v)) :
    ThreadResult i s (s.issue i g) (s.toNext i fun _ a => a)
      (fun w => { w.cancelUnif d with
        uvague := w.uvague.del d
        flights := (w.cancelUnif d).flights ++ [⟨true, d, [(0, v)], s.active i, 0, none, 0⟩] }) := by
  refine State.issue_flight s i (s.active i) true d (fun w =>
    let w := w.cancelUnif d
    { w with
      udead := w.udead.filter (· != d), uvague := w.uvague.del d
      flights := w.flights ++ [⟨true, d, [(0, v)], s.active i, 0, none, 0⟩] }) _ g h
    (by rw [hg]; unfold State.flyUnif; dsimp only; rw [State.openWindow_iss]) (fun _ => rfl) (fun _ => rfl) ?_
  intro w l; rfl

theorem State.raise_wave (s : State) (x : Flags) (j : Nat) : (s.raise x).wave j =
    if j = s.iss.wave then { s.cur with fflags := s.cur.fflags ||| x } else s.wave j :=
  State.wave_onWave s s.iss.wave (fun w => { w with fflags := w.fflags ||| x }) j

/-- A float result: values and flags (R33, R114). -/
theorem State.issue_floatEff (s : State) (i : Instr) (d : Nat) (f : Nat → Nat × Flags) (g : State → List Nat → Eff)
    (h : s.ready i = true) (hg : g s (s.active i) = s.floatEff d (s.active i) f) :
    ThreadResult i s (s.issue i g)
      (s.toNext i fun l a => { a with names := a.names.put d (s.atWidth d (f l).1) })
      (fun w => { w.cancelLane d (s.active i) with
        fflags := w.fflags ||| orFlags ((s.active i).map fun l => (f l).2) }) := by
  obtain ⟨w, e, ha, hl⟩ := s.writeLanesOf_wave s.iss.wave d (s.active i) (s.active_nodup i)
    fun l => BitVec.ofNat 64 (f l).1
  rw [s.issue_ready i g h, hg]
  have hm : ((s.active i).map fun l => (l, f l)).map (fun r => (r.1, BitVec.ofNat 64 r.2.1)) =
      (s.active i).map fun l => (l, BitVec.ofNat 64 (f l).1) := by simp [Function.comp_def]
  have hf : ((s.active i).map fun l => (l, f l)).map (fun r => r.2.2) = (s.active i).map fun l => (f l).2 := by
    simp [Function.comp_def]
  show ThreadResult i s (s.retire (State.raise (s.writeLanes d _) _) i (s.active i) [] false) _ _
  rw [hm, hf]
  generalize orFlags _ = x
  have hw : (State.raise (s.writeLanes d ((s.active i).map fun l => (l, BitVec.ofNat 64 (f l).1))) x).wave s.iss.wave =
      { w with fflags := w.fflags ||| x } := by
    refine (State.raise_wave _ _ _).trans ((if_pos rfl).trans ?_)
    exact congrArg (fun v : Wave => { v with fflags := v.fflags ||| x }) e
  refine State.retire_result s _ i [] false _ _ h rfl ?_ ?_ ?_ ?_ ?_ ?_
  · have hb := s.ready_badNames i h
    show ({ s with badNames := s.badNames.filter _ } : State) = s
    rw [hb]
    cases s
    cases hb
    rfl
  · intro j hj
    refine (State.raise_wave _ _ _).trans ((if_neg hj).trans ?_)
    show (State.onWave _ _ _).wave j = _
    rw [State.wave_onWave, if_neg hj]
    rfl
  · rw [hw]
    have h1 := congrArg (fun v : Wave => { v with fflags := v.fflags ||| x }) ha
    refine Eq.trans ?_ (h1.trans ?_) <;> rfl
  · rw [hw]
    exact (congrArg Wave.single ha :).trans (s.ready_single i h)
  · intro l hi
    rw [hw]
    show ({ Lane.arch (w.lane l) with pc := _ } : Lane) = _
    rw [hl]
    unfold State.toNext
    split
    · exact congrArg (fun v => { (s.cur.lane l).arch with
        pc := s.iss.next, names := (s.cur.lane l).names.put d v }) (s.atWidth_ofNat d (f l).1)
    · rfl
  · intro l hi
    rw [hw]
    show Lane.arch (w.lane l) = _
    rw [hl, if_neg fun hm => hi (s.active_issuing i l hm)]
    rfl

/-- A special function's results leave with their flags (R114, R128). -/
theorem State.issue_specialEff (s : State) (i : Instr) (d : Nat) (f : Nat → Nat × Flags) (g : State → List Nat → Eff)
    (h : s.ready i = true) (hg : g s (s.active i) = s.specialEff d (s.active i) f) :
    ThreadResult i s (s.issue i g) (s.toNext i fun _ a => a)
      (fun w => { w.cancelLane d (s.active i) with
        flights := (w.cancelLane d (s.active i)).flights ++
          [⟨false, d, (s.active i).map fun l => (l, BitVec.ofNat 64 (f l).1), s.active i,
            orFlags ((s.active i).map fun l => (f l).2), none, 0⟩] }) := by
  refine State.issue_flyLanes s i d _ _ g h ?_
  rw [hg]
  unfold State.specialEff
  simp [Function.comp_def]

/-! ## The predicate stack -/

theorem find?_none_of {α : Type} (p : α → Bool) (ls : List α) (h : ∀ l ∈ ls, p l = false) : ls.find? p = none := by
  rw [List.find?_eq_none]
  intro l hl
  simp [h l hl]

/-- A fold that sets distinct lanes of a wave, each from what it was. -/
theorem Wave.foldl_each (G : Nat → Lane → Lane) (ls : List Nat) (hn : ls.Nodup) (w : Wave) (j : Nat) :
    ((ls.foldl (fun w l => w.setLane l (G l (w.lane l))) w).lane j) = if j ∈ ls then G j (w.lane j) else w.lane j := by
  have := Wave.foldl_setLane (fun l t => G l t) id ls hn w j
  rw [List.foldl_map] at this
  exact this

theorem Wave.foldl_each_shape (G : Nat → Lane → Lane) (ls : List Nat) (w : Wave) :
    ls.foldl (fun w l => w.setLane l (G l (w.lane l))) w =
      { w with lanes := (ls.foldl (fun w l => w.setLane l (G l (w.lane l))) w).lanes } := by
  induction ls generalizing w with
  | nil => rfl
  | cons l ls ih => rw [List.foldl_cons, ih]; rfl

/-- An effect on each active lane by itself, where the effect looks at what is architectural alone. -/
theorem State.issue_each (s : State) (i : Instr) (G : Nat → Lane → Lane) (g : State → List Nat → Eff)
    (h : s.ready i = true) (hG : ∀ l t, (G l t).arch = (G l t.arch).arch)
    (hg : g s (s.active i) = .done (s.onWave s.iss.wave fun w =>
      (s.active i).foldl (fun w l => w.setLane l (G l (w.lane l))) w)) :
    ThreadResult i s (s.issue i g) (s.toNext i fun l a => (G l a).arch) id := by
  refine State.issue_wave s i (fun w => (s.active i).foldl (fun w l => w.setLane l (G l (w.lane l))) w) s.iss.raised
    s.iss.mine _ _ g h hg ?_ ?_ ?_ ?_
  · rw [Wave.foldl_each_shape]
  · rw [Wave.foldl_each_shape]; rfl
  · intro l _
    rw [Wave.foldl_each _ _ (s.active_nodup i)]
    unfold State.toNext
    split
    · rw [hG]
    · rfl
  · intro l hl
    rw [Wave.foldl_each _ _ (s.active_nodup i), if_neg fun hm => hl (s.active_issuing i l hm)]

/-- A push onto each active lane's stack (R29). -/
theorem State.issue_pushEff (s : State) (i : Instr) (f : Nat → Bool) (g : State → List Nat → Eff)
    (h : s.ready i = true) (hc : ∀ l ∈ s.active i, (s.cur.lane l).count < 8)
    (hg : g s (s.active i) = s.pushEff (s.active i) f) :
    ThreadResult i s (s.issue i g) (s.toNext i fun l a => (a.push (f l)).arch) id := by
  refine State.issue_each s i (fun l t => t.push (f l)) g h (fun _ _ => rfl) ?_
  rw [hg]
  unfold State.pushEff
  rw [find?_none_of]
  intro l hl
  have := hc l hl
  simp only [beq_eq_false_iff_ne, ne_eq]
  omega

/-- Work on each active lane's stack where it is deep enough (R102). -/
theorem State.issue_underEff (s : State) (i : Instr) (a b : Nat) (F : Lane → Lane) (g : State → List Nat → Eff)
    (h : s.ready i = true) (hc : ∀ l ∈ s.active i, max a b < (s.cur.lane l).count)
    (hF : ∀ t, (F t).arch = (F t.arch).arch)
    (hg : g s (s.active i) = s.underEff (s.active i) a b F) :
    ThreadResult i s (s.issue i g) (s.toNext i fun _ a => (F a).arch) id := by
  refine State.issue_each s i (fun _ t => F t) g h (fun _ t => hF t) ?_
  rw [hg]
  unfold State.underEff
  rw [find?_none_of]
  intro l hl
  have := hc l hl
  simp only [Bool.or_eq_false_iff, decide_eq_false_iff_not]
  omega

end Sys2Proof.Machine
end

