-- ==== Sys2Proof/Laws/PerInstr.lean ====
section
/-! SUPPORT. Per instruction: an instruction has one to three words, an event of the device none. -/

namespace Sys2Proof.Laws.Encodable

/-- An event has no words; an instruction has one, two or three (R45). -/
def Statement (i : Instr) : Prop :=
  (i.isEvent = true ∧ encode i = []) ∨ (i.isEvent = false ∧ 1 ≤ (encode i).length ∧ (encode i).length ≤ 3)

theorem one : 1 ≤ 1 ∧ 1 ≤ 3 := by decide
theorem two : 1 ≤ 2 ∧ 2 ≤ 3 := by decide
theorem three : 1 ≤ 3 ∧ 3 ≤ 3 := by decide

theorem of_ops (op : Nat) (o : Ops) : 1 ≤ (encodeOps op o).length ∧ (encodeOps op o).length ≤ 3 := by
  unfold encodeOps
  split
  · exact three
  · exact two

theorem nop : Statement .nop :=
  .inr ⟨rfl, one⟩
theorem exit (c : Bool) (g : Guard) : Statement (.exit c g) :=
  .inr ⟨rfl, one⟩
theorem yield (c : Bool) : Statement (.yield c) :=
  .inr ⟨rfl, one⟩
theorem ret (c : Bool) (g : Guard) : Statement (.ret c g) :=
  .inr ⟨rfl, one⟩
theorem bra (c : Bool) (g : Guard) (hint : BitVec 2) (off : BitVec 15) (slot : BitVec 2) : Statement (.bra c g hint off slot) :=
  .inr ⟨rfl, one⟩
theorem call (c : Bool) (g : Guard) (off : BitVec 15) (slot : BitVec 2) : Statement (.call c g off slot) :=
  .inr ⟨rfl, one⟩
theorem jmp (c : Bool) (off : BitVec 21) (slot : BitVec 2) : Statement (.jmp c off slot) :=
  .inr ⟨rfl, one⟩
theorem pnot (p : POps) : Statement (.pnot p) :=
  .inr ⟨rfl, one⟩
theorem pand (p : POps) : Statement (.pand p) :=
  .inr ⟨rfl, one⟩
theorem por (p : POps) : Statement (.por p) :=
  .inr ⟨rfl, one⟩
theorem pxor (p : POps) : Statement (.pxor p) :=
  .inr ⟨rfl, one⟩
theorem pdrop (p : POps) : Statement (.pdrop p) :=
  .inr ⟨rfl, one⟩
theorem pdup (p : POps) : Statement (.pdup p) :=
  .inr ⟨rfl, one⟩
theorem pswap (p : POps) : Statement (.pswap p) :=
  .inr ⟨rfl, one⟩
theorem psetm (p : POps) : Statement (.psetm p) :=
  .inr ⟨rfl, one⟩
theorem saddSingleWord (u : UOps) : Statement (.saddSingleWord u) :=
  .inr ⟨rfl, one⟩
theorem ssubSingleWord (u : UOps) : Statement (.ssubSingleWord u) :=
  .inr ⟨rfl, one⟩
theorem smulSingleWord (u : UOps) : Statement (.smulSingleWord u) :=
  .inr ⟨rfl, one⟩
theorem smulhSingleWord (u : UOps) : Statement (.smulhSingleWord u) :=
  .inr ⟨rfl, one⟩
theorem sandSingleWord (u : UOps) : Statement (.sandSingleWord u) :=
  .inr ⟨rfl, one⟩
theorem sorSingleWord (u : UOps) : Statement (.sorSingleWord u) :=
  .inr ⟨rfl, one⟩
theorem sxorSingleWord (u : UOps) : Statement (.sxorSingleWord u) :=
  .inr ⟨rfl, one⟩
theorem sshlSingleWord (u : UOps) : Statement (.sshlSingleWord u) :=
  .inr ⟨rfl, one⟩
theorem sshrSingleWord (u : UOps) : Statement (.sshrSingleWord u) :=
  .inr ⟨rfl, one⟩
theorem ssarSingleWord (u : UOps) : Statement (.ssarSingleWord u) :=
  .inr ⟨rfl, one⟩
theorem sminSingleWord (u : UOps) : Statement (.sminSingleWord u) :=
  .inr ⟨rfl, one⟩
theorem smaxSingleWord (u : UOps) : Statement (.smaxSingleWord u) :=
  .inr ⟨rfl, one⟩
theorem smovSingleWord (u : UOps) : Statement (.smovSingleWord u) :=
  .inr ⟨rfl, one⟩
theorem scmpSingleWord (k : KOps) : Statement (.scmpSingleWord k) :=
  .inr ⟨rfl, one⟩
theorem sliSingleWord (c : Bool) (d : BitVec 7) (imm : BitVec 16) : Statement (.sliSingleWord c d imm) :=
  .inr ⟨rfl, one⟩
theorem slui (c : Bool) (d : BitVec 3) (imm : BitVec 20) : Statement (.slui c d imm) :=
  .inr ⟨rfl, one⟩
theorem saddi (c : Bool) (d : BitVec 7) (imm : BitVec 12) : Statement (.saddi c d imm) :=
  .inr ⟨rfl, one⟩
theorem viadd (o : Ops) : Statement (.viadd o) :=
  .inr ⟨rfl, of_ops _ _⟩
theorem visub (o : Ops) : Statement (.visub o) :=
  .inr ⟨rfl, of_ops _ _⟩
theorem vimul (o : Ops) : Statement (.vimul o) :=
  .inr ⟨rfl, of_ops _ _⟩
theorem vimulh (o : Ops) : Statement (.vimulh o) :=
  .inr ⟨rfl, of_ops _ _⟩
theorem vimad (o : Ops) : Statement (.vimad o) :=
  .inr ⟨rfl, of_ops _ _⟩
theorem vimin (o : Ops) : Statement (.vimin o) :=
  .inr ⟨rfl, of_ops _ _⟩
theorem vimax (o : Ops) : Statement (.vimax o) :=
  .inr ⟨rfl, of_ops _ _⟩
theorem viabs (o : Ops) : Statement (.viabs o) :=
  .inr ⟨rfl, of_ops _ _⟩
theorem vand (o : Ops) : Statement (.vand o) :=
  .inr ⟨rfl, of_ops _ _⟩
theorem vor (o : Ops) : Statement (.vor o) :=
  .inr ⟨rfl, of_ops _ _⟩
theorem vxor (o : Ops) : Statement (.vxor o) :=
  .inr ⟨rfl, of_ops _ _⟩
theorem vnot (o : Ops) : Statement (.vnot o) :=
  .inr ⟨rfl, of_ops _ _⟩
theorem vshl (o : Ops) : Statement (.vshl o) :=
  .inr ⟨rfl, of_ops _ _⟩
theorem vshr (o : Ops) : Statement (.vshr o) :=
  .inr ⟨rfl, of_ops _ _⟩
theorem vsar (o : Ops) : Statement (.vsar o) :=
  .inr ⟨rfl, of_ops _ _⟩
theorem vclz (o : Ops) : Statement (.vclz o) :=
  .inr ⟨rfl, of_ops _ _⟩
theorem vffs (o : Ops) : Statement (.vffs o) :=
  .inr ⟨rfl, of_ops _ _⟩
theorem vpopc (o : Ops) : Statement (.vpopc o) :=
  .inr ⟨rfl, of_ops _ _⟩
theorem vbrev (o : Ops) : Statement (.vbrev o) :=
  .inr ⟨rfl, of_ops _ _⟩
theorem vbfe (o : Ops) : Statement (.vbfe o) :=
  .inr ⟨rfl, of_ops _ _⟩
theorem vbfi (o : Ops) : Statement (.vbfi o) :=
  .inr ⟨rfl, of_ops _ _⟩
theorem vsel (o : Ops) : Statement (.vsel o) :=
  .inr ⟨rfl, of_ops _ _⟩
theorem vmov (o : Ops) : Statement (.vmov o) :=
  .inr ⟨rfl, of_ops _ _⟩
theorem vbcast (o : Ops) : Statement (.vbcast o) :=
  .inr ⟨rfl, of_ops _ _⟩
theorem vpadd (o : Ops) : Statement (.vpadd o) :=
  .inr ⟨rfl, of_ops _ _⟩
theorem vdot4 (o : Ops) : Statement (.vdot4 o) :=
  .inr ⟨rfl, of_ops _ _⟩
theorem vcmp (o : Ops) : Statement (.vcmp o) :=
  .inr ⟨rfl, of_ops _ _⟩
theorem viaddImmediate (o : Ops) : Statement (.viaddImmediate o) :=
  .inr ⟨rfl, of_ops _ _⟩
theorem visubImmediate (o : Ops) : Statement (.visubImmediate o) :=
  .inr ⟨rfl, of_ops _ _⟩
theorem vimulImmediate (o : Ops) : Statement (.vimulImmediate o) :=
  .inr ⟨rfl, of_ops _ _⟩
theorem vimulhImmediate (o : Ops) : Statement (.vimulhImmediate o) :=
  .inr ⟨rfl, of_ops _ _⟩
theorem viminImmediate (o : Ops) : Statement (.viminImmediate o) :=
  .inr ⟨rfl, of_ops _ _⟩
theorem vimaxImmediate (o : Ops) : Statement (.vimaxImmediate o) :=
  .inr ⟨rfl, of_ops _ _⟩
theorem vandImmediate (o : Ops) : Statement (.vandImmediate o) :=
  .inr ⟨rfl, of_ops _ _⟩
theorem vorImmediate (o : Ops) : Statement (.vorImmediate o) :=
  .inr ⟨rfl, of_ops _ _⟩
theorem vxorImmediate (o : Ops) : Statement (.vxorImmediate o) :=
  .inr ⟨rfl, of_ops _ _⟩
theorem vshlImmediate (o : Ops) : Statement (.vshlImmediate o) :=
  .inr ⟨rfl, of_ops _ _⟩
theorem vshrImmediate (o : Ops) : Statement (.vshrImmediate o) :=
  .inr ⟨rfl, of_ops _ _⟩
theorem vsarImmediate (o : Ops) : Statement (.vsarImmediate o) :=
  .inr ⟨rfl, of_ops _ _⟩
theorem vbfeImmediate (o : Ops) : Statement (.vbfeImmediate o) :=
  .inr ⟨rfl, of_ops _ _⟩
theorem vmovImmediate (o : Ops) : Statement (.vmovImmediate o) :=
  .inr ⟨rfl, of_ops _ _⟩
theorem vcmpImmediate (o : Ops) : Statement (.vcmpImmediate o) :=
  .inr ⟨rfl, of_ops _ _⟩
theorem vfadd (o : Ops) : Statement (.vfadd o) :=
  .inr ⟨rfl, of_ops _ _⟩
theorem vfsub (o : Ops) : Statement (.vfsub o) :=
  .inr ⟨rfl, of_ops _ _⟩
theorem vfmul (o : Ops) : Statement (.vfmul o) :=
  .inr ⟨rfl, of_ops _ _⟩
theorem vffma (o : Ops) : Statement (.vffma o) :=
  .inr ⟨rfl, of_ops _ _⟩
theorem vfmin (o : Ops) : Statement (.vfmin o) :=
  .inr ⟨rfl, of_ops _ _⟩
theorem vfmax (o : Ops) : Statement (.vfmax o) :=
  .inr ⟨rfl, of_ops _ _⟩
theorem vfrint (o : Ops) : Statement (.vfrint o) :=
  .inr ⟨rfl, of_ops _ _⟩
theorem vfexp2f (o : Ops) : Statement (.vfexp2f o) :=
  .inr ⟨rfl, of_ops _ _⟩
theorem vflog2 (o : Ops) : Statement (.vflog2 o) :=
  .inr ⟨rfl, of_ops _ _⟩
theorem vfrcp (o : Ops) : Statement (.vfrcp o) :=
  .inr ⟨rfl, of_ops _ _⟩
theorem vfrsq (o : Ops) : Statement (.vfrsq o) :=
  .inr ⟨rfl, of_ops _ _⟩
theorem vfsqrt (o : Ops) : Statement (.vfsqrt o) :=
  .inr ⟨rfl, of_ops _ _⟩
theorem vfsin (o : Ops) : Statement (.vfsin o) :=
  .inr ⟨rfl, of_ops _ _⟩
theorem vfcos (o : Ops) : Statement (.vfcos o) :=
  .inr ⟨rfl, of_ops _ _⟩
theorem vfldexp (o : Ops) : Statement (.vfldexp o) :=
  .inr ⟨rfl, of_ops _ _⟩
theorem vffrexp (o : Ops) : Statement (.vffrexp o) :=
  .inr ⟨rfl, of_ops _ _⟩
theorem vfclass (o : Ops) : Statement (.vfclass o) :=
  .inr ⟨rfl, of_ops _ _⟩
theorem vfcvt (o : Ops) : Statement (.vfcvt o) :=
  .inr ⟨rfl, of_ops _ _⟩
theorem vftoi (o : Ops) : Statement (.vftoi o) :=
  .inr ⟨rfl, of_ops _ _⟩
theorem vitof (o : Ops) : Statement (.vitof o) :=
  .inr ⟨rfl, of_ops _ _⟩
theorem vfrope (o : Ops) : Statement (.vfrope o) :=
  .inr ⟨rfl, of_ops _ _⟩
theorem vfdot2 (o : Ops) : Statement (.vfdot2 o) :=
  .inr ⟨rfl, of_ops _ _⟩
theorem vfcmp (o : Ops) : Statement (.vfcmp o) :=
  .inr ⟨rfl, of_ops _ _⟩
theorem sadd (o : Ops) : Statement (.sadd o) :=
  .inr ⟨rfl, of_ops _ _⟩
theorem ssub (o : Ops) : Statement (.ssub o) :=
  .inr ⟨rfl, of_ops _ _⟩
theorem smul (o : Ops) : Statement (.smul o) :=
  .inr ⟨rfl, of_ops _ _⟩
theorem smulh (o : Ops) : Statement (.smulh o) :=
  .inr ⟨rfl, of_ops _ _⟩
theorem sand (o : Ops) : Statement (.sand o) :=
  .inr ⟨rfl, of_ops _ _⟩
theorem sor (o : Ops) : Statement (.sor o) :=
  .inr ⟨rfl, of_ops _ _⟩
theorem sxor (o : Ops) : Statement (.sxor o) :=
  .inr ⟨rfl, of_ops _ _⟩
theorem sshl (o : Ops) : Statement (.sshl o) :=
  .inr ⟨rfl, of_ops _ _⟩
theorem sshr (o : Ops) : Statement (.sshr o) :=
  .inr ⟨rfl, of_ops _ _⟩
theorem ssar (o : Ops) : Statement (.ssar o) :=
  .inr ⟨rfl, of_ops _ _⟩
theorem smin (o : Ops) : Statement (.smin o) :=
  .inr ⟨rfl, of_ops _ _⟩
theorem smax (o : Ops) : Statement (.smax o) :=
  .inr ⟨rfl, of_ops _ _⟩
theorem smov (o : Ops) : Statement (.smov o) :=
  .inr ⟨rfl, of_ops _ _⟩
theorem ssel (o : Ops) : Statement (.ssel o) :=
  .inr ⟨rfl, of_ops _ _⟩
theorem sldr (o : Ops) : Statement (.sldr o) :=
  .inr ⟨rfl, of_ops _ _⟩
theorem scmp (o : Ops) : Statement (.scmp o) :=
  .inr ⟨rfl, of_ops _ _⟩
theorem saddImmediate (o : Ops) : Statement (.saddImmediate o) :=
  .inr ⟨rfl, of_ops _ _⟩
theorem ssubImmediate (o : Ops) : Statement (.ssubImmediate o) :=
  .inr ⟨rfl, of_ops _ _⟩
theorem smulImmediate (o : Ops) : Statement (.smulImmediate o) :=
  .inr ⟨rfl, of_ops _ _⟩
theorem smulhImmediate (o : Ops) : Statement (.smulhImmediate o) :=
  .inr ⟨rfl, of_ops _ _⟩
theorem sandImmediate (o : Ops) : Statement (.sandImmediate o) :=
  .inr ⟨rfl, of_ops _ _⟩
theorem sorImmediate (o : Ops) : Statement (.sorImmediate o) :=
  .inr ⟨rfl, of_ops _ _⟩
theorem sxorImmediate (o : Ops) : Statement (.sxorImmediate o) :=
  .inr ⟨rfl, of_ops _ _⟩
theorem sshlImmediate (o : Ops) : Statement (.sshlImmediate o) :=
  .inr ⟨rfl, of_ops _ _⟩
theorem sshrImmediate (o : Ops) : Statement (.sshrImmediate o) :=
  .inr ⟨rfl, of_ops _ _⟩
theorem ssarImmediate (o : Ops) : Statement (.ssarImmediate o) :=
  .inr ⟨rfl, of_ops _ _⟩
theorem sminImmediate (o : Ops) : Statement (.sminImmediate o) :=
  .inr ⟨rfl, of_ops _ _⟩
theorem smaxImmediate (o : Ops) : Statement (.smaxImmediate o) :=
  .inr ⟨rfl, of_ops _ _⟩
theorem sli (o : Ops) : Statement (.sli o) :=
  .inr ⟨rfl, of_ops _ _⟩
theorem scmpImmediate (o : Ops) : Statement (.scmpImmediate o) :=
  .inr ⟨rfl, of_ops _ _⟩
theorem braWide (o : Ops) : Statement (.braWide o) :=
  .inr ⟨rfl, of_ops _ _⟩
theorem jmpWide (o : Ops) : Statement (.jmpWide o) :=
  .inr ⟨rfl, of_ops _ _⟩
theorem callWide (o : Ops) : Statement (.callWide o) :=
  .inr ⟨rfl, of_ops _ _⟩
theorem calli (o : Ops) : Statement (.calli o) :=
  .inr ⟨rfl, of_ops _ _⟩
theorem jmpi (o : Ops) : Statement (.jmpi o) :=
  .inr ⟨rfl, of_ops _ _⟩
theorem vote (o : Ops) : Statement (.vote o) :=
  .inr ⟨rfl, of_ops _ _⟩
theorem shfl (o : Ops) : Statement (.shfl o) :=
  .inr ⟨rfl, of_ops _ _⟩
theorem wred (o : Ops) : Statement (.wred o) :=
  .inr ⟨rfl, of_ops _ _⟩
theorem wscan (o : Ops) : Statement (.wscan o) :=
  .inr ⟨rfl, of_ops _ _⟩
theorem part (o : Ops) : Statement (.part o) :=
  .inr ⟨rfl, of_ops _ _⟩
theorem actm (o : Ops) : Statement (.actm o) :=
  .inr ⟨rfl, of_ops _ _⟩
theorem xmovS (o : Ops) : Statement (.xmovS o) :=
  .inr ⟨rfl, of_ops _ _⟩
theorem xmovR (o : Ops) : Statement (.xmovR o) :=
  .inr ⟨rfl, of_ops _ _⟩
theorem ld (o : Ops) : Statement (.ld o) :=
  .inr ⟨rfl, of_ops _ _⟩
theorem st (o : Ops) : Statement (.st o) :=
  .inr ⟨rfl, of_ops _ _⟩
theorem lds (o : Ops) : Statement (.lds o) :=
  .inr ⟨rfl, of_ops _ _⟩
theorem sts (o : Ops) : Statement (.sts o) :=
  .inr ⟨rfl, of_ops _ _⟩
theorem atom (o : Ops) : Statement (.atom o) :=
  .inr ⟨rfl, of_ops _ _⟩
theorem atoms (o : Ops) : Statement (.atoms o) :=
  .inr ⟨rfl, of_ops _ _⟩
theorem pref (o : Ops) : Statement (.pref o) :=
  .inr ⟨rfl, of_ops _ _⟩
theorem cflush (o : Ops) : Statement (.cflush o) :=
  .inr ⟨rfl, of_ops _ _⟩
theorem phase (o : Ops) : Statement (.phase o) :=
  .inr ⟨rfl, of_ops _ _⟩
theorem fopnd (o : Ops) : Statement (.fopnd o) :=
  .inr ⟨rfl, of_ops _ _⟩
theorem bara (o : Ops) : Statement (.bara o) :=
  .inr ⟨rfl, of_ops _ _⟩
theorem barw (o : Ops) : Statement (.barw o) :=
  .inr ⟨rfl, of_ops _ _⟩
theorem bars (o : Ops) : Statement (.bars o) :=
  .inr ⟨rfl, of_ops _ _⟩
theorem csign (o : Ops) : Statement (.csign o) :=
  .inr ⟨rfl, of_ops _ _⟩
theorem snext (o : Ops) : Statement (.snext o) :=
  .inr ⟨rfl, of_ops _ _⟩
theorem sdone (o : Ops) : Statement (.sdone o) :=
  .inr ⟨rfl, of_ops _ _⟩
theorem sgive (o : Ops) : Statement (.sgive o) :=
  .inr ⟨rfl, of_ops _ _⟩
theorem swr (o : Ops) : Statement (.swr o) :=
  .inr ⟨rfl, of_ops _ _⟩
theorem molt (o : Ops) : Statement (.molt o) :=
  .inr ⟨rfl, of_ops _ _⟩
theorem srd (o : Ops) : Statement (.srd o) :=
  .inr ⟨rfl, of_ops _ _⟩
theorem cpy (e : CopyOps) : Statement (.cpy e) :=
  .inr ⟨rfl, three⟩
theorem cpyx (e : CopyOps) : Statement (.cpyx e) :=
  .inr ⟨rfl, three⟩
theorem cpyo (e : CopyOps) : Statement (.cpyo e) :=
  .inr ⟨rfl, three⟩
theorem cpyc (e : CopyOps) : Statement (.cpyc e) :=
  .inr ⟨rfl, three⟩
theorem mma (e : MmaOps) : Statement (.mma e) :=
  .inr ⟨rfl, three⟩
theorem mmag (e : MmaOps) : Statement (.mmag e) :=
  .inr ⟨rfl, three⟩
theorem accz (o : Ops) : Statement (.accz o) :=
  .inr ⟨rfl, of_ops _ _⟩
theorem acctest (o : Ops) : Statement (.acctest o) :=
  .inr ⟨rfl, of_ops _ _⟩
theorem epi (e : EpiOps) : Statement (.epi e) :=
  .inr ⟨rfl, three⟩
theorem nmsel (e : PalpOps) : Statement (.nmsel e) :=
  .inr ⟨rfl, three⟩
theorem nmtopk (e : PalpOps) : Statement (.nmtopk e) :=
  .inr ⟨rfl, three⟩
theorem nmscore (e : PalpOps) : Statement (.nmscore e) :=
  .inr ⟨rfl, three⟩
theorem nmassign (e : PalpOps) : Statement (.nmassign e) :=
  .inr ⟨rfl, three⟩
theorem nmattn (e : PalpOps) : Statement (.nmattn e) :=
  .inr ⟨rfl, three⟩
theorem tmerge (o : Ops) : Statement (.tmerge o) :=
  .inr ⟨rfl, of_ops _ _⟩
theorem coll (e : CollOps) : Statement (.coll e) :=
  .inr ⟨rfl, three⟩
theorem crr (o : Ops) : Statement (.crr o) :=
  .inr ⟨rfl, of_ops _ _⟩
theorem crw (o : Ops) : Statement (.crw o) :=
  .inr ⟨rfl, of_ops _ _⟩
theorem trap (o : Ops) : Statement (.trap o) :=
  .inr ⟨rfl, of_ops _ _⟩
theorem rtt (o : Ops) : Statement (.rtt o) :=
  .inr ⟨rfl, of_ops _ _⟩
theorem sysc (o : Ops) : Statement (.sysc o) :=
  .inr ⟨rfl, of_ops _ _⟩
theorem brk (o : Ops) : Statement (.brk o) :=
  .inr ⟨rfl, of_ops _ _⟩
theorem tlbiPage (o : Ops) : Statement (.tlbiPage o) :=
  .inr ⟨rfl, of_ops _ _⟩
theorem tlbiCtx (o : Ops) : Statement (.tlbiCtx o) :=
  .inr ⟨rfl, of_ops _ _⟩
theorem tlbiAll (o : Ops) : Statement (.tlbiAll o) :=
  .inr ⟨rfl, of_ops _ _⟩
theorem halt (o : Ops) : Statement (.halt o) :=
  .inr ⟨rfl, of_ops _ _⟩
theorem ckpt (o : Ops) : Statement (.ckpt o) :=
  .inr ⟨rfl, of_ops _ _⟩
theorem fencei (o : Ops) : Statement (.fencei o) :=
  .inr ⟨rfl, of_ops _ _⟩
theorem issueGrant (core : Nat) : Statement (.issueGrant core) :=
  .inl ⟨rfl, rfl⟩
theorem longLatencyResultArrival (wave k : Nat) : Statement (.longLatencyResultArrival wave k) :=
  .inl ⟨rfl, rfl⟩
theorem faultNotice (ctx : Nat) (va : BitVec 64) : Statement (.faultNotice ctx va) :=
  .inl ⟨rfl, rfl⟩
theorem trapDelivery (wave : Nat) : Statement (.trapDelivery wave) :=
  .inl ⟨rfl, rfl⟩
theorem memberWaitDeadlock (wave : Nat) : Statement (.memberWaitDeadlock wave) :=
  .inl ⟨rfl, rfl⟩
theorem transferOrphaned (block : Nat) : Statement (.transferOrphaned block) :=
  .inl ⟨rfl, rfl⟩
theorem barrierOrphaned (block name : Nat) : Statement (.barrierOrphaned block name) :=
  .inl ⟨rfl, rfl⟩
theorem blockEnd (block : Nat) : Statement (.blockEnd block) :=
  .inl ⟨rfl, rfl⟩
theorem gangRetired (gang : Nat) : Statement (.gangRetired gang) :=
  .inl ⟨rfl, rfl⟩
theorem barrierPass (wave : Nat) : Statement (.barrierPass wave) :=
  .inl ⟨rfl, rfl⟩
theorem copyCompletion (k : Nat) : Statement (.copyCompletion k) :=
  .inl ⟨rfl, rfl⟩
theorem copyFaultResume (k : Nat) : Statement (.copyFaultResume k) :=
  .inl ⟨rfl, rfl⟩
theorem copyRefusal (k : Nat) (prot : Bool) : Statement (.copyRefusal k prot) :=
  .inl ⟨rfl, rfl⟩
theorem matrixIntegrationStep (k part : Nat) : Statement (.matrixIntegrationStep k part) :=
  .inl ⟨rfl, rfl⟩
theorem matrixOperationCompletion (k : Nat) : Statement (.matrixOperationCompletion k) :=
  .inl ⟨rfl, rfl⟩
theorem matrixFaultReplay (k part : Nat) : Statement (.matrixFaultReplay k part) :=
  .inl ⟨rfl, rfl⟩
theorem streamedPageRefusal (k part : Nat) (va : BitVec 64) : Statement (.streamedPageRefusal k part va) :=
  .inl ⟨rfl, rfl⟩
theorem palpPartResume (k : Nat) : Statement (.palpPartResume k) :=
  .inl ⟨rfl, rfl⟩
theorem palpCompletion (k : Nat) : Statement (.palpCompletion k) :=
  .inl ⟨rfl, rfl⟩
theorem collCapture (k : Nat) : Statement (.collCapture k) :=
  .inl ⟨rfl, rfl⟩
theorem collCompletion (k : Nat) : Statement (.collCompletion k) :=
  .inl ⟨rfl, rfl⟩
theorem engineWatchpointHit (engine : EngineRef) (slot : Nat) (addr : BitVec 64) : Statement (.engineWatchpointHit engine slot addr) :=
  .inl ⟨rfl, rfl⟩
theorem moltPerformed (wave : Nat) : Statement (.moltPerformed wave) :=
  .inl ⟨rfl, rfl⟩
theorem syscReply (wave : Nat) (reply : BitVec 64) : Statement (.syscReply wave reply) :=
  .inl ⟨rfl, rfl⟩
theorem checkpointImage (gang : Nat) (addr : BitVec 64) : Statement (.checkpointImage gang addr) :=
  .inl ⟨rfl, rfl⟩
theorem haltWake (wave : Nat) : Statement (.haltWake wave) :=
  .inl ⟨rfl, rfl⟩
theorem timerExpiry (cc : Nat) : Statement (.timerExpiry cc) :=
  .inl ⟨rfl, rfl⟩
theorem vaultCacheWriteback (cluster line : Nat) : Statement (.vaultCacheWriteback cluster line) :=
  .inl ⟨rfl, rfl⟩
theorem rebind (block : Nat) : Statement (.rebind block) :=
  .inl ⟨rfl, rfl⟩
theorem preemptionRequest (gang deadline : Nat) (allow : BitVec 3) : Statement (.preemptionRequest gang deadline allow) :=
  .inl ⟨rfl, rfl⟩
theorem drainEnd (gang : Nat) (addr : BitVec 64) : Statement (.drainEnd gang addr) :=
  .inl ⟨rfl, rfl⟩
theorem discard (gang : Nat) : Statement (.discard gang) :=
  .inl ⟨rfl, rfl⟩
theorem save (gang : Nat) (full : Bool) (addr : BitVec 64) : Statement (.save gang full addr) :=
  .inl ⟨rfl, rfl⟩
theorem preemptionReport (gang : Nat) : Statement (.preemptionReport gang) :=
  .inl ⟨rfl, rfl⟩
theorem endLaunch (launch : Nat) : Statement (.endLaunch launch) :=
  .inl ⟨rfl, rfl⟩
theorem debuggerResume (gang : Nat) (wave : Option Nat) : Statement (.debuggerResume gang wave) :=
  .inl ⟨rfl, rfl⟩
theorem faultRecordWritten (launch : Nat) : Statement (.faultRecordWritten launch) :=
  .inl ⟨rfl, rfl⟩
theorem commandLinkMessage (link : Nat) (up : Bool) : Statement (.commandLinkMessage link up) :=
  .inl ⟨rfl, rfl⟩
theorem heartbeat : Statement .heartbeat :=
  .inl ⟨rfl, rfl⟩
theorem schedulerTakeover : Statement .schedulerTakeover :=
  .inl ⟨rfl, rfl⟩
theorem launch (queue : Nat) : Statement (.launch queue) :=
  .inl ⟨rfl, rfl⟩
theorem wait (queue : Nat) : Statement (.wait queue) :=
  .inl ⟨rfl, rfl⟩
theorem waitPoll (queue : Nat) : Statement (.waitPoll queue) :=
  .inl ⟨rfl, rfl⟩
theorem signal (queue : Nat) : Statement (.signal queue) :=
  .inl ⟨rfl, rfl⟩
theorem marker (queue : Nat) : Statement (.marker queue) :=
  .inl ⟨rfl, rfl⟩
theorem launchEnd (launch : Nat) : Statement (.launchEnd launch) :=
  .inl ⟨rfl, rfl⟩
theorem queueDoorbell (wave : Nat) : Statement (.queueDoorbell wave) :=
  .inl ⟨rfl, rfl⟩
theorem debuggerLog (wave : Nat) : Statement (.debuggerLog wave) :=
  .inl ⟨rfl, rfl⟩
theorem executiveRequest (src : RequestSource) : Statement (.executiveRequest src) :=
  .inl ⟨rfl, rfl⟩
theorem linkRetrain (link : Nat) : Statement (.linkRetrain link) :=
  .inl ⟨rfl, rfl⟩
theorem throttle (stage : Nat) (on : Bool) : Statement (.throttle stage on) :=
  .inl ⟨rfl, rfl⟩
theorem thermalTrip : Statement .thermalTrip :=
  .inl ⟨rfl, rfl⟩
theorem accessPerformed (k : Nat) : Statement (.accessPerformed k) :=
  .inl ⟨rfl, rfl⟩
theorem clsend (cc : Nat) (v : BitVec 64) : Statement (.clsend cc v) :=
  .inl ⟨rfl, rfl⟩
theorem laneSetAged (wave : Nat) (pc : BitVec 64) : Statement (.laneSetAged wave pc) :=
  .inl ⟨rfl, rfl⟩
theorem translationFaultService (ctx : Nat) (va : BitVec 64) (res : Service) : Statement (.translationFaultService ctx va res) :=
  .inl ⟨rfl, rfl⟩
theorem placeGang (gang cluster c0 : Nat) (shares : List ShareSpec) (sb : BitVec 64) : Statement (.placeGang gang cluster c0 shares sb) :=
  .inl ⟨rfl, rfl⟩
theorem shareChange (block : Nat) (share : ShareSpec) : Statement (.shareChange block share) :=
  .inl ⟨rfl, rfl⟩
theorem restore (gang : Nat) (image : BitVec 64) (cluster c0 : Nat) (shares : List ShareSpec) : Statement (.restore gang image cluster c0 shares) :=
  .inl ⟨rfl, rfl⟩
theorem hostDoorbell (window : Nat) (value : BitVec 64) : Statement (.hostDoorbell window value) :=
  .inl ⟨rfl, rfl⟩
theorem storageRead (wave : Nat) (data : List (BitVec 8)) : Statement (.storageRead wave data) :=
  .inl ⟨rfl, rfl⟩
theorem storageWrite (wave : Nat) (accepted : Nat) : Statement (.storageWrite wave accepted) :=
  .inl ⟨rfl, rfl⟩
theorem createQueue (req : Nat) (desc : BitVec 64) (window : Nat) : Statement (.createQueue req desc window) :=
  .inl ⟨rfl, rfl⟩
theorem destroyQueue (req : Nat) : Statement (.destroyQueue req) :=
  .inl ⟨rfl, rfl⟩
theorem restartQueue (req : Nat) : Statement (.restartQueue req) :=
  .inl ⟨rfl, rfl⟩
theorem loadCodeObject (req : Nat) (plan : LoadPlan) : Statement (.loadCodeObject req plan) :=
  .inl ⟨rfl, rfl⟩
theorem unloadCodeObject (req : Nat) : Statement (.unloadCodeObject req) :=
  .inl ⟨rfl, rfl⟩
theorem createCommunicator (req handle : Nat) (agree : Bool) : Statement (.createCommunicator req handle agree) :=
  .inl ⟨rfl, rfl⟩
theorem communicatorTimeout (req : Nat) : Statement (.communicatorTimeout req) :=
  .inl ⟨rfl, rfl⟩
theorem destroyCommunicator (req : Nat) : Statement (.destroyCommunicator req) :=
  .inl ⟨rfl, rfl⟩
theorem setWatchpoint (req : Nat) : Statement (.setWatchpoint req) :=
  .inl ⟨rfl, rfl⟩
theorem clearWatchpoint (req : Nat) : Statement (.clearWatchpoint req) :=
  .inl ⟨rfl, rfl⟩
theorem attach (req : Nat) : Statement (.attach req) :=
  .inl ⟨rfl, rfl⟩
theorem resume (req : Nat) : Statement (.resume req) :=
  .inl ⟨rfl, rfl⟩
theorem setOrClearStep (req : Nat) : Statement (.setOrClearStep req) :=
  .inl ⟨rfl, rfl⟩
theorem readView (req : Nat) : Statement (.readView req) :=
  .inl ⟨rfl, rfl⟩
theorem writeName (req : Nat) : Statement (.writeName req) :=
  .inl ⟨rfl, rfl⟩
theorem endLaunchRequest (req : Nat) : Statement (.endLaunchRequest req) :=
  .inl ⟨rfl, rfl⟩
theorem hostRead (addr : BitVec 64) (len : Nat) : Statement (.hostRead addr len) :=
  .inl ⟨rfl, rfl⟩
theorem hostWrite (addr : BitVec 64) (data : List (BitVec 8)) : Statement (.hostWrite addr data) :=
  .inl ⟨rfl, rfl⟩
theorem remoteRequest (link : Nat) (msg : RemoteMsg) : Statement (.remoteRequest link msg) :=
  .inl ⟨rfl, rfl⟩
theorem remoteResponse (id : Nat) (data : BitVec 64) : Statement (.remoteResponse id data) :=
  .inl ⟨rfl, rfl⟩
theorem collectiveMessage (link handle rank seq : Nat) (cmd : CollCmd) : Statement (.collectiveMessage link handle rank seq cmd) :=
  .inl ⟨rfl, rfl⟩
theorem acknowledge (link : Nat) (seq : BitVec 8) : Statement (.acknowledge link seq) :=
  .inl ⟨rfl, rfl⟩
theorem replayRequest (link : Nat) (seq : BitVec 8) : Statement (.replayRequest link seq) :=
  .inl ⟨rfl, rfl⟩
theorem remoteAccessTimeout (id : Nat) : Statement (.remoteAccessTimeout id) :=
  .inl ⟨rfl, rfl⟩
theorem boot (image : List (BitVec 8)) : Statement (.boot image) :=
  .inl ⟨rfl, rfl⟩
theorem ownershipTransfer (nonce request signature : List (BitVec 8)) : Statement (.ownershipTransfer nonce request signature) :=
  .inl ⟨rfl, rfl⟩
theorem sensorSample (milliC : DieTemps) (power : PowerSample) : Statement (.sensorSample milliC power) :=
  .inl ⟨rfl, rfl⟩
theorem powerRemoval : Statement .powerRemoval :=
  .inl ⟨rfl, rfl⟩
theorem managementPortRequest : Statement .managementPortRequest :=
  .inl ⟨rfl, rfl⟩
theorem softError (place : ErrPlace) (correctable : Bool) : Statement (.softError place correctable) :=
  .inl ⟨rfl, rfl⟩
theorem vectorUnmask (v : VectorWrite) : Statement (.vectorUnmask v) :=
  .inl ⟨rfl, rfl⟩
theorem flitCrcFailure (link : Nat) (flit : BitVec 256) : Statement (.flitCrcFailure link flit) :=
  .inl ⟨rfl, rfl⟩
theorem linkRetrained (link : Nat) : Statement (.linkRetrained link) :=
  .inl ⟨rfl, rfl⟩
theorem collMemberUnreachable (k : Nat) : Statement (.collMemberUnreachable k) :=
  .inl ⟨rfl, rfl⟩

end Sys2Proof.Laws.Encodable
end

