-- ==== Sys2Proof/Tests/Slice0.lean ====
section
/-! SUPPORT. Tests: ill-formed terms, words of the manual's encodings, and for every obligation with hypotheses a state and
operands that meet them. Expected values are worked out from the rules cited. -/

open Sys2Proof Sys2Proof.Machine Sys2Proof.Claims

namespace Sys2Proof.Tests

/-- A two-word instruction's operands. -/
def ops (m : BitVec 3) (d a b c : BitVec 16) : Ops := ⟨false, false, .always, false, false, false, m, d, a, b, c⟩
/-- The head of an engine command. -/
def eh (m : BitVec 3) : EHead := ⟨false, .always, false, false, false, m⟩
/-- A predicate instruction's operands. -/
def pops (a b : BitVec 3) (n : BitVec 7) : POps := ⟨false, .always, a, b, n⟩
/-- A single-word uniform instruction's operands. -/
def uops (d a b : BitVec 7) : UOps := ⟨false, false, false, d, a, b⟩

/-- A wave16 granted issue at the entry of its kernel, where memory holds a NOP packet (log 30). -/
def base : State :=
  let s := State.reset.placeCode ⟨0, 0, 0, 0⟩
  { s with iss := { s.iss with pc := 0x10000, next := 0x10004 } }
/-- The base state with its wave changed. -/
def waved (f : Wave → Wave) : State := base.onWave 1 f
/-- The base state with each lane of its wave changed. -/
def laned (f : Lane → Lane) : State := waved fun w => w.onLanes (List.range 16) f
/-- The base state with no lane set granted. -/
def idle : State := { base with iss := .none }

/-! ## Ill-formed terms (R30, R48, R51, R56, R346) -/

theorem test_wf_guard_two_words :
    (Instr.viadd { ops 0 1 2 3 4 with guard := .pred false 4 }).wellFormed = false ∧
    (Instr.viadd { ops 0 1 2 3 4 with guard := .pred false 3 }).wellFormed = true := by decide
theorem test_wf_guard_one_word :
    (Instr.exit false (.pred true 4)).wellFormed = false ∧ (Instr.ret false (.pred true 5)).wellFormed = false ∧
    (Instr.bra false (.pred true 6) 0 0 0).wellFormed = false ∧
    (Instr.call false (.pred false 7) 0 0).wellFormed = false ∧
    (Instr.pnot { pops 0 0 0 with guard := .pred false 4 }).wellFormed = false := by decide
theorem test_wf_names_two_words :
    (Instr.viadd (ops 0 1024 0 0 0)).wellFormed = false ∧ (Instr.viadd (ops 0 0 1024 0 0)).wellFormed = false ∧
    (Instr.viadd (ops 0 0 0 1024 0)).wellFormed = false ∧ (Instr.viadd (ops 0 0 0 0 1024)).wellFormed = false ∧
    (Instr.viadd (ops 0 1023 1023 1023 1023)).wellFormed = true ∧
    (Instr.viadd { ops 0 1024 0 0 0 with wide := true, guard := .pred false 7 }).wellFormed = true := by decide
theorem test_wf_engine_guard :
    (Instr.cpy ⟨{ eh 0 with guard := .pred false 7 }, 0, 0, 0, 0, 0⟩).wellFormed = true := by decide
theorem test_wf_tlbi_kind :
    (Instr.tlbiPage (ops 0 0 0 0 1)).wellFormed = false ∧ (Instr.tlbiCtx (ops 0 0 0 0 2)).wellFormed = false ∧
    (Instr.tlbiAll (ops 0 0 0 0 0)).wellFormed = false ∧ (Instr.tlbiAll (ops 0 0 0 0 2)).wellFormed = true := by decide

/-! ## Words written from the encodings -/

/-- What the decoder reads at slot 0 of a packet of these words. -/
def read0 (w0 w1 w2 : BitVec 32) : Except Nat Instr := decode Declared.limits false ⟨w0, w1, w2, 0⟩ 0
/-- It reads `i` there. -/
def reads (w0 w1 w2 : BitVec 32) (i : Instr) : Bool :=
  match read0 w0 w1 w2 with
  | .ok j => decide (j = i)
  | .error _ => false

theorem test_words_single :
    reads 0x00000000 0 0 (.nop) ∧
    reads 0x00F80000 0 0 (.exit false (.pred true 3)) ∧
    reads 0x01000000 0 0 (.yield false) ∧
    reads 0x01800000 0 0 (.ret false .always) ∧
    reads 0x0243FFFE 0 0 (.bra false (.pred false 0) 1 0x7FFF 2) ∧
    reads 0x0280000D 0 0 (.call false .always 3 1) ∧
    reads 0x03000014 0 0 (.jmp false 5 0) ∧
    reads 0x04050000 0 0 (.pnot (pops 5 0 0)) ∧
    reads 0x04856000 0 0 (.pand (pops 5 3 0)) ∧
    reads 0x05056000 0 0 (.por (pops 5 3 0)) ∧
    reads 0x05856000 0 0 (.pxor (pops 5 3 0)) ∧
    reads 0x06000000 0 0 (.pdrop (pops 0 0 0)) ∧
    reads 0x06850000 0 0 (.pdup (pops 5 0 0)) ∧
    reads 0x07056000 0 0 (.pswap (pops 5 3 0)) ∧
    reads 0x07801FC0 0 0 (.psetm (pops 0 0 127)) := by decide

theorem test_words_single_uniform :
    reads 0x08004103 0 0 (.saddSingleWord (uops 1 2 3)) ∧
    reads 0x08804103 0 0 (.ssubSingleWord (uops 1 2 3)) ∧
    reads 0x09004103 0 0 (.smulSingleWord (uops 1 2 3)) ∧
    reads 0x09804103 0 0 (.smulhSingleWord (uops 1 2 3)) ∧
    reads 0x0A004103 0 0 (.sandSingleWord (uops 1 2 3)) ∧
    reads 0x0A804103 0 0 (.sorSingleWord (uops 1 2 3)) ∧
    reads 0x0B004103 0 0 (.sxorSingleWord (uops 1 2 3)) ∧
    reads 0x0B804103 0 0 (.sshlSingleWord (uops 1 2 3)) ∧
    reads 0x0C004103 0 0 (.sshrSingleWord (uops 1 2 3)) ∧
    reads 0x0C804103 0 0 (.ssarSingleWord (uops 1 2 3)) ∧
    reads 0x0D004103 0 0 (.sminSingleWord (uops 1 2 3)) ∧
    reads 0x0D804103 0 0 (.smaxSingleWord (uops 1 2 3)) ∧
    reads 0x0E004100 0 0 (.smovSingleWord (uops 1 2 0)) ∧
    reads 0x0EB5017F 0 0 (.scmpSingleWord ⟨false, false, true, true, 5, 2, 0x7F⟩) ∧
    reads 0x107F8000 0 0 (.sliSingleWord false 127 0x8000) ∧
    reads 0x10FFFFFF 0 0 (.slui false 7 0xFFFFF) ∧
    reads 0x117F0800 0 0 (.saddi false 127 0x800) := by decide

theorem test_words_lane_int :
    reads 0x40001C09 0xC0501800 0 (.viadd (ops 7 9 5 6 0)) ∧
    reads 0x40100009 0xC0501800 0 (.visub (ops 0 9 5 6 0)) ∧
    reads 0x40200009 0xC0501800 0 (.vimul (ops 0 9 5 6 0)) ∧
    reads 0x40300009 0xC0501800 0 (.vimulh (ops 0 9 5 6 0)) ∧
    reads 0x40400009 0xC0501807 0 (.vimad (ops 0 9 5 6 7)) ∧
    reads 0x40500009 0xC0501800 0 (.vimin (ops 0 9 5 6 0)) ∧
    reads 0x40600009 0xC0501800 0 (.vimax (ops 0 9 5 6 0)) ∧
    reads 0x40700009 0xC0500000 0 (.viabs (ops 0 9 5 0 0)) ∧
    reads 0x40800009 0xC0501800 0 (.vand (ops 0 9 5 6 0)) ∧
    reads 0x40900009 0xC0501800 0 (.vor (ops 0 9 5 6 0)) ∧
    reads 0x40A00009 0xC0501800 0 (.vxor (ops 0 9 5 6 0)) ∧
    reads 0x40B00009 0xC0500000 0 (.vnot (ops 0 9 5 0 0)) ∧
    reads 0x40C00009 0xC0501800 0 (.vshl (ops 0 9 5 6 0)) ∧
    reads 0x40D00009 0xC0501800 0 (.vshr (ops 0 9 5 6 0)) := by decide

theorem test_words_lane_int2 :
    reads 0x40E00009 0xC0501800 0 (.vsar (ops 0 9 5 6 0)) ∧
    reads 0x40F00009 0xC0500001 0 (.vclz (ops 0 9 5 0 1)) ∧
    reads 0x41000009 0xC0500001 0 (.vffs (ops 0 9 5 0 1)) ∧
    reads 0x41100009 0xC0500001 0 (.vpopc (ops 0 9 5 0 1)) ∧
    reads 0x41200009 0xC0500001 0 (.vbrev (ops 0 9 5 0 1)) ∧
    reads 0x41300009 0xC0501807 0 (.vbfe (ops 0 9 5 6 7)) ∧
    reads 0x41400009 0xC0501807 0 (.vbfi (ops 0 9 5 6 7)) ∧
    reads 0x41500C09 0xC0501800 0 (.vsel (ops 3 9 5 6 0)) ∧
    reads 0x41600009 0xC0500000 0 (.vmov (ops 0 9 5 0 0)) ∧
    reads 0x41700009 0xC0500000 0 (.vbcast (ops 0 9 5 0 0)) ∧
    reads 0x41800009 0xC0501800 0 (.vpadd (ops 0 9 5 6 0)) ∧
    reads 0x41901C09 0xC0501807 0 (.vdot4 (ops 7 9 5 6 7)) ∧
    reads 0x41A01805 0xC0501800 0 (.vcmp (ops 6 5 5 6 0)) := by decide

theorem test_words_lane_imm :
    reads 0x48000009 0xC05003FF 0 (.viaddImmediate (ops 0 9 5 0 1023)) ∧
    reads 0x48100009 0xC05003FF 0 (.visubImmediate (ops 0 9 5 0 1023)) ∧
    reads 0x48200009 0xC05003FF 0 (.vimulImmediate (ops 0 9 5 0 1023)) ∧
    reads 0x48300009 0xC05003FF 0 (.vimulhImmediate (ops 0 9 5 0 1023)) ∧
    reads 0x48500009 0xC05003FF 0 (.viminImmediate (ops 0 9 5 0 1023)) ∧
    reads 0x48600009 0xC05003FF 0 (.vimaxImmediate (ops 0 9 5 0 1023)) ∧
    reads 0x48800009 0xC05003FF 0 (.vandImmediate (ops 0 9 5 0 1023)) ∧
    reads 0x48900009 0xC05003FF 0 (.vorImmediate (ops 0 9 5 0 1023)) ∧
    reads 0x48A00009 0xC05003FF 0 (.vxorImmediate (ops 0 9 5 0 1023)) ∧
    reads 0x48C00009 0xC05003FF 0 (.vshlImmediate (ops 0 9 5 0 1023)) ∧
    reads 0x48D00009 0xC05003FF 0 (.vshrImmediate (ops 0 9 5 0 1023)) ∧
    reads 0x48E00009 0xC05003FF 0 (.vsarImmediate (ops 0 9 5 0 1023)) ∧
    reads 0x49300009 0xC0501BFF 0 (.vbfeImmediate (ops 0 9 5 6 1023)) ∧
    reads 0x49600009 0xC00003FF 0 (.vmovImmediate (ops 0 9 0 0 1023)) ∧
    reads 0x49A00003 0xC05003FF 0 (.vcmpImmediate (ops 0 3 5 0 1023)) := by decide

theorem test_words_float :
    reads 0x44001009 0xC0501800 0 (.vfadd (ops 4 9 5 6 0)) ∧
    reads 0x44101009 0xC0501800 0 (.vfsub (ops 4 9 5 6 0)) ∧
    reads 0x44201009 0xC0501800 0 (.vfmul (ops 4 9 5 6 0)) ∧
    reads 0x44301009 0xC0501807 0 (.vffma (ops 4 9 5 6 7)) ∧
    reads 0x44400009 0xC0501800 0 (.vfmin (ops 0 9 5 6 0)) ∧
    reads 0x44500009 0xC0501800 0 (.vfmax (ops 0 9 5 6 0)) ∧
    reads 0x44601009 0xC0500000 0 (.vfrint (ops 4 9 5 0 0)) ∧
    reads 0x44701009 0xC0500000 0 (.vfexp2f (ops 4 9 5 0 0)) ∧
    reads 0x44801009 0xC0500000 0 (.vflog2 (ops 4 9 5 0 0)) ∧
    reads 0x44901009 0xC0500000 0 (.vfrcp (ops 4 9 5 0 0)) ∧
    reads 0x44A01009 0xC0500000 0 (.vfrsq (ops 4 9 5 0 0)) ∧
    reads 0x44B01009 0xC0500000 0 (.vfsqrt (ops 4 9 5 0 0)) ∧
    reads 0x44C01009 0xC0500000 0 (.vfsin (ops 4 9 5 0 0)) ∧
    reads 0x44D01009 0xC0500000 0 (.vfcos (ops 4 9 5 0 0)) := by decide

theorem test_words_float2 :
    reads 0x44E01009 0xC0501800 0 (.vfldexp (ops 4 9 5 6 0)) ∧
    reads 0x44F00009 0xC0500001 0 (.vffrexp (ops 0 9 5 0 1)) ∧
    reads 0x45000009 0xC0500000 0 (.vfclass (ops 0 9 5 0 0)) ∧
    reads 0x45101009 0xC0500402 0 (.vfcvt (ops 4 9 5 1 2)) ∧
    reads 0x45201009 0xC0500016 0 (.vftoi (ops 4 9 5 0 22)) ∧
    reads 0x45301009 0xC0505800 0 (.vitof (ops 4 9 5 22 0)) ∧
    reads 0x45401009 0xC0501807 0 (.vfrope (ops 4 9 5 6 7)) ∧
    reads 0x45501009 0xC0501801 0 (.vfdot2 (ops 4 9 5 6 1)) ∧
    reads 0x45600007 0xC0501800 0 (.vfcmp (ops 0 7 5 6 0)) := by decide

theorem test_words_uniform :
    reads 0x4C000009 0xC0501800 0 (.sadd (ops 0 9 5 6 0)) ∧
    reads 0x4C100009 0xC0501800 0 (.ssub (ops 0 9 5 6 0)) ∧
    reads 0x4C200009 0xC0501800 0 (.smul (ops 0 9 5 6 0)) ∧
    reads 0x4C300009 0xC0501800 0 (.smulh (ops 0 9 5 6 0)) ∧
    reads 0x4C400009 0xC0501800 0 (.sand (ops 0 9 5 6 0)) ∧
    reads 0x4C500009 0xC0501800 0 (.sor (ops 0 9 5 6 0)) ∧
    reads 0x4C600009 0xC0501800 0 (.sxor (ops 0 9 5 6 0)) ∧
    reads 0x4C700009 0xC0501800 0 (.sshl (ops 0 9 5 6 0)) ∧
    reads 0x4C800009 0xC0501800 0 (.sshr (ops 0 9 5 6 0)) ∧
    reads 0x4C900009 0xC0501800 0 (.ssar (ops 0 9 5 6 0)) ∧
    reads 0x4CA00009 0xC0501800 0 (.smin (ops 0 9 5 6 0)) ∧
    reads 0x4CB00009 0xC0501800 0 (.smax (ops 0 9 5 6 0)) ∧
    reads 0x4CC00009 0xC0500000 0 (.smov (ops 0 9 5 0 0)) ∧
    reads 0x4CD00009 0xC0501807 0 (.ssel (ops 0 9 5 6 7)) ∧
    reads 0x4CE00009 0xC0500007 0 (.sldr (ops 0 9 5 0 7)) ∧
    reads 0x4CF00004 0xC0501800 0 (.scmp (ops 0 4 5 6 0)) := by decide

theorem test_words_uniform_imm :
    reads 0x4D000009 0xC0500200 0 (.saddImmediate (ops 0 9 5 0 512)) ∧
    reads 0x4D100009 0xC0500200 0 (.ssubImmediate (ops 0 9 5 0 512)) ∧
    reads 0x4D200009 0xC0500200 0 (.smulImmediate (ops 0 9 5 0 512)) ∧
    reads 0x4D300009 0xC0500200 0 (.smulhImmediate (ops 0 9 5 0 512)) ∧
    reads 0x4D400009 0xC0500200 0 (.sandImmediate (ops 0 9 5 0 512)) ∧
    reads 0x4D500009 0xC0500200 0 (.sorImmediate (ops 0 9 5 0 512)) ∧
    reads 0x4D600009 0xC0500200 0 (.sxorImmediate (ops 0 9 5 0 512)) ∧
    reads 0x4D700009 0xC0500200 0 (.sshlImmediate (ops 0 9 5 0 512)) ∧
    reads 0x4D800009 0xC0500200 0 (.sshrImmediate (ops 0 9 5 0 512)) ∧
    reads 0x4D900009 0xC0500200 0 (.ssarImmediate (ops 0 9 5 0 512)) ∧
    reads 0x4DA00009 0xC0500200 0 (.sminImmediate (ops 0 9 5 0 512)) ∧
    reads 0x4DB00009 0xC0500200 0 (.smaxImmediate (ops 0 9 5 0 512)) ∧
    reads 0x4DC00009 0xC0000200 0 (.sli (ops 0 9 0 0 512)) ∧
    reads 0x4DF00802 0xC0500200 0 (.scmpImmediate (ops 2 2 5 0 512)) := by decide

theorem test_words_control :
    reads 0x4E300000 0xC0500000 0 (.calli (ops 0 0 5 0 0)) ∧
    reads 0x4E400000 0xC0500000 0 (.jmpi (ops 0 0 5 0 0)) := by decide

theorem test_words_wave :
    reads 0x4F000C09 0xC0001807 0 (.vote (ops 3 9 0 6 7)) ∧
    reads 0x4F000000 0xC0001802 0 (.vote (ops 0 0 0 6 2)) ∧
    reads 0x4F100C09 0xC0501807 0 (.shfl (ops 3 9 5 6 7)) ∧
    reads 0x4F200009 0xC0501800 0 (.wred (ops 0 9 5 6 0)) ∧
    reads 0x4F300009 0xC0501810 0 (.wscan (ops 0 9 5 6 16)) ∧
    reads 0x4F400000 0xC0000010 0 (.part (ops 0 0 0 0 16)) ∧
    reads 0x4F500409 0xC0000000 0 (.actm (ops 1 9 0 0 0)) ∧
    reads 0x4F600000 0xC050000F 0 (.xmovS (ops 0 0 5 0 15)) ∧
    reads 0x4F701009 0xC000000F 0 (.xmovR (ops 4 9 0 0 15)) := by decide

theorem test_words_mem :
    reads 0x50001809 0xC0500008 0 (.ld (ops 6 9 5 0 8)) ∧
    reads 0x50100C00 0xC0501808 0 (.st (ops 3 0 5 6 8)) ∧
    reads 0x50200009 0xC0501808 0 (.lds (ops 0 9 5 6 8)) ∧
    reads 0x50300409 0xC0501808 0 (.sts (ops 1 9 5 6 8)) ∧
    reads 0x50400C09 0xC0501800 0 (.atom (ops 3 9 5 6 0)) ∧
    reads 0x50500009 0xC0501800 0 (.atoms (ops 0 9 5 6 0)) ∧
    reads 0x50600400 0xC0500008 0 (.pref (ops 1 0 5 0 8)) ∧
    reads 0x50700000 0xC0500008 0 (.cflush (ops 0 0 5 0 8)) ∧
    reads 0x50800C00 0xC0000000 0 (.phase (ops 3 0 0 0 0)) ∧
    reads 0x50900000 0xC0500000 0 (.fopnd (ops 0 0 5 0 0)) ∧
    reads 0x50900000 0xC0000001 0 (.fopnd (ops 0 0 0 0 1)) := by decide

theorem test_words_sched :
    reads 0x51000000 0xC0500000 0 (.bara (ops 0 0 5 0 0)) ∧
    reads 0x51100000 0xC0500000 0 (.barw (ops 0 0 5 0 0)) ∧
    reads 0x51200000 0xC0500000 0 (.bars (ops 0 0 5 0 0)) ∧
    reads 0x51300000 0xC0500000 0 (.csign (ops 0 0 5 0 0)) ∧
    reads 0x52000009 0xC0000004 0 (.snext (ops 0 9 0 0 4)) ∧
    reads 0x52100000 0xC0500004 0 (.sdone (ops 0 0 5 0 4)) ∧
    reads 0x52200000 0xC0500001 0 (.sgive (ops 0 0 5 0 1)) ∧
    reads 0x52300000 0xC0501808 0 (.swr (ops 0 0 5 6 8)) ∧
    reads 0x52400000 0xC0500000 0 (.molt (ops 0 0 5 0 0)) ∧
    reads 0x52500009 0xC050001F 0 (.srd (ops 0 9 5 0 31)) := by decide

theorem test_words_engine :
    reads 0x58A00009 0xC0000000 0 (.accz (ops 0 9 0 0 0)) ∧
    reads 0x58B00009 0xC0500000 0 (.acctest (ops 0 9 5 0 0)) ∧
    reads 0x59500009 0xC0501800 0 (.tmerge (ops 0 9 5 6 0)) := by decide

theorem test_words_system :
    reads 0x5C000009 0xC0500000 0 (.crr (ops 0 9 5 0 0)) ∧
    reads 0x5C000009 0xC0500001 0 (.crr (ops 0 9 5 0 1)) ∧
    reads 0x5C100008 0xC0500001 0 (.crw (ops 0 8 5 0 1)) ∧
    reads 0x5C200000 0xC00003FF 0 (.trap (ops 0 0 0 0 1023)) ∧
    reads 0x5C300000 0xC0000001 0 (.rtt (ops 0 0 0 0 1)) ∧
    reads 0x5C400009 0xC05003FF 0 (.sysc (ops 0 9 5 0 1023)) ∧
    reads 0x5C500000 0xC0000001 0 (.brk (ops 0 0 0 0 1)) ∧
    reads 0x5C600000 0xC0501800 0 (.tlbiPage (ops 0 0 5 6 0)) ∧
    reads 0x5C600000 0xC0001801 0 (.tlbiCtx (ops 0 0 0 6 1)) ∧
    reads 0x5C600000 0xC0000002 0 (.tlbiAll (ops 0 0 0 0 2)) ∧
    reads 0x5C700000 0xC0000000 0 (.halt (ops 0 0 0 0 0)) ∧
    reads 0x5C800009 0xC0000000 0 (.ckpt (ops 0 9 0 0 0)) ∧
    reads 0x5C900000 0xC0000000 0 (.fencei (ops 0 0 0 0 0)) := by decide

theorem test_words_wide :
    reads 0x800F85E0 0xFFFE0005 0xC0020000
      (.viadd ⟨true, false, .pred true 7, false, false, false, 2, 0xFFFF, 0x8001, 0x4002, 0x0⟩) ∧
    reads 0x88000020 0xC8D159E2 0xC0000001
      (.viaddImmediate ⟨true, false, .always, false, false, false, 0, 0x1234, 0x5678, 0x8000, 0x1⟩) ∧
    reads 0x8E0B0600 0xC0080003 0xFFFFFFFE
      (.braWide ⟨true, false, .pred false 6, false, false, false, 3, 0x2, 0x0, 0xFFFF, 0xFFFE⟩) ∧
    reads 0x8E100000 0xC0040000 0xC0000002
      (.jmpWide ⟨true, false, .always, false, false, false, 0, 0x1, 0x0, 0x0, 0x2⟩) ∧
    reads 0x8E2B8000 0xC0000001 0xFFFFFFFF
      (.callWide ⟨true, false, .pred false 7, false, false, false, 0, 0x0, 0x0, 0x7FFF, 0xFFFF⟩) := by decide

theorem test_words_engine_commands :
    reads 0x98000200 0xD4010024 0xC0030000
      (.cpy ⟨eh 1, 5, 4, 9, 3, 0⟩) ∧
    reads 0x98100000 0xD4010024 0xC0030007
      (.cpyx ⟨eh 0, 5, 4, 9, 3, 7⟩) ∧
    reads 0x98200000 0xD4010024 0xC0030000
      (.cpyo ⟨eh 0, 5, 4, 9, 3, 0⟩) ∧
    reads 0x98300000 0xC0000024 0xC0000000
      (.cpyc ⟨eh 0, 0, 0, 9, 0, 0⟩) ∧
    reads 0x98800000 0xC0000401 0xC20A8000
      (.mma ⟨eh 0, 0, 0, 1, 0, 1, 2, 2, 2, 2, 0, 0⟩) ∧
    reads 0x989007E0 0xC14010C2 0xC209BF80
      (.mmag ⟨eh 3, 15, 5, 4, 3, 2, 2, 2, 1, 2, 127, 0⟩) ∧
    reads 0x98C04000 0xC8002000 0xC2800000
      (.epi ⟨⟨false, .always, true, false, false, 0⟩, 2, 0, 8, 0, 0, 2, 2⟩) ∧
    reads 0x99000000 0xC401001C 0xC2000000
      (.nmsel ⟨eh 0, 1, 4, 7, 2⟩) ∧
    reads 0x99100000 0xC401001C 0xC2000000
      (.nmtopk ⟨eh 0, 1, 4, 7, 2⟩) ∧
    reads 0x99200000 0xC401001C 0xC2000000
      (.nmscore ⟨eh 0, 1, 4, 7, 2⟩) ∧
    reads 0x99300000 0xC401001C 0xC2000000
      (.nmassign ⟨eh 0, 1, 4, 7, 2⟩) ∧
    reads 0x9A000400 0xC4080100 0xC7000000
      (.coll ⟨eh 2, 1, 2, 4, 7⟩) := by decide

/-! ## Words refused (R46, R48, R50, R53, R54, R57) -/

theorem test_refused_words :
    read0 0x20000000 0 0 = .error 5 ∧                          -- a NOP with its chain bit
    read0 0x03800000 0 0 = .error 4 ∧                          -- opcode 7 is unassigned
    read0 0xC0000000 0 0 = .error 1 ∧                          -- a continuation word
    read0 0x40000000 0 0 = .error 2 ∧                          -- no continuation follows
    read0 0x58000000 0xC0000000 0 = .error 4 ∧                 -- a two-word CPY
    read0 0x40010000 0xC0000000 0 = .error 5 ∧                 -- a reserved guard
    read0 0x44001400 0xC0000000 0 = .error 6 ∧                 -- VFADD with rounding 0b101
    read0 0x80040000 0xC0000000 0xC0000000 = .error 5 := by    -- GS without GE
  refine ⟨?_, ?_, ?_, ?_, ?_, ?_, ?_, ?_⟩ <;> rfl
theorem test_refused_undeclared :
    decode ⟨8, 8, 0, 0, 0, 0, 0⟩ false ⟨0x40000007, 0xC0701C00, 0, 0⟩ 0 = .ok (.viadd (ops 0 7 7 7 0)) ∧
    decode ⟨8, 8, 0, 0, 0, 0, 0⟩ false ⟨0x40000007, 0xC0702000, 0, 0⟩ 0 = .error 7 ∧
    decode .limits false ⟨0, 0, 0x20800000, 0⟩ 2 = .error 5 := by refine ⟨?_, ?_, ?_⟩ <;> rfl

/-! ## Decoding and encoding agree on the words above, at every slot they fit -/

theorem test_encode :
    encode (.viadd (ops 7 9 5 6 0)) = [0x40001C09, 0xC0501800] ∧
    encode (.mma ⟨eh 0, 0, 0, 1, 0, 1, 2, 2, 2, 2, 0, 0⟩) = [0x98800000, 0xC0000401, 0xC20A8000] ∧
    encode (.slui false 1 0x12346) = [0x10912346] ∧ encode .nop = [0] := by refine ⟨?_, ?_, ?_, ?_⟩ <;> rfl


/-! ## Witnesses: the conditions of the statements, met at concrete states

`base` is ready for an instruction of each form; the tables that statements use give it a result. -/

theorem witness_LaneIntegerResults :
    ([.viadd (ops 7 9 5 6 0), .visub (ops 0 9 5 6 0), .vimul (ops 0 9 5 6 0), .vimulh (ops 2 9 5 6 0),
      .vimad (ops 0 9 5 6 7), .vimin (ops 0 9 5 6 0), .vimax (ops 4 9 5 6 0), .viabs (ops 1 9 5 0 0),
      .vand (ops 0 9 5 6 0), .vor (ops 0 9 5 6 0), .vxor (ops 0 9 5 6 0), .vnot (ops 0 9 5 0 0),
      .vshl (ops 0 9 5 6 0), .vshr (ops 0 9 5 6 0), .vsar (ops 4 9 5 6 0), .viaddImmediate (ops 0 9 5 0 0x3FF),
      .visubImmediate (ops 0 9 5 0 1), .vimulImmediate (ops 0 9 5 0 1), .vimulhImmediate (ops 0 9 5 0 1),
      .viminImmediate (ops 0 9 5 0 1), .vimaxImmediate (ops 0 9 5 0 1), .vandImmediate (ops 0 9 5 0 1),
      .vorImmediate (ops 0 9 5 0 1), .vxorImmediate (ops 0 9 5 0 1), .vshlImmediate (ops 0 9 5 0 64),
      .vshrImmediate (ops 0 9 5 0 64), .vsarImmediate (ops 0 9 5 0 64)] : List Instr).all
        (fun i => base.ready i && (arithmetic base i).isSome) = true ∧
    ([.vclz (ops 0 9 5 0 1), .vffs (ops 0 9 5 0 0), .vpopc (ops 4 9 5 0 3), .vbrev (ops 0 9 5 0 2),
      .vbfe (ops 0 9 5 6 7), .vbfeImmediate (ops 0 9 5 6 8), .vbfi (ops 0 9 5 6 7), .vsel (ops 7 9 5 6 0),
      .vmov (ops 4 9 5 0 0), .vmovImmediate (ops 0 9 0 0 0x200), .vbcast (ops 0 9 5 0 0), .vpadd (ops 5 9 5 6 0),
      .vdot4 (ops 7 9 5 6 7), .actm (ops 1 9 0 0 0)] : List Instr).all
        (fun i => base.ready i && (bitsAndMoves base i).isSome) = true := by decide

theorem witness_FloatResults :
    ([.vfadd (ops 4 9 5 6 0), .vfsub (ops 0 9 5 6 0), .vfmul (ops 1 9 5 6 0), .vffma (ops 2 9 5 6 7),
      .vfmin (ops 0 9 5 6 0), .vfmax (ops 0 9 5 6 0), .vfrint (ops 3 9 5 0 0), .vfldexp (ops 0 9 5 6 0),
      .vffrexp (ops 0 9 5 0 1), .vfclass (ops 0 9 5 0 0), .vfdot2 (ops 0 9 5 6 1), .vfcvt (ops 0 9 5 1 2),
      .vftoi (ops 0 9 5 0 22), .vitof (ops 0 9 5 22 0)] : List Instr).all
        (fun i => base.ready i && (floatTable base i).isSome) = true ∧
    ([.vfexp2f (ops 0 9 5 0 0), .vflog2 (ops 0 9 5 0 0), .vfrcp (ops 0 9 5 0 0), .vfrsq (ops 0 9 5 0 0),
      .vfsqrt (ops 0 9 5 0 0), .vfsin (ops 0 9 5 0 0), .vfcos (ops 0 9 5 0 0), .vfrope (ops 0 9 5 6 7)] :
        List Instr).all (fun i => base.ready i && (specialTable base i).isSome) = true := by decide

theorem witness_UniformResults :
    ([.saddSingleWord (uops 1 2 3), .ssubSingleWord (uops 1 2 3), .smulSingleWord (uops 1 2 3),
      .smulhSingleWord (uops 1 2 3), .sandSingleWord (uops 1 2 3), .sorSingleWord (uops 1 2 3),
      .sxorSingleWord (uops 1 2 3), .sshlSingleWord (uops 1 2 3), .sshrSingleWord (uops 1 2 3),
      .ssarSingleWord (uops 1 2 3), .sminSingleWord (uops 1 2 3), .smaxSingleWord (uops 1 2 3),
      .smovSingleWord (uops 1 2 0), .sadd (ops 3 9 5 6 0), .ssub (ops 0 9 5 6 0), .smul (ops 0 9 5 6 0),
      .smulh (ops 2 9 5 6 0), .sand (ops 0 9 5 6 0), .sor (ops 0 9 5 6 0), .sxor (ops 0 9 5 6 0),
      .sshl (ops 0 9 5 6 0), .sshr (ops 0 9 5 6 0), .ssar (ops 0 9 5 6 0), .smin (ops 0 9 5 6 0),
      .smax (ops 2 9 5 6 0), .smov (ops 0 9 5 0 0), .ssel (ops 0 9 5 6 7)] : List Instr).all
        (fun i => base.ready i && (uniformTable base i).isSome) = true ∧
    ([.saddImmediate (ops 0 9 5 0 0x200), .ssubImmediate (ops 0 9 5 0 1), .smulImmediate (ops 0 9 5 0 1),
      .smulhImmediate (ops 0 9 5 0 1), .sandImmediate (ops 0 9 5 0 1), .sorImmediate (ops 0 9 5 0 1),
      .sxorImmediate (ops 0 9 5 0 1), .sshlImmediate (ops 0 9 5 0 64), .sshrImmediate (ops 0 9 5 0 64),
      .ssarImmediate (ops 0 9 5 0 64), .sminImmediate (ops 0 9 5 0 1), .smaxImmediate (ops 0 9 5 0 1),
      .sliSingleWord false 127 0x8000, .slui false 7 0xFFFFF, .saddi false 127 0x800, .sli (ops 0 9 0 0 0x200)] :
        List Instr).all (fun i => base.ready i && (uniformTable base i).isSome) = true ∧
    base.ready (.sldr (ops 0 9 0 0 7)) = true := by decide

theorem witness_PushesOntoStacks :
    (∀ i ∈ ([.vcmp (ops 6 5 5 6 0), .vcmpImmediate (ops 0 3 5 0 1), .vfcmp (ops 0 7 5 6 0),
      .scmpSingleWord ⟨false, false, true, true, 5, 2, 0x7F⟩, .scmp (ops 0 4 5 6 0), .scmpImmediate (ops 2 2 5 0 1),
      .pdup (pops 5 0 0), .psetm (pops 0 0 127)] : List Instr),
      (pushTable base i).isSome = true ∧ base.ready i = true ∧ ∀ l ∈ base.active i, (base.cur.lane l).count < 8) ∧
    (let s := laned fun t => { t with count := 8 }
     (pushTable s (.pdup (pops 5 0 0))).isSome = true ∧ s.ready (.pdup (pops 5 0 0)) = true ∧
       (s.active (.pdup (pops 5 0 0))).find? (fun l => (s.cur.lane l).count == 8) = some 0) ∧
    (let s := laned fun t => { t with count := 7 }
     s.ready (.pdup (pops 7 0 0)) = true ∧ ∀ l ∈ s.active (.pdup (pops 7 0 0)), (s.cur.lane l).count < 8) := by decide

theorem witness_StackEntriesInPlace :
    (let s := laned fun t => { t with count := 8 }
     ∀ i ∈ ([.pnot (pops 7 0 0), .pand (pops 7 0 0), .por (pops 7 0 0), .pxor (pops 7 0 0), .pswap (pops 7 6 0),
      .pdrop (pops 0 0 0)] : List Instr),
      ∃ n ∈ [0, 7], (stackTable i).map Prod.fst = some n ∧ s.ready i = true ∧
        ∀ l ∈ s.active i, n < (s.cur.lane l).count) ∧
    (stackTable (.pdrop (pops 0 0 0))).map Prod.fst = some 0 ∧ base.ready (.pdrop (pops 0 0 0)) = true ∧
    (base.active (.pdrop (pops 0 0 0))).find? (fun l => decide ((base.cur.lane l).count ≤ 0)) = some 0 := by decide

/-! ### Encoding -/

-- A VCMP read at slot 0 stands at slot 1 of another packet too, at its end.
theorem witness_DecodeOfEncode :
    let p : Packet := ⟨0x49A00800, 0xC0300000, 0x0246000C, 0⟩
    let q : Packet := ⟨0, 0x49A00800, 0xC0300000, 0⟩
    let i := Instr.vcmpImmediate (ops 2 0 3 0 0)
    (match decode Declared.limits false p 0 with | .ok j => decide (j = i) | .error _ => false) = true ∧
    i.wellFormed = true ∧ i.isEvent = false ∧ claimWords p 0 = encode i ∧ claimWords q 1 = encode i ∧
    1 + (encode i).length = 3 ∧ q.tailOk = true ∧ p.tailOk = true ∧ bit (q.word 1) 29 = false := by decide

-- Legal, and illegal: an ordinary instruction, a predicate instruction, an engine command.
theorem witness_DecodeOfEncode_legal :
    legal Declared.limits false (.vcmpImmediate (ops 2 0 3 0 0)) ∧ legal Declared.limits false (.psetm (pops 0 0 127)) ∧
    legal Declared.limits false (.cpy ⟨eh 0, 1, 4, 9, 0, 0⟩) ∧ ¬ legal Declared.limits false (.psetm (pops 1 0 0)) ∧
    (Instr.psetm (pops 1 0 0)).wellFormed = true :=
  ⟨⟨_, rfl, rfl, by decide, by decide⟩, ⟨.inr rfl, .inr rfl, by decide⟩, rfl,
    fun h => by cases h.1 with
      | inl h => cases h
      | inr h => exact absurd h (by decide), rfl⟩

/-- A name-table entry: class, number, size. -/
def named (cls n size : Nat) : NameInfo := ⟨cls, n, false, false, 0, 0, 0, size, [(0, 0)]⟩
/-- A kernel that declares scratch buffers 0 to 2 of 1 KiB, barriers and convergence registers of one and of two. -/
def richKernel : Kernel :=
  { probeKernel with
    names := [named 2 0 1024, named 2 1 1024, named 2 2 1024, named 3 0 1, named 3 1 2, named 4 0 1, named 4 1 2] }
/-- The base state with that kernel, a data page at 0x20000, a stack page at 0x30000, a SYNC page at 0x40000 and a page of
another device at 0x50000. -/
def rich : State :=
  { base with
    launches := base.launches.put 1 { base.launch 1 with kernel := richKernel }
    blocks := base.blocks.put 1 { base.block 1 with sb := 0x30000 }
    tlb := base.tlb ++ [⟨0, 0, 0x20000, 16, 0x20007⟩, ⟨0, 0, 0x30000, 16, 0x2000000000030007⟩,
      ⟨0, 0, 0x40000, 16, 0x1000000000040007⟩, ⟨0, 0, 0x50000, 16, 0x80800000050007⟩] }
/-- `rich` with each lane `l` of its wave holding `f l` in name 5. -/
def five (f : Nat → Nat) : State :=
  rich.onWave 1 fun w => { w with lanes := (List.range 16).map fun l =>
    (l, { probeLane with names := [(5, BitVec.ofNat 64 (f l))] }) }

/-! ### Control transfer -/

theorem witness_Jumps :
    (let s := five fun _ => 0x10004
     ∀ i ∈ ([.bra false .always 0 0 2, .braWide (ops 3 2 0 0 0), .jmp false 0 1, .jmpWide (ops 0 1 0 0 0),
       .jmpi (ops 0 0 5 0 0)] : List Instr), s.ready i = true ∧
       (jumpTable s i).any (fun t => (s.active i).all fun l => targetOk s (t.1 l)) = true) := by decide +kernel
theorem witness_Jumps_bad :
    (let t (s : State) := targetTrap s ((s.active (.jmpi (ops 0 0 5 0 0))).map fun l => (l, s.readLane l 5))
     t (five fun l => if l = 3 then 2 ^ 56 else 0x10000) = some (causeCanonical, 0x100000000000000, 3) ∧
     t (five fun l => if l = 15 then 0x1000C else 0x10000) = some (causeTarget, 0x1000C, 15) ∧
     t (five fun l => if l = 1 then 0x20000 else 0x10000) = some (causeProtection, 0x20000, 1) ∧
     (let s := five fun _ => 0x10000
      t { s with mem := s.mem.write 0x10000 [0, 0, 0, 0xC0] } = some (causeTarget, 0x10000, 0)) ∧
     (five fun _ => 2 ^ 56).ready (.jmpi (ops 0 0 5 0 0)) = true) := by decide +kernel
theorem witness_CallsAndReturns :
    (let s := five fun _ => 0x10000
     (∀ i ∈ ([.call false .always 0 0, .callWide (ops 0 0 0 0 0), .calli (ops 0 0 5 0 0)] : List Instr),
       s.ready i = true ∧ (callTable s i).any (fun t => (s.active i).all fun l => targetOk s (t l)) = true ∧
       (∀ l ∈ s.active i, (s.cur.lane l).depth < (s.kernelOf s.cur).depth) ∧
       (match s.reach .stackWrite true ((s.active i).map fun l => (l, s.stackEntry 1 l (s.cur.lane l).depth)) with
        | .ok pas => pas.length == 16
        | _ => false) = true)) ∧
    (let s := laned fun t => { t with depth := 8 }
     s.ready (.call false .always 0 0) = true ∧
     (s.active (.call false .always 0 0)).find? (fun l => decide ((s.kernelOf s.cur).depth ≤ (s.cur.lane l).depth)) = some 0) ∧
    base.ready (.ret false .always) = true ∧
    (base.active (.ret false .always)).find? (fun l => (base.cur.lane l).depth == 0) = some 0 := by decide +kernel
theorem witness_CallsAndReturns_ret :
    let s := rich.onWave 1 fun w => w.onLanes (List.range 16) fun t => { t with depth := 1 }
    let s := { s with mem := (List.range 16).foldl (fun m l => m.write (0x30000 + 64 * l) (leBytes 8 0x10004)) s.mem }
    let i := Instr.ret false .always
    s.ready i = true ∧ (∀ l ∈ s.active i, 0 < (s.cur.lane l).depth) ∧
    (match s.reach .stackRead true ((s.active i).map fun l => (l, s.stackEntry 1 l ((s.cur.lane l).depth - 1))) with
     | .ok pas => pas.length == 16 && pas.all fun p => targetOk s
         (BitVec.ofNat 64 (ofLe ((List.range 8).map fun i => s.viewByte 1 (p.2.1 + i))))
     | _ => false) = true := by decide +kernel
theorem witness_EndsAndPauses :
    (base.ready (.exit false .always) = true ∧ base.cur.trapm = false ∧
      ∀ l ∈ base.cur.live, l ∈ base.active (.exit false .always)) ∧
    (let s := base.onWave 1 fun w => w.setLane 0 { w.lane 0 with preds := 1, count := 1 }
     s.ready (.exit false (.pred false 0)) = true ∧ ∃ l ∈ s.cur.live, l ∉ s.active (.exit false (.pred false 0))) ∧
    base.ready .nop = true ∧ base.ready (.yield false) = true := by decide +kernel

/-! ### Wave operations -/

/-- The base state with uniform name 6 a mask. -/
def masked (m : BitVec 64) : State := waved fun w => { w with unif := [(6, m)] }

theorem witness_WaveOperationResults :
    let s := masked 0xFFFF
    (∀ i ∈ ([.shfl (ops 3 9 5 6 7), .vote (ops 3 9 0 6 7), .wred (ops 0 9 5 6 0), .wscan (ops 0 9 5 6 0x10)] : List Instr),
      waveMask s i = some 0xFFFF ∧ (waveTable s i 0xFFFF).isSome = true ∧ s.ready i = true) ∧
    (([0, 1, 2] : List (BitVec 3)).all fun m => s.ready (.vote (ops m 0 0 6 7)) && bits m.toNat 1 0 != 3) = true ∧
    (∀ j ∈ s.cur.present, j ∈ s.issuing) ∧ (∀ l ∈ s.active (.vote (ops 0 0 0 6 7)), bit 0xFFFF l = true) ∧
    ∀ l ∈ s.active (.vote (ops 0 0 0 6 7)), (s.cur.lane l).count < 8 := by decide +kernel
theorem witness_MemberWaitsAndSelfExclusion :
    (let s := { masked 0xFFFF with iss := .of 1 (List.range 8) }
     waveMask s (.wred (ops 0 9 5 6 0)) = some 0xFFFF ∧ s.ready (.wred (ops 0 9 5 6 0)) = true ∧ 8 ∈ s.cur.present ∧
     8 ∉ s.issuing ∧ 0 ∈ s.active (.wred (ops 0 9 5 6 0)) ∧ (0 / s.seen.part = 8 / s.seen.part) ∧ 8 < s.cur.width ∧
     bit 0xFFFF 8 = true) ∧
    (let s := masked 0x7FFF
     waveMask s (.shfl (ops 0 9 5 6 7)) = some 0x7FFF ∧ s.ready (.shfl (ops 0 9 5 6 7)) = true ∧
     (∀ j ∈ s.cur.present, j ∈ s.issuing) ∧
     (s.active (.shfl (ops 0 9 5 6 7))).find? (fun l => !bit 0x7FFF l) = some 15) := by decide +kernel
theorem witness_TilesAndTransferSlots :
    (([2, 16] : List (BitVec 16)).all fun w => base.ready (.part (ops 0 0 0 0 w)) && partOk base.cur.width w.toNat) = true ∧
    (base.ready (.part (ops 0 0 0 0 32)) = true ∧ partOk base.cur.width 32 = false) ∧
    (([0, 15] : List (BitVec 16)).all fun n => base.ready (.xmovS (ops 0 0 5 0 n)) &&
      base.ready (.xmovR (ops 0 9 0 0 n)) && !(base.block 1).slots.has n.toNat) = true ∧
    (let s := base.setBlock 1 { base.block 1 with slots := [(15, ⟨32, [(0, 1)]⟩)] }
     s.ready (.xmovS (ops 0 0 5 0 15)) = true ∧ s.ready (.xmovR (ops 0 9 0 0 15)) = true ∧
     (s.block s.cur.block).slots.has 15 = true) := by decide +kernel

/-! ### Memory -/

/-- The checks of an access pass. -/
def passes {α : Type} (r : Except Eff α) : Bool := match r with | .ok _ => true | .error _ => false
/-- LD and ST of 4 bytes at name 5 are ready and pass their checks. -/
def accessible (s : State) : Bool :=
  s.ready (.ld (ops 2 9 5 0 0)) && s.ready (.st (ops 2 0 5 6 0)) && s.bad.isEmpty &&
    passes (s.genericCheck .load 4 (s.eas (ops 2 9 5 0 0) (s.active (.ld (ops 2 9 5 0 0))))) &&
    passes (s.genericCheck .store 4 (s.eas (ops 2 0 5 6 0) (s.active (.st (ops 2 0 5 6 0)))))
theorem witness_LoadsAndStores :
    accessible (five fun l => 0x20000 + 8 * l) = true ∧
    accessible (five fun l =>
      if l = 0 then 0xFE010000000003FC else if l = 15 then 0x2FFFC else 0x20000 + 4 * l) = true := by decide +kernel
theorem witness_LoadsAndStores_bad :
    (let trap (f : Nat → Nat) := let s := five f; addressTrap s 4 (s.eas (ops 2 9 5 0 0) (s.active (.ld (ops 2 9 5 0 0))))
     trap (fun l => if l = 2 then 2 ^ 56 else 0x20000) = some (causeCanonical, 0x100000000000000, 2) ∧
     trap (fun l => if l = 2 then 0x20002 else 0x20000) = some (causeAlign, 0x20002, 2) ∧
     trap (fun l => if l = 2 then 0xFE00000100000000 else 0x20000) = some (causeCanonical, 0xFE00000100000000, 2) ∧
     trap (fun l => if l = 2 then 0xFE03000000000000 else 0x20000) = some (causeBounds, 0xFE03000000000000, 2) ∧
     trap (fun l => if l = 2 then 0xFE01000000000400 else 0x20000) = some (causeBounds, 0xFE01000000000400, 2) ∧
     rich.acquiring 1 = false ∧ rich.access = [] ∧
     (five fun _ => 2 ^ 56).ready (.ld (ops 2 9 5 0 0)) = true ∧ (five fun _ => 2 ^ 56).ready (.st (ops 2 0 5 6 0)) = true) ∧
    (let s := (five fun _ => 0xFE03000000000000).setLaunch 1 { rich.launch 1 with
       kernel := { richKernel with decl := { richKernel.decl with scr := 3 } } }
     addressTrap s 4 (s.eas (ops 2 9 5 0 0) (s.active (.ld (ops 2 9 5 0 0)))) =
       some (causeInvalid, 0xFE03000000000000, 0)) := by decide +kernel
theorem witness_StoresWriteExactlyTheirBytes :
    let pas := [(3, 0x20000, 0x20007)]
    pas.find? (fun p => p.1 == 3) = some (3, 0x20000, 0x20007) ∧ bits 0x20000 46 39 = 0 ∧ bit 0x20000 55 = false ∧
    leafRepl 0x20007 = false ∧ rich.iss.late = false ∧ rich.mem.wf = true ∧ rich.vlines = [] := by decide +kernel
theorem witness_ScratchLoadsAndStores :
    (let s := five fun l => 1024 - 4 - 4 * l
     s.ready (.lds (ops 2 9 5 1 0)) = true ∧ s.ready (.sts (ops 2 1 5 6 0)) = true ∧
     (∀ p ∈ s.offsets (ops 2 9 5 1 0) (s.active (.lds (ops 2 9 5 1 0))), p.2 % 4 = 0 ∧ 0 ≤ p.2 ∧
       p.2 + 4 ≤ s.scratchSize s.cur.block 1) ∧ s.acquiring 1 = false ∧ (s.launch (s.launchOf s.cur)).watches = []) := by decide +kernel
theorem witness_Atomics :
    (let s := five fun l => if l = 15 then 0x4FFFC else 0x40000 + 4 * l
     ∀ o ∈ [ops 0 9 5 6 0, ops 0 9 5 6 0xE0, ops 1 9 5 6 7], s.ready (.atom o) = true ∧ s.bad = [] ∧
       (∀ l ∈ s.active (.atom o), bits (s.rd 64 l 5) 63 56 = 0) ∧ s.releaseBusy 1 (atomScope o) = false ∧
       passes (s.genericCheck .atomic 4 ((s.active (.atom o)).map fun l => (l, s.rd 64 l 5))) = true) ∧
    (let s := five fun l => 0x40000 + 8 * l
     s.ready (.atom (ops 3 9 5 6 0x16)) = true ∧
     (match s.genericCheck .atomic 8 ((s.active (.atom (ops 3 9 5 6 0x16))).map fun l => (l, s.rd 64 l 5)) with
      | .ok pas => pas.length == 16 && pas.all fun p => leafSync p.2.2 | .error _ => false) = true) := by decide +kernel
theorem witness_Atomics_scratch :
    (let s := five fun l => 0xFE01000000000000 + 1020 - 4 * l
     s.ready (.atoms (ops 0 9 5 6 0xE0)) = true ∧ s.releaseBusy 1 (atomScope (ops 0 9 5 6 0xE0)) = false ∧
     (∀ l ∈ s.active (.atoms (ops 0 9 5 6 0xE0)), bits (s.rd 64 l 5) 63 56 = 0xFE) ∧
     passes (s.genericCheck .atomic 4 ((s.active (.atoms (ops 0 9 5 6 0xE0))).map fun l => (l, s.rd 64 l 5))) = true) ∧
    (bits 0x40000 46 39 = 0 ∧ inVaultCache 0x40000 0x1000000000040007 = false ∧ leafRepl 0x1000000000040007 = false ∧
      rich.bad = [] ∧ rich.mem.wf = true) := by decide +kernel

theorem witness_ReleaseThenAcquireIsSeen :
    frameOf 0x20000 ∉ rich.loose ∧ (rich.wave 2).block ≠ (rich.wave 1).block ∧ rich.gangOf (rich.wave 1) = rich.gangOf (rich.wave 1) ∧
    (let s := rich.onWave 2 fun w => { w with block := 1 }
     (s.wave 2).block = (s.wave 1).block ∧ s.gangOf (s.wave 2) = s.gangOf (s.wave 1)) := by decide
theorem witness_Fences :
    (∀ n ∈ [0, 3], rich.releaseBusy 1 n = false) ∧ rich.copies.any (fun p => p.2.wave == 1) = false ∧
    rich.access = [] ∧ rich.remotes = [] ∧
    (let s := { rich with access := [⟨1, 1, 0x20000, 0⟩] }
     s.releaseBusy 1 3 = true ∧ s.ready (.phase (ops 3 0 0 0 0)) = true ∧ s.ready (.fencei (ops 0 0 0 0 0)) = true) ∧
    (let s := { rich with access := [⟨1, 2, 255, 0⟩] }
     s.ready (.fopnd (ops 0 0 255 0 0)) = true ∧ s.ready (.fopnd (ops 0 0 0 0 1)) = true ∧
     (s.access.any fun a => a.wave == 1 && a.kind == 2 && (bit 0 0 || a.addr == 255)) = true ∧
     (s.access.any fun a => a.wave == 1 && a.kind == 2 && (bit 1 0 || a.addr == 0)) = true) ∧
    ([.pref (ops 0 0 5 0 8), .pref (ops 1 0 5 0 8), .cflush (ops 0 0 5 0 8), .cflush (ops 1 0 5 0 8), .phase (ops 0 0 0 0 0),
      .fopnd (ops 0 0 0 0 0), .fopnd (ops 0 0 0 0 1), .fencei (ops 0 0 0 0 0)] : List Instr).all rich.ready = true := by
  decide

/-! ### Barriers, epochs, schedules -/

/-- `rich` where barriers 0 and 1, of one and two arrivals, stand in another phase than the wave waits for. -/
def flipped : State := (rich.setBar 1 0 ⟨0, true⟩).setBar 1 1 ⟨0, true⟩
theorem witness_Barriers :
    (∀ j ∈ rich.seen.present, j ∈ rich.issuing) ∧
    ([.bara (ops 0 0 0 0 0), .barw (ops 0 0 0 0 0), .bars (ops 0 0 0 0 0)] : List Instr).all rich.ready = true ∧
    ((rich.past [.m]).bar 1 0).phase = rich.cur.phases.get false 0 ∧ flipped.ready (.barw (ops 0 0 0 0 0)) = true ∧
    flipped.ready (.bars (ops 0 0 1 0 0)) = true ∧
    ((flipped.past [.m]).bar 1 0).phase ≠ flipped.cur.phases.get false 0 ∧
    ((flipped.past [.m]).bar 1 1).phase ≠ flipped.cur.phases.get false 1 ∧
    ((flipped.arrive 1 1).bar 1 1).phase ≠ flipped.cur.phases.get false 1 ∧
    ((flipped.arrive 1 0).bar 1 0).phase = flipped.cur.phases.get false 0 := by decide
theorem witness_EpochsAndWholeWaves :
    (∀ j ∈ rich.seen.present, j ∈ rich.issuing) ∧ rich.ready (.csign (ops 0 0 0 0 0)) = true ∧
    rich.ready (.csign (ops 0 0 1 0 0)) = true ∧ 1 ∉ (rich.conv 1 0).signed ∧
    (rich.conv 1 0).count + 1 = (rich.kernelOf rich.cur).sizeOf 4 0 1 ∧
    (rich.conv 1 1).count + 1 ≠ (rich.kernelOf rich.cur).sizeOf 4 1 1 ∧
    (let s := rich.setConv 1 1 ⟨1, [1], none, []⟩
     s.ready (.csign (ops 0 0 1 0 0)) = true ∧ 1 ∈ (s.conv 1 1).signed) ∧
    (let s := { rich with iss := .of 1 (List.range 15) }
     ([.bara (ops 0 0 0 0 0), .barw (ops 0 0 0 0 0), .bars (ops 0 0 0 0 0), .csign (ops 0 0 0 0 0)] : List Instr).all
       s.ready = true ∧ ∃ l ∈ s.seen.present, l ∉ s.issuing) ∧
    (let s := { rich.onWave 1 fun w => { w with trapm := true, handler := [14, 15] } with iss := .of 1 [15] }
     s.ready (.rtt (ops 0 0 0 0 0)) = true ∧ s.cur.trapm = true ∧ ∃ l ∈ s.seen.present, l ∉ s.issuing) := by decide

/-- `rich` with a schedule of one dimension of four cells in tiles of two, one grant for each gang, its map at 0x20000 mapped by a table at
0x100000; the map's first word, words 13 and 15, and the gang's grants. -/
def scheduled (map done claimed : BitVec 64) (grants : Tab Grant) : State :=
  let s := rich.setLaunch 1 { rich.launch 1 with
    swp := true, shadow := List.replicate 16 0
    sched := [0x100000004, 0x100000001, 0x1000100010001, 0x100000002, 0x100000001, 0xE4, 1, 1, 1, 0x100, 1, 0x20000,
      0, done, 0, claimed] }
  let s := s.setGang 1 { s.gang 1 with grants := grants }
  { s with
    contexts := [(0, ⟨0x100000, 0, []⟩)]
    mem := [(0x100000, 0x101001), (0x101000, 0x102001), (0x102000, 0x103001), (0x103000, 0x104001), (0x104010, 0x1000000000020007),
      (0x20000, map.toNat)].foldl (fun m p => m.write p.1 (leBytes 8 p.2)) s.mem }
/-- The schedule of a launch of `scheduled`. -/
def schedOf (s : State) : List (BitVec 64) := (s.launch 1).sched
/-- The first cell of the traversal that is not claimed and not done. -/
def foundIn (s : State) : Option Nat :=
  findFrom (fun i => let v := s.cell (s.launch 1) (cellIndex (schedOf s) (visit (schedOf s) i)); v == 0 || v == 2)
    (schCells (schedOf s)) 0

theorem witness_SnextClaimsATile :
    (let s := scheduled 0 0 0 []
     s.ready (.snext (ops 0 9 0 0 1)) = true ∧ s.cur.priv = false ∧ s.cur.molting = false ∧ (s.gang (s.gangOf s.cur)).preempt ≠ .draining ∧
     schRank (schedOf s) = 1 ∧ foundIn s = some 0 ∧ s.cell (s.launch 1) 0 = 0 ∧
     (s.gang 1).grants.length < schLimit (schedOf s) ∧
     (match s.form (s.launch 1) (visit (schedOf s) 0) with | .ok e => e == [2, 1, 1, 1] | .error _ => false) = true) ∧
    (let s := scheduled 5 0 2 [(0, ⟨[0, 0, 0, 0], [2, 1, 1, 1], [], 1⟩)]
     foundIn s = some 2 ∧ s.cell (s.launch 1) 2 = 0 ∧ schLimit (schedOf s) ≤ (s.gang 1).grants.length ∧
     schWord (schedOf s) 15 = s.gangClaims 1) ∧
    (let s := scheduled 0xFF 4 0 []
     foundIn s = none ∧ schWord (schedOf s) 13 = schCells (schedOf s)) ∧
    (let s := scheduled 0xF5 2 2 [(0, ⟨[0, 0, 0, 0], [2, 1, 1, 1], [], 1⟩)]
     foundIn s = none ∧ schWord (schedOf s) 13 ≠ schCells (schedOf s) ∧ schWord (schedOf s) 15 = s.gangClaims 1) ∧
    (let s := scheduled 0xF5 2 2 []
     foundIn s = none ∧ schWord (schedOf s) 13 ≠ schCells (schedOf s) ∧ schWord (schedOf s) 15 ≠ s.gangClaims 1) := by
  decide +kernel
theorem witness_SettledCells :
    let s := (scheduled 5 0 2 [(0, ⟨[0, 0, 0, 0], [2, 1, 1, 1], [], 1⟩)]).onWave 1 fun w => { w with unif := [(7, 2)] }
    s.cur.priv = false ∧ s.cur.molting = false ∧ s.ready (.sdone (ops 0 0 5 0 1)) = true ∧
    settleTaken s (.sdone (ops 0 0 5 0 1)) (ops 0 0 5 0 1) ∧ settleCells s (.sdone (ops 0 0 5 0 1)) (ops 0 0 5 0 1) = [0, 1] ∧
    s.ready (.sgive (ops 0 0 5 0 1)) = true ∧ settleTaken s (.sgive (ops 0 0 5 0 1)) (ops 0 0 5 0 1) := by
  refine ⟨?_, ?_, ?_, ⟨?_, ?_, ?_, ?_, ?_, ?_, ?_, ?_⟩, ?_, ?_, ⟨?_, ?_, ?_, ?_, ?_, ?_, ?_, ?_⟩⟩ <;> decide +kernel
theorem witness_ScheduleRegisters :
    (let s := scheduled 0 0 0 []
     let s := s.setLaunch 1 { s.launch 1 with shadow := schedOf s }
     s.cur.molting = false ∧ (([3, 8] : List (BitVec 16)).all fun n => s.ready (.swr (ops 0 0 5 6 n))) = true ∧
     s.ready (.srd (ops 0 9 5 0 0x1F)) = true ∧ s.ready (.molt (ops 0 0 5 0 0)) = true ∧
     s.ru (s.active (.swr (ops 0 0 5 6 3))) 5 = 0 ∧ s.readUnif ((s.active (.molt (ops 0 0 5 0 0))).headD 0) 5 = 0 ∧
     s.cur.control = none ∧ s.launchOf s.cur = 1 ∧ (s.launch 1).swp = true ∧ s.cur.trapm = false ∧ s.iss.later = [] ∧
     (∀ l ∈ s.issuing, (s.cur.lane l).pc = s.iss.pc) ∧ s.moltRefused (s.launch 1) = false ∧ (schedOf s).length = 16 ∧
     schInstar (schedOf s) < 2 ^ 64 - 1) ∧
    (let s := (scheduled 0 0 0 []).onWave 1 fun w => w.setLane 15 { w.lane 15 with wait := .molt 0 0 }
     s.ready (.srd (ops 0 9 5 0 0x1F)) = true ∧ s.cur.molting = true) ∧
    rich.ready (.molt (ops 0 0 5 0 0)) = true ∧
    rich.schTarget (rich.readUnif ((rich.active (.molt (ops 0 0 5 0 0))).headD 0) 5).toNat true = none := by decide +kernel

/-! ### Engine commands -/

/-- `rich` with the resource entries 0 (a linear tile of four rows of four FP32) and 1 (the same, gathered), uniform name 4 an
address, 5 a control word that selects slot area 0, and buffer 0 the bytes that a command reads. -/
def entryWords (kind : Nat) : List (BitVec 64) := [BitVec.ofNat 64 (kind + 2 ^ 16), 0x400000004, 1, 16, 0, 0, 0, 0]
def engined (ctl : BitVec 64) (bytes : List Byte) : State :=
  let s := rich.setLaunch 1 { rich.launch 1 with kernel := { richKernel with res := [entryWords 1, entryWords 3] } }
  let s := s.onWave 1 fun w => { w with unif := [(4, 0x20000), (5, ctl), (6, 1)] }
  s.setBlock 1 { s.block 1 with scratch := [(0, { Scratch.fresh with bytes := bytes.zipIdx.map fun p => (p.2, p.1) })] }
def copying : CopyOps := ⟨eh 0, 1, 4, 9, 0, 0⟩

theorem witness_Commands_copy :
    let s := engined 0 []
    (copyTaken s (.cpy copying) 0 copying ∧ s.ready (.cpy copying) = true) ∧
    (copyTaken s (.cpyo copying) 2 copying ∧ s.ready (.cpyo copying) = true) ∧
    (copyTaken s (.cpyx { copying with rt := 1 }) 1 { copying with rt := 1 } ∧
      s.ready (.cpyx { copying with rt := 1 }) = true ∧ s.cur.priv = false) := by
  refine ⟨⟨⟨?_, ?_, ?_, ?_, ?_, ?_⟩, ?_⟩, ⟨⟨?_, ?_, ?_, ?_, ?_, ?_⟩, ?_⟩, ⟨⟨?_, ?_, ?_, ?_, ?_, ?_⟩, ?_, ?_⟩⟩ <;> decide
theorem witness_Commands_cancel :
    let s := (engined 0 []).setCopy 1 { CopyOp.absent with wave := 1, token := 9 }
    s.ready (.cpyc copying) = true ∧ (engined 0 []).ready (.cpyc copying) = true := by decide

/-- A parameter block of these words. -/
def par (ws : List Nat) : List Byte := (List.range 8).flatMap fun i => leBytes 8 (ws.getD i 0)
def palping : PalpOps := ⟨eh 0, 0, 4, 9, 1⟩
/-- NMSEL and NMTOPK of at most one of one FP32 element; NMSCORE of one vector of 16; NMASSIGN; NMATTN of one block. -/
def selPar : List Byte := par [0x100000001]
def scorePar : List Byte := par [0x1000000001, 0, 0, 0x8000000040] ++ leBytes 200 0
def assignPar : List Byte := par [0x1000000001]
def attnPar : List Byte := par [0x1000000001, 0, 0, 0x20000, 0, 0x8000000040] ++ leBytes 200 0
/-- A palp command is ready and taken at a state. -/
def palpReady (bs : List Byte) (kind : Nat) (i : Instr) : Prop :=
  (engined 0 bs).ready i = true ∧ (engined 0 bs).cur.priv = false ∧ palpTaken (engined 0 bs) i kind palping

theorem witness_Commands_palp :
    palpReady selPar 0 (.nmsel palping) ∧ palpReady selPar 1 (.nmtopk palping) ∧ palpReady scorePar 2 (.nmscore palping) ∧
    palpReady assignPar 3 (.nmassign palping) ∧ palpReady attnPar 4 (.nmattn palping) := by
  refine ⟨?_, ?_, ?_, ?_, ?_⟩ <;>
    refine ⟨?_, ?_, ?_, ?_, ?_, ?_, ?_, ?_, ?_, ?_, ?_, ?_, ?_, ?_, ?_, ?_⟩ <;> decide +kernel

/-- A state whose block is member 0 of a communicator of two. -/
def joined : State :=
  { (engined 0x2000 []).onWave 1 fun w => { w with unif := [(4, 7), (5, 0), (6, 4)] } with
    comms := [⟨7, 0, [(0, 0), (1, 0)], 0, 0, 1, 0, 0, 0⟩] }
def colling (op : BitVec 3) : CollOps := ⟨eh op, 1, 0, 4, 9⟩
theorem witness_Commands_coll :
    collTaken joined (colling 0) ⟨7, 0, [(0, 0), (1, 0)], 0, 0, 1, 0, 0, 0⟩ ∧ joined.ready (.coll (colling 0)) = true ∧
    joined.ready (.coll (colling 2)) = true := by
  refine ⟨⟨?_, ?_, ?_, ?_, ?_, ?_, ?_⟩, ?_, ?_⟩ <;> decide

/-- An MMA of two 16-row slots of FP16, and one whose B is streamed. -/
def multiplying (m : BitVec 3) : MmaOps := ⟨eh m, 0, 0, if m = 0 then 1 else 4, 0, 0, 1, 1, 0, 0, 0, 0⟩
/-- `engined` whose buffers 0 and 1 hold the two slots. -/
def slots : State :=
  let s := engined 0x40 []
  s.setLaunch 1 { s.launch 1 with kernel := { (s.launch 1).kernel with
    names := [named 2 0 4096, named 2 1 4096, named 3 0 1, named 4 0 1] } }
theorem witness_MatrixOperationsAreRecorded :
    (slots.ready (.mma (multiplying 0)) = true ∧ slots.cur.priv = false ∧ (∀ l ∈ slots.cur.present, l ∈ slots.issuing) ∧
      matrixTaken slots (.mma (multiplying 0)) false (multiplying 0)) ∧
    (slots.ready (.mmag (multiplying 1)) = true ∧ matrixTaken slots (.mmag (multiplying 1)) true (multiplying 1)) := by
  refine ⟨⟨?_, ?_, ?_, ⟨?_, ?_, ?_, ?_, ?_, ?_, ?_, ?_⟩⟩, ?_, ⟨?_, ?_, ?_, ?_, ?_, ?_, ?_, ?_⟩⟩ <;> decide

/-- An EPI of a 16 by 16 tile to FP32 in buffer 0, and one of its flags. -/
def reading (m : BitVec 3) : EpiOps := ⟨eh m, 0, 0, 7, 0, 0, 0, 0⟩
theorem witness_TilesEpilogueAndMerge :
    (rich.ready (.accz (ops 0 15 0 0 0)) = true ∧ rich.ready (.acctest (ops 0 9 0 0 0)) = true) ∧
    (slots.ready (.epi (reading 0)) = true ∧ epiTaken slots (.epi (reading 0)) (reading 0)) ∧
    (slots.ready (.epi (reading 1)) = true ∧ epiTaken slots (.epi (reading 1)) (reading 1)) ∧
    (let s := slots.onWave 1 fun w => { w with unif := [(8, 0x2000000)] }
     s.ready (.tmerge (ops 0 1 0 8 0)) = true ∧ mergeTaken s (ops 0 1 0 8 0)) := by
  refine ⟨⟨?_, ?_⟩, ⟨?_, ⟨?_, ?_, ?_, ?_⟩⟩, ⟨?_, ⟨?_, ?_, ?_, ?_⟩⟩, ?_, ⟨?_, ?_, ?_, ?_⟩⟩ <;> decide

/-! ### System -/

/-- `rich` with its wave on control core 0. -/
def governed : State :=
  ((rich.setCtl 0 { rich.ctl 0 with wave := 1 }).onWave 1 fun w => { w with control := some 0 })
theorem witness_ControlCoresAndServices :
    (([.snext (ops 0 9 0 0 1), .sdone (ops 0 0 5 0 1), .sgive (ops 0 0 5 0 1), .cpyx copying, .mma (multiplying 0),
       .mmag (multiplying 0), .nmsel palping, .nmtopk palping, .nmscore palping, .nmassign palping, .nmattn palping,
       .sysc (ops 0 9 5 0 0x3FF), .ckpt (ops 0 9 0 0 0), .halt (ops 0 0 0 0 0), .tlbiPage (ops 0 0 5 6 0),
       .tlbiCtx (ops 0 0 0 6 1), .tlbiAll (ops 0 0 0 0 2)] : List Instr).all governed.ready = true ∧
      governed.cur.priv = true ∧ governed.tlbiBusy [(0x20000, 65536)] governed.time = false ∧
      { governed with access := [⟨2, 1, 0x20010, 0⟩] }.tlbiBusy [(0x20000, 65536)] governed.time = true ∧
      governed.cur.control = some 0 ∧ (governed.ctl 0).event = 0) ∧
    (let s := governed.setCtl 0 { governed.ctl 0 with event := 4 }
     s.ready (.halt (ops 0 0 0 0 0)) = true ∧ s.cur.control = some 0 ∧ (s.ctl 0).event ≠ 0) ∧
    (([.sysc (ops 0 9 5 0 0), .ckpt (ops 0 9 0 0 0), .halt (ops 0 0 0 0 0), .tlbiPage (ops 0 0 5 6 0),
       .tlbiCtx (ops 0 0 0 6 1), .tlbiAll (ops 0 0 0 0 2)] : List Instr).all rich.ready = true ∧ rich.cur.priv = false ∧
      rich.cur.control = none) := by decide
theorem witness_ControlRegisters :
    ((([0, 1, 6, 17, 0xFF, 0x100, 0x3FF] : List (BitVec 16)).all fun r =>
       rich.ready (.crr (ops 0 9 r 0 0)) && rich.ready (.crr (ops 0 9 r 0 1)) && rich.ready (.crw (ops 0 r 5 0 0)) &&
       rich.ready (.crw (ops 0 r 5 0 1)) && governed.ready (.crr (ops 0 9 r 0 0)) && governed.ready (.crw (ops 0 r 5 0 1))) =
       true ∧ rich.cur.control = none ∧ governed.cur.control = some 0 ∧ rich.iss.raised = 0 ∧ rich.cur.priv = false ∧
      governed.cur.priv = true ∧ rich.flagged = []) ∧
    (let s := rich.onWave 1 fun w => { w with flights := [⟨false, 9, [(0, 0)], [0], 1, none, 0⟩] }
     s.ready (.crr (ops 0 8 6 0 0)) = true ∧ s.flagged ≠ []) ∧
    (([0, 1] : List Nat).all fun n =>
       let s := rich.onWave 1 fun w => w.onLanes (List.range 16) fun t => { t with wait := .flags 3 n }
       s.ready (.crr (ops 0 8 6 0 0)) && (s.issuing.findSome? fun l => match (s.cur.lane l).wait with
         | .flags v n => some (v, n)
         | _ => none) == some (3, n)) = true ∧
    (let s := rich.onWave 1 fun w => { w with unif := [(5, 16), (6, 112), (7, 48)] }
     (([5, 6, 7] : List (BitVec 16)).all fun n => let v := s.readUnif 0 n.toNat
        s.ready (.crw (ops 0 8 n 0 1)) && decide (16 ≤ bits v.toNat 6 0) && decide (bits v.toNat 6 0 ≤ 112) &&
          bits v.toNat 6 0 % 8 == 0) = true ∧
     s.ready (.crw (ops 0 5 5 0 1)) = true ∧ partOk s.cur.width (bits (s.readUnif 0 5).toNat 6 0) = true) := by decide
theorem witness_TrapsAndReturns :
    (rich.ready (.trap (ops 0 0 0 0 0x3FF)) = true ∧ rich.ready (.brk (ops 0 0 0 0 0)) = true ∧
      rich.ready (.rtt (ops 0 0 0 0 1)) = true ∧ rich.cur.trapm = false) ∧
    (let s := rich.setLaunch 1 { rich.launch 1 with kernel := { richKernel with trap := 0x10000 } }
     s.cur.control = none ∧ s.iss.trapped = false ∧ s.iss.stepped = [] ∧ s.cur.pend = none ∧
     s.deliverable 1 ⟨causeSoftware, 1, 0, s.issuing, s.iss.pc, false⟩ = true ∧ s.trapHalts 1 causeSoftware = false ∧
     causeSoftware ≠ causeStep ∧
     s.cur.flights = [] ∧ s.mem.wf = true) ∧
    (let s := rich.onWave 1 fun w => { w with trapm := true, handler := List.range 16 }
     s.ready (.rtt (ops 0 0 0 0 0)) = true ∧ s.ready (.rtt (ops 0 0 0 0 1)) = true ∧ s.cur.trapm = true ∧
     ∀ l ∈ s.seen.present, l ∈ s.issuing) := by decide

/-! ### Issue, arrivals, waits that end -/

theorem witness_InactiveAndUnready :
    (let i := Instr.viadd { ops 0 9 5 6 0 with guard := .pred false 0 }
     i.isEvent = false ∧ base.resumes = false ∧ badSlot i = false ∧ base.active i = [] ∧ base.iss.granted = true ∧ base.cur.single = false) ∧
    (let s := waved fun w => { w with flights := [⟨false, 5, [(15, 0)], [15], 0, none, 0⟩] }
     s.active (.viadd (ops 0 9 5 6 0)) ≠ [] ∧ s.pending (.viadd (ops 0 9 5 6 0)) (s.active (.viadd (ops 0 9 5 6 0))) = true) ∧
    (let s := { rich with access := [⟨1, 3, 0, 0⟩] }
     let i := Instr.lds (ops 2 9 5 0 0)
     s.active i ≠ [] ∧ s.pending i (s.active i) = false ∧ s.unitBusy (buffersOf i) = true) := by decide

-- Without an active lane: a transfer whose own slot field is 3, an XMOV whose slot is full, or empty.
theorem witness_Inactive_exceptions :
    let g := Guard.pred false 0
    let o := { ops 0 0 5 0 15 with guard := g }
    (base.resumes = false ∧ ([.bra false g 0 0 3, .call false g 0 3, .braWide { ops 0 3 0 0 0 with guard := g }] : List Instr).all
      (fun i => (base.active i).isEmpty && badSlot i && ((jumpTable base i).isSome || (callTable base i).isSome)) = true) ∧
    (base.active (.xmovR o) = [] ∧ (base.block base.cur.block).slots.has 15 = false) ∧
    (let s := base.setBlock 1 { base.block 1 with slots := [(15, ⟨32, [(0, 1)]⟩)] }
     s.active (.xmovS o) = [] ∧ s.resumes = false ∧ (s.block s.cur.block).slots.has 15 = true) := by decide

-- The cases of a step: a fetched packet, a page not mapped, one without X; a due event, none; without power a boot, none.
theorem witness_Step :
    (base.power.on = true ∧ base.iss.granted = true ∧
      (match base.tick.fetch 1 (base.tick.cur.lane 0).pc with | .ok _ _ => true | _ => false) = true) ∧
    (let s := { base with tlb := [], tlb1 := [] }
     (match s.tick.fetch 1 (s.tick.cur.lane 0).pc with | .fault => true | _ => false) = true) ∧
    (let s := { base with tlb := [⟨0, 0, 0x10000, 16, 0x10007⟩], tlb1 := [] }
     (match s.tick.fetch 1 (s.tick.cur.lane 0).pc with | .denied => true | _ => false) = true) ∧
    (let s := { idle with agenda := [(0, .heartbeat)] }
     s.power.on = true ∧ s.iss.granted = false ∧ s.agenda.length = 1 ∧ 0 ≤ s.time ∧ s.orders = [] ∧ s.overdue = none ∧
       ({ s.tick with agenda := [] } : State).orderLinks .heartbeat = none ∧
       ({ s.tick with agenda := [] } : State).orderLinks (.endLaunch 1) = some [0]) ∧
    (let s := { idle with orders := [.endLaunch 1] }
     s.orders = [.endLaunch 1] ∧ s.overdue = none) ∧
    (idle.agenda = [] ∧ idle.tick.auto = some (.issueGrant 0)) ∧ State.reset.tick.auto = none ∧
    (let s := { State.reset with power := { State.reset.power with on := false }, agenda := [(5, .boot [])] }
     s.power.on = false ∧ s.agenda.any (fun e => Machine.Instr.isBoot e.2) = true) := by decide
theorem witness_DeviceInv : DeviceInv base ∧ DeviceInv { State.reset with sched := 8 } :=
  ⟨⟨by decide, ⟨0, by decide, by decide⟩, .inl rfl, fun _ => ⟨rfl, rfl⟩⟩,
    ⟨by decide, ⟨0, by decide, by decide⟩, .inr rfl, fun _ => ⟨rfl, rfl⟩⟩⟩

theorem witness_Grant :
    (∃ c, idle.iss.granted = false ∧ Eligible (idle.beginCore 0) 0 1 c) ∧
    (let s := { (laned fun t => { t with passed := 64 }) with iss := .none }
     ∃ c : Cand, s.iss.granted = false ∧ s.beginCore 0 = s ∧ Eligible s 0 1 c ∧ 64 ≤ (s.wave 1).passedOf ((s.wave 1).setAt c.pc) ∧
       ∀ p ∈ s.waves, p.1 ≠ 1 → s.coreOf p.2 = 0 → s.before 1 p.1 = true) :=
  ⟨⟨⟨List.range 16, 0x10000, some .nop⟩, by decide, by decide, by decide, by decide, by decide⟩,
    ⟨⟨List.range 16, 0x10000, some .nop⟩, by decide, by decide, ⟨by decide, by decide, by decide, by decide⟩, by decide,
      by decide⟩⟩
theorem witness_ResultsArrive :
    (let f : Flight := ⟨false, 9, [(0, 1), (15, 2)], [0, 15], 1, none, 0⟩
     let s := waved fun w => { w with flights := [f] }
     (s.wave 1).flights[0]? = some f ∧ f.remote = none ∧ (f.vals.map Prod.fst).Nodup) ∧
    (let f : Flight := ⟨true, 9, [(0, 1)], [0], 0, none, 0⟩
     let s := waved fun w => { w with flights := [f] }
     (s.wave 1).flights[0]? = some f ∧ f.uniform = true ∧ f.remote = none) := by decide

/-- The idle state where every lane of the wave waits so. -/
def held (x : Wait) : State := { (laned fun t => { t with wait := x }) with iss := .none }
/-- A trap that waits. -/
def aTrap : Trap := ⟨causeSoftware, 1, 0, List.range 16, 0x10000, false⟩
/-- The idle state whose first packet and the next one hold an instruction of two words, at which lanes 0 to 7 and 8 to 15
are; uniform name 6 selects every lane. -/
def coded (i : Instr) : State :=
  let ws := encode i
  let p : Packet := ⟨ws.getD 0 0, ws.getD 1 0, 0, 0⟩
  let s := { waved fun w => { w.onLanes [8, 9, 10, 11, 12, 13, 14, 15] fun t => { t with pc := 0x10010 } with
    unif := [(6, 0xFFFF)] } with iss := .none }
  { s with mem := (s.mem.write 0x10000 (p.bytes)).write 0x10010 (p.bytes) }
theorem witness_WaitsWithoutAnEnd :
    (let s := { (waved fun w => { w with pend := some aTrap }) with iss := .none }
     (s.wave 1).pend = some aTrap ∧ s.deliverable 1 aTrap = true ∧ s.iss.granted = false) ∧
    (coded (.wred (ops 0 9 5 6 0))).deadlocked 1 = true ∧
    (let s := coded (.xmovR (ops 0 9 0 0 0))
     s.orphaned 1 = true ∧ (s.wavesOf 1).find? (fun k => !(s.wave k).retired) = some 1) ∧
    (held (.barrier 63)).barOrphan 1 63 = true := by decide
theorem witness_WaitsEnd :
    (let s := (held (.barrier 0)).setBar 1 0 ⟨0, true⟩
     s.iss.granted = false ∧ (s.wave 1).atBarrier = some 0 ∧
       (s.bar (s.wave 1).block 0).phase ≠ (s.wave 1).phases.get false 0 ∧ s.frozen 1 = false) ∧
    (let s := { ((scheduled 0 0 0 []).onWave 1 fun w => w.onLanes (List.range 16) fun t => { t with wait := .molt 0 0 }) with
        iss := .none }
     let ls := (s.wave 1).waiting Wait.isMolt
     ls ≠ [] ∧ ((s.wave 1).lane (ls.headD 0)).wait = .molt 0 0 ∧ (∀ x ∈ ls, x ∈ (s.wave 1).present) ∧
     (s.wave 1).pend = none ∧ ¬ schOk (s.launch (s.targetFor 1 0)).shadow = true) ∧
    (let r := scheduled 0 0 0 []
     let s := { ((r.setLaunch 1 { r.launch 1 with shadow := (r.launch 1).sched }).onWave 1
        fun w => w.onLanes (List.range 16) fun t => { t with wait := .molt 0 0 }) with iss := .none }
     let l := s.launch (s.targetFor 1 0)
     schOk l.shadow = true ∧ schGang l.shadow = schGang l.sched ∧ schInstar l.sched ≠ 2 ^ 32 - 1 ∧
       s.mapSynced l.ctx l.sched = true) ∧
    (let s := (held .sysc).onWave 1 fun w => { w with service := [⟨0x10000, List.range 16, 0, 5, 3⟩] }
     s.replyReady 1 = none ∧ (s.wave 1).service = [⟨0x10000, List.range 16, 0, 5, 3⟩] ∧ s.replies.has 3 = false ∧
       s.iss.granted = false ∧ ({ s with replies := [(3, 7)] } : State).replyReady 1 = some ⟨0x10000, List.range 16, 0, 5, 3⟩) ∧
    (let s := { (governed.onWave 1 fun w => w.onLanes [0] fun t => { t with wait := .halt }).setCtl 0
        { governed.ctl 0 with event := 16 } with iss := .none }
     (s.wave 1).control = some 0 ∧ (s.ctl 0).event ≠ 0 ∧ (s.wave 1).due (fun x => x == .halt) ≠ []) ∧
    ((base.wave 1).single = false ∧ ∀ l ∈ [0, 15], l ∈ (base.wave 1).live) := by decide +kernel
theorem witness_TranslationFaults :
    (let s := held (.parked [(0, 0x70008)] true)
     (0, 0x70008 / 2 ^ 16) ∈ s.faulting ∧ (0, 7) ∉ s.notices ∧ s.iss.granted = false ∧ s.ctxOf (s.wave 1) = 0 ∧
     s.tableWordOk (0x200000, 0x1000000000070007) = true ∧
     s.stacksKept (s.sysWrite 0x200000 (leBytes 8 0x1000000000070007)) = true) := by decide

/-! ### Placement, rebinds, the end of gangs -/

/-- `scheduled` with its gang not placed, and the smallest share of its kernel (log 30's kernel declares every tile). -/
def unplaced : State :=
  let s := { scheduled 0 0 0 [] with iss := .none, waves := [], blocks := [] }
  s.setGang 1 { s.gang 1 with placed := false, blocks := [] }
def share : ShareSpec := ⟨8, 16, 8, 3, 0, 3072, 0, 0, 0, 0⟩
theorem witness_PlacementStartsTheGang :
    unplaced.placeable 1 0 3 [share] 0x30000 = true ∧ (unplaced.gang 1).preempt ≠ .saved := by decide
theorem witness_SharesAndRebinds :
    ((idle.block 1).used = true ∧ (idle.block 1).ended = false ∧ (idle.gang 1).preempt = .none) ∧
    (let s := idle.setBlock 1 { idle.block 1 with rebind := [share] }
     (s.block 1).rebind = [share] ∧ (s.stopped 1).all s.atPoint = true ∧ s.shareRoom 1 share = true) ∧
    (let s := idle.setBlock 1 { idle.block 1 with rebind := [{ share with rows := 4097 }] }
     (s.stopped 1).all s.atPoint = true ∧ s.shareRoom 1 { share with rows := 4097 } = false) := by decide
theorem witness_BlocksAndGangsEnd :
    (let s := { (waved fun w => { w with retired := true }) with iss := .none }
     s.blockOver 1 = true ∧ s.wavesOf 1 = (s.block 1).waves ∧
     (let r := (s.block 1).waves.foldl (fun r k => r.release k 3) s
      let e := r.setBlock 1 { r.block 1 with ended := true }
      (e.gang (s.block 1).gang).blocks.all (fun b => (e.block b).ended) = true)) ∧
    (let s := { (waved fun w => { w with retired := true }) with iss := .none }
     let s := (s.setGang 1 { s.gang 1 with blocks := [1, 2] }).setBlock 2 { s.block 1 with index := 1, waves := [2] }
     s.blockOver 1 = true ∧ s.wavesOf 1 = (s.block 1).waves ∧
     (let r := (s.block 1).waves.foldl (fun r k => r.release k 3) s
      let e := r.setBlock 1 { r.block 1 with ended := true }
      (e.gang (s.block 1).gang).blocks.all (fun b => (e.block b).ended) = false)) ∧
    (let s := base.setGang 1 { base.gang 1 with retired := true }
     (s.gang 1).used = true ∧ (s.gang 1).retired = true ∧ (s.gang 1).placed = true) := by decide

/-! ### Engines, memory and links -/

theorem witness_AccessesAndLines :
    (([0, 1, 2, 3, 4] : List Nat).all fun n => ({ idle with access := [⟨1, n, 0x20000, 0⟩] } : State).access[0]? == some ⟨1, n, 0x20000, 0⟩) = true ∧
    (let s := { idle with vlines := [⟨0, 0, 5, [(127, 9)], [127], [], []⟩] }
     s.vlines.find? (fun x => x.cluster == 0 && x.line == 5) = some ⟨0, 0, 5, [(127, 9)], [127], [], []⟩ ∧ s.mem.wf = true) := by decide

/-- An idle `engined` with a copy in flight, of a tile at this address. -/
def copied (va : Nat) (f : CopyOp → CopyOp) : State :=
  { (engined 0 []).setCopy 1 (f (copyOf (engined 0 []) (.cpy copying) 0 copying)) with iss := .none }.setCopy 1
    (f { copyOf (engined 0 []) (.cpy copying) 0 copying with addr := va })
/-- How the movement of copy 1 ends. -/
def rowsEnd (s : State) : Option RowEnd := let c := s.copy 1; (s.copyRows c c.rows (c.total - c.rows)).2.2
theorem witness_CopiesMoveAndEnd :
    ((copied 0x20000 id).copies.has 1 = true ∧ ((copied 0x20000 id).copy 1).parked = none ∧
      ((copied 0x20000 id).copy 1).cancel = false ∧ ((copied 0x20000 id).copy 1).away = none) ∧
    (match rowsEnd (copied 0x20000 id) with | none => true | _ => false) = true ∧
    (match rowsEnd (copied 0x60000 id) with | some (.fault a) => a == 0x60000 | _ => false) = true ∧
    (match rowsEnd (copied 0x30000 id) with | some (.refused e a) => e == 2 && a == 0x30000 | _ => false) = true ∧
    ((copied 0x20000 fun c => { c with parked := some 0x20000 }).copy 1).parked = some 0x20000 ∧
    (copied 0x20000 id).resumesNow ((copied 0x20000 id).coreOf ((copied 0x20000 id).wave 1)) 1 false 0x20000 = true ∧
    (let s := copied 0x20000 fun c => { c with away := some (2, 0) }
     (s.copy 1).away = some (2, 0) ∧ s.time < 0 + 4500000) ∧
    (match (copied 0x20000 id).engineTouch 1 false 0x20000 with | .ok _ _ => true | _ => false) = true ∧
    (let cancelled (va : Nat) := copied va fun c => { c with cancel := true }
     ((cancelled 0x20000).copy 1).cancel = true ∧ ((cancelled 0x20000).copy 1).parked = none ∧
     ((List.range 5).all fun m => match ((cancelled 0x20000).copyRows ((cancelled 0x20000).copy 1) 0 m).2.2 with
       | none => true
       | _ => false) = true ∧
     ((List.range 4).all fun m => match (cancelled 0x60000).copyRows ((cancelled 0x60000).copy 1) 0 (m + 1) with
       | (_, d, some (.fault a)) => a == 0x60000 && d.cancel
       | _ => false) = true) ∧
    scratchFmt (entryWords 1) 0 = tdFmt (entryWords 1) := by decide +kernel

/-- A matrix operation posted, its two slots all ones, on a tile whose exponent is set; its one part. -/
def posted (p : MatPart) (m : BitVec 3) : State :=
  let s := { slots with iss := .none }
  let s := s.setBlock 1 { s.block 1 with tiles := [(0, { AccTile.zero with exp := some 0 })] }
  s.setMat 1 { matrixOf slots (.mma (multiplying m)) false (multiplying m) with
    posted := some 0, parts := [p], window := 48, g := if m = 0 then 0 else 0x60000, stride := 64 }
theorem witness_MatrixOperationsProceed :
    (let s := posted ⟨1, 0, none, false, false, false⟩ 0
     s.partReady 1 0 = true ∧ (s.mat 1).parts[0]? = some ⟨1, 0, none, false, false, false⟩ ∧ s.badNames = [] ∧
     ((s.block 1).tiles.get .zero 0).exp = some 0 ∧
     (s.mat 1).away = none ∧ (match s.matRead (s.mat 1) 1 [0] with | .ok _ => true | .error _ => false) = true) ∧
    (let s := posted ⟨1, 0, none, false, false, false⟩ 1
     s.partReady 1 0 = true ∧ (s.mat 1).away = none ∧ (match s.matRead (s.mat 1) 1 [0] with | .error (.fault va) => va == 0x60000 | _ => false) = true) ∧
    (let s := posted ⟨1, 0, some 0x20000, false, false, false⟩ 1
     (s.mat 1).parts[0]? = some ⟨1, 0, some 0x20000, false, false, false⟩ ∧
     s.resumesNow (s.block 1).core (s.mat 1).wave false 0x20000 = true ∧
     (match s.engineTouch (s.mat 1).wave false 0x20000 with | .fault _ => false | _ => true) = true) ∧
    (let s := posted ⟨1, 2, none, false, false, false⟩ 0
     s.mats.has 1 = true ∧ (s.mat 1).posted.isSome = true ∧ (s.mat 1).complete = false ∧
     mmaK (s.mat 1).ops / 16 ≤ 2) := by decide +kernel

/-- An idle `engined`, whose page at 0x80000 is near memory, with NMSEL in flight on the data at `va`. -/
def palped (ctl : BitVec 64) (va : Nat) (f : PalpOp → PalpOp) : State :=
  let s := engined ctl (par [0x100000001, 0, 0, 0, if bit ctl.toNat 62 then 0x80000 else 0])
  let s := { s with tlb := s.tlb ++ [(⟨0, 0, 0x80000, 16, 0x200000800000007⟩ : TlbEntry)], iss := .none }
  s.setPalp 1 (f { PalpOp.absent with
    wave := 1, block := 1, addr := va, ctl := ctl, par := par [0x100000001, 0, 0, 0, if bit ctl.toNat 62 then 0x80000 else 0]
    buf := 1, token := 9, order := 1 })
/-- How its work ends, once it has read what it can: 0 done, with results for its buffer; 1 and 2 a read that faults, or is
in error; 3 and 4 a table that faults, or is in error; 5 done, with places in memory for its results; 6 with none. -/
def ends (s : State) : Nat :=
  let r := s.palpReads 1 (s.palp 1)
  match r.1.palpBars r.2 with
  | .fault _ :: _ => 1
  | .err _ :: _ => 2
  | [] =>
    let u := if r.2.kind = 3 then r.1.nearTouched r.2.wave (word64 r.2.par 3) else r.1
    match (u.runPalp r.2).2 with
    | .error (.fault _) => 3
    | .error (.err _) => 4
    | .ok d => if bit r.2.ctl.toNat 62 then (match u.palpPlaces r.2 d.writes with | .ok _ => 5 | _ => 6) else 0
/-- NMASSIGN of a key block at 0x80000 to the cluster table at `ta`. -/
def assigning (ta : Nat) : State := palped 0 0x80000 fun p => { p with kind := 3, par := par [0x1000000001, 0, 0, ta] }
theorem witness_PalpCommandsEnd :
    (let s := palped 0 0x80000 id
     s.palps.has 1 = true ∧ (s.palp 1).parked = [] ∧ s.assignWaits (s.palp 1) = false ∧ (s.palp 1).tooFar = false ∧
     bit (s.palp 1).ctl.toNat 62 = false ∧ s.watching 1 = false ∧ ends s = 0) ∧
    ends (palped 0 0x60000 id) = 1 ∧ ends (palped 0 0x20000 id) = 2 ∧
    ((assigning 0x60000).palps.has 1 = true ∧ (assigning 0x60000).assignWaits ((assigning 0x60000).palp 1) = false ∧
      ends (assigning 0x60000) = 3 ∧ ends (assigning 0x80004) = 4) ∧
    (ends (palped 0x4000000000000000 0x80000 fun p => { p with kind := 1 }) = 5 ∧
      ends (palped 0x4000000000000000 0x80000 fun p => { p with
        kind := 1, par := par [0x100000001, 0, 0, 0, 0x20000] }) = 6) ∧
    (let s := palped 0 0x80000 fun p => { p with
      kind := 4, par := par [0x1000000001, 0, 0, 0x20000, 0, 0x8000000040] ++ leBytes 64 0 ++ leBytes 4 0x10000000 }
     (s.palp 1).parked = [] ∧ s.assignWaits (s.palp 1) = false ∧ (s.palp 1).tooFar = true) ∧
    ([(0x80000, 0), (0x20000, 2), (0x60000, 1)].all fun x =>
      let s := palped 0 x.1 fun p => { p with parked := [0x80000] }
      ((s.palp 1).parked.any fun va => s.palpFreed (s.palp 1) va && s.resumesNow (s.coreOf (s.wave 1)) 1 false va) &&
        ends s == x.2) = true := by
  decide +kernel

/-- An idle `joined` with member 0's ALLREDUCE in flight, its source captured, and what member 1 sent. -/
def collected (src : Option (List Byte)) (box : List CollMsg) : State :=
  { { joined with iss := .none }.setColl 1 { collOf joined (colling 0) ⟨7, 0, [(0, 0), (1, 0)], 0, 0, 1, 0, 0, 0⟩ with
      src := src, n := 1 } with collBox := box }
def theirs (n : Nat) : CollMsg := ⟨7, 1, 0, ⟨0, 0, 0, n, leBytes 4 0x3F800000⟩, []⟩
/-- Every other member's command is there; all are of this count. -/
def allThere (s : State) (n : Nat) : Bool :=
  match s.memberOf (s.collOp 1) with
  | some m => (s.matched (s.collOp 1) m.rank m.members.length).any fun ms => ms.all fun x => x.cmd.n == n
  | none => false
theorem witness_CollsCaptureAndEnd :
    ((collected none []).colls.has 1 = true ∧ ((collected none []).collOp 1).src = none ∧ (collected none []).badNames = []) ∧
    (let s := collected (some (leBytes 4 0x3F800000)) [theirs 1]
     allThere s 1 = true ∧ (s.collOp 1).n = 1 ∧ (s.collOp 1).dbuf ≠ (s.collOp 1).sbuf) ∧
    allThere (collected (some (leBytes 4 0x3F800000)) [theirs 2]) 2 = true ∧
    (let s := collected none []
     ((s.memberOf (s.collOp 1)).all fun m => s.matched (s.collOp 1) m.rank m.members.length == none) = true) ∧
    ((collected none []).glink 17).training = false ∧
    (collected none []).wave 1 ≠ Wave.absent := by decide +kernel
-- A token that is due.
theorem witness_tokens :
    let s := (copied 0x20000 id).onWave 1 fun w => { w with tokens := [⟨9, .copy, 1⟩, ⟨9, .palp, 1⟩, ⟨9, .coll, 1⟩] }
    tokenDue s 1 .copy 1 ∧ tokenDue s 1 .palp 1 ∧ tokenDue s 1 .coll 1 := by
  refine ⟨⟨?_, ?_⟩, ⟨?_, ?_⟩, ⟨?_, ?_⟩⟩ <;> decide

/-! ### Pre-emption -/

/-- The idle state with its gang so. -/
def ganged (f : Gang → Gang) : State := idle.setGang 1 (f (idle.gang 1))
/-- An image of its gang at 0x200000, of a header alone, as it stands in memory; and the gang saved, the context's root table
being lost (which leaves the image to be read). -/
def imageHead : List Byte := leBytes 8 7 ++ leBytes 120 0
def anImage : Image :=
  { addr := 0x200000, size := 128, header := sealed imageHead, kind := 0, seq := 1, base := 0, key := 1
    gang := unplaced.gang 1, blocks := [(1, rich.block 1)], waves := [(1, probeWave)], copies := [], mats := [], palps := []
    colls := [], marks := [] }
def savedGang (is : List Image) : State :=
  let s := { unplaced with
    images := is, mem := unplaced.mem.write 0x200000 (sealed imageHead), bad := [0x100000] }
  s.setGang 1 { s.gang 1 with preempt := .saved, seq := 1, base := 0x200000 }
theorem sealed_sealed : sealed (sealed imageHead) = sealed imageHead := by
  have hd : (imageDigest imageHead).length = 64 := by simp [imageDigest]
  have h : sealed imageHead = imageHead.take 64 ++ imageDigest imageHead := by
    simp [sealed, show imageHead.drop 128 = [] by decide]
  have h64 : (imageHead.take 64).length = 64 := by decide
  have ht : (sealed imageHead).take 64 = imageHead.take 64 := by
    rw [h]; exact List.take_left' h64
  have hr : (sealed imageHead).drop 128 = imageHead.drop 128 := by
    rw [List.drop_eq_nil_of_le (Nat.le_of_eq (by rw [h, List.length_append, h64, hd])), show imageHead.drop 128 = [] by decide]
  have he : imageDigest (sealed imageHead) = imageDigest imageHead := by simp only [imageDigest, ht, hr]
  conv => lhs; rw [sealed]
  rw [ht, hr, he, sealed]
theorem savedGang_intact : (savedGang [anImage]).intact anImage = true := by
  have hl : (sealed imageHead).length = 128 := by
    simp [sealed, imageDigest, show imageHead.drop 128 = [] by decide, show (imageHead.take 64).length = 64 by decide]
  have hm : (savedGang [anImage]).home anImage.addr anImage.size = sealed imageHead := by
    have h := Memory.read_write unplaced.mem (by decide +kernel) 0x200000 (sealed imageHead)
    rw [hl] at h
    have hmem : (savedGang [anImage]).mem = unplaced.mem.write 0x200000 (sealed imageHead) := by
      simp [savedGang, State.setGang]
    rw [State.home, hmem]
    exact h
  have hb (i : Nat) : ((savedGang [anImage]).bad.contains ((anImage.addr + i) / 8 * 8)) = false := by
    have : (0x200000 + i) / 8 * 8 ≠ 0x100000 := by omega
    simp [savedGang, State.setGang, anImage, this]
  have hr : (savedGang [anImage]).imageRead anImage = sealed imageHead := by
    simp [State.imageRead, hm, hb, -List.contains_eq_mem]
  rw [State.intact, hr, sealed_sealed]
  simp
theorem witness_Preemption :
    ((unplaced.gang 1).used = true ∧ (unplaced.gang 1).retired = false ∧ (unplaced.gang 1).placed = false) ∧
    ((idle.gang 1).placed = true ∧ (idle.gang 1).preempt = .none ∧ (idle.gang 1).retired = false ∧
      idle.requestWaits 1 = false) ∧
    (let s := ganged fun q => { q with placed := true, retired := true }
     (s.gang 1).used = true ∧ (s.gang 1).retired = true ∧ (s.gang 1).preempt = .none) ∧
    (idle.setBlock 1 { idle.block 1 with rebind := [share] }).requestWaits 1 = true ∧
    ([.draining, .saving, .discarding].all fun p => let q := (ganged fun q => { q with preempt := p }).gang 1
      q.placed && !q.retired && q.preempt != .none) = true ∧
    (let s := { idle with reports := [⟨1, 5, 2, 0, false⟩] }
     s.reports.find? (fun r => r.gang == 1) = some ⟨1, 5, 2, 0, false⟩) ∧
    (let s := ganged fun q => { q with preempt := .discarding }
     (s.gang 1).preempt = .discarding ∧ s.gangAtPoint 1 = true ∧ (s.gang 1).grants = []) ∧
    ((ganged fun q => { q with preempt := .draining, retired := true }).gang 1).retired = true ∧
    (let s := ganged fun q => { q with preempt := .draining }
     (s.gang 1).retired = false ∧ (s.gang 1).grants = [] ∧ s.drainQuiet 1 = false ∧ (s.gang 1).due ≤ s.time) ∧
    (let s := (held (.barrier 0)).setGang 1 { idle.gang 1 with preempt := .draining }
     (s.gang 1).retired = false ∧ (s.gang 1).grants = [] ∧ s.drainQuiet 1 = true) ∧
    (let s := ganged fun q => { q with preempt := .draining, grants := [(0, ⟨[0, 0, 0, 0], [1, 1, 1, 1], [], 1⟩)] }
     (s.gang 1).retired = false ∧ (s.gang 1).grants ≠ [] ∧ (s.gang 1).due ≤ s.time) := by decide
/-- An image of gang 1 fits at 0x200000. -/
def fits (s : State) (kind : Nat) : Bool := s.imageFits 0x200000 ((s.still 1).nextImage 1 kind).length
/-- The idle state whose wave has one lane, which waits at a CKPT, in a kernel without names. -/
def narrow : State :=
  let s := idle.onWave 1 fun w => { w with width := 1, part := 1, lanes := [(0, { probeLane with wait := .ckpt })] }
  s.setLaunch 1 { s.launch 1 with kernel := { probeKernel with decl := ⟨0, 0, 0, 0, 0, 0, 0⟩, depth := 0 } }
theorem witness_Images_fit :
    (let s := ganged fun q => { q with preempt := .saving, blocks := [] }
     (s.gang 1).preempt = .saving ∧ s.gangQuiet 1 = true ∧ fits s 0 = true) ∧
    (narrow.checkpointing 1 = true ∧ narrow.gangQuiet 1 = true ∧ narrow.iss.granted = false ∧ fits narrow 2 = true) := by
  decide +kernel
theorem witness_Images :
    ((ganged fun q => { q with preempt := .saving }).gangQuiet 1 = true ∧ (idle.gang 1).base = 0 ∧
      ((ganged fun q => { q with base := 0x100000 }).gang 1).base ≠ 0) ∧
    (let s := held .ckpt
     s.checkpointing 1 = true ∧ s.gangQuiet 1 = true ∧ s.iss.granted = false) ∧
    ((savedGang []).gang 1).preempt = .saved ∧ (savedGang []).chainOk 1 1 0x200000 = false ∧
    (let s := savedGang [anImage]
     (s.gang 1).preempt = .saved ∧ s.chainOk 1 2 0x200000 = true ∧ s.imageAt 1 0x200000 = some anImage ∧
     s.placeable 1 0 0 [share] anImage.sb = true ∧ s.engineRoom anImage 0 0 = true ∧
     (anImage.waves.map Prod.fst).Nodup) := by
  refine ⟨by decide, by decide, by decide, by decide, by decide, ?_, rfl, by decide, by decide, by decide⟩
  simp only [State.chainOk, show (savedGang [anImage]).imageAt 1 0x200000 = some anImage from rfl]
  rw [savedGang_intact]
  rfl

/-! ### Queues, packets, launches -/

/-- Queue 1 of process 3, over memory of its context 0, whose page of 1 GiB at 0, readable, writable and a SYNC page, holds
its tables at 0x100, a schedule at 0x20200 and the queue's entries at 0x20800; a code object's one descriptor stands at
0x20100. -/
def queued (entries : Memory) (f : Queue → Queue) : State :=
  { idle with
    contexts := [(0, ⟨0x100, 0, []⟩)]
    mem := [(0x100, 1), (0x101, 2), (0x200, 1), (0x201, 3), (0x300, 7), (0x301, 128), (0x307, 16), (0x20200, 4), (0x20204, 1),
      (0x20208, 1), (0x2020c, 1), (0x20210, 1), (0x20212, 1), (0x20214, 1), (0x20216, 1), (0x20218, 2), (0x2021c, 1),
      (0x20220, 1), (0x20224, 1), (0x20228, 228), (0x20230, 1), (0x20238, 1), (0x20240, 1), (0x20249, 1), (0x20250, 1),
      (0x20259, 16), (0x2025a, 2)] ++ entries
    objects := [⟨0, 3, 0x20000, 0x10000, 0x20100, 1, false⟩]
    queues := [(1, f { Queue.absent with
      used := true, state := 0, ctx := 0, pid := 3, base := 0x20800, vector := 7, sigring := 0x24000, desc := 0x25000, window := 5 })] }
/-- An entry: a LAUNCH of `n` gangs with its descriptor and schedule so; a WAIT, a SIGNAL or a MARKER with INT on the word at
0x26000. -/
def launchEntry (n desc sched : BitVec 8) : Memory :=
  [(0x20800, 1), (0x20804, n), (0x20809, desc), (0x2080a, 2), (0x20811, 1), (0x20812, 2), (0x20819, sched), (0x2081a, 2),
    (0x20821, 4), (0x20822, 2)]
def otherEntry (ty int : BitVec 8) : Memory := [(0x20800, ty), (0x20801, int), (0x20809, 96), (0x2080a, 2), (0x20810, 9)]
/-- Their words. -/
def launchWords : List Nat := [0x100000001, 0x20100, 0x20100, 0x20200, 0x20400, 0, 0, 0]
def waitWords : List Nat := [2, 0x26000, 9]
def signalWords : List Nat := [3, 0x26000, 9]
def markerWords : List Nat := [0x2004, 0x26000, 9]
/-- A packet of a queue. -/
def packet (ws : List Nat) (started : Bool) (l : Option Nat) : Packet64 := ⟨0x20800, ws.map (BitVec.ofNat 64), 0, started, false, l⟩
/-- An idle wave whose SYSC asks for a service. -/
def calling (s : State) (arg : BitVec 64) (n : Nat) : State := s.onWave 1 fun w => { w with service := [⟨0x10000, List.range 16, arg, n, 3⟩] }

theorem witness_Doorbells :
    (let s := queued (launchEntry 1 1 2) id
     s.queues.find? (fun p => p.2.used && p.2.state != 2 && p.2.window == 5) = some (1, s.queue 1) ∧
     (s.queue 1).ridx + 2 ^ (s.queue 1).log2n < 17 ∧ (s.queue 1).ridx ≤ 16 ∧ 16 ≤ (s.queue 1).ridx + 2 ^ (s.queue 1).log2n) ∧
    (let s := calling (queued (launchEntry 1 1 2) fun q => { q with pid := 0 }) 1 0
     s.openCall 1 = some ⟨0x10000, List.range 16, 1, 0, 3⟩ ∧ s.iss.granted = false ∧ (s.queue 1).used = true ∧
     (s.queue 1).state ≠ 2 ∧ (s.queue 1).pid = (s.launch (s.launchOf (s.wave 1))).pid) ∧
    (let s := calling (queued (launchEntry 1 1 2) id) 1 0
     (s.queue 1).pid ≠ (s.launch (s.launchOf (s.wave 1))).pid) := by decide
/-- What acceptance makes of an entry: 0 accepted, else a reason. -/
def checked (entry : Memory) : Option Nat :=
  let s := queued entry id
  let q := s.queue 1
  (s.ctxWords q.ctx (q.base + 64 * (q.ridx % 2 ^ q.log2n)) 8).map fun ws => (s.packetError q ws).getD 0
theorem witness_Acceptance_launch :
    checked (launchEntry 1 1 2) = some 0 ∧ checked (launchEntry 1 2 2) = some 3 := by decide +kernel
theorem witness_Acceptance :
    ([2, 3] : List (BitVec 8)).all (fun n => checked (otherEntry n 0) == some 0) = true ∧ checked (otherEntry 4 32) = some 0 ∧
    checked (otherEntry 0 0) = some 1 ∧ checked (otherEntry 5 0) = some 1 ∧ checked [(0x20800, 2), (0x2080b, 64)] = some 2 := by
  decide +kernel
theorem witness_PacketsStartAndComplete :
    (let s := queued [] fun q => { q with packets := [packet launchWords false (some 1)] }
     (s.queue 1).nextPacket = some (0, packet launchWords false (some 1)) ∧ (s.launch 1).ended = false) ∧
    ([waitWords, signalWords, markerWords] : List (List Nat)).all (fun ws =>
      let s := queued [] fun q => { q with packets := [packet ws false none] }
      (s.queue 1).nextPacket == some (0, packet ws false none)) = true ∧
    (let s := queued [] fun q => { q with packets := [packet waitWords true none] }
     (s.queue 1).waiting = some (0, packet waitWords true none) ∧ (s.queue 1).packets[0]? = some (packet waitWords true none)) ∧
    (let s := queued [] fun q => { q with packets := [packet markerWords false none] }
     (s.queue 1).packets[0]? = some (packet markerWords false none) ∧ pkInt (packet markerWords false none).words = true ∧
     (s.queue 1).vector < 2048 ∧ s.masks.get true 7 = true ∧ { s with masks := [(7, false)] }.masks.get true 7 = false) := by
  decide +kernel

/-- A launch whose gang has retired, with this schedule word 12 and status, and its packet. -/
def retiredLaunch (granted : BitVec 64) (status : Nat) : State :=
  let s := queued [] fun q => { q with packets := [packet launchWords true (some 1)] }
  let s := s.setGang 1 { s.gang 1 with placed := false, retired := true, blocks := [] }
  s.setLaunch 1 { s.launch 1 with
    queue := 1, guarded := true, status := status
    sched := [0x100000004, 0x100000001, 0x1000100010001, 0x100000002, 0x100000001, 0xE4, 1, 1, 1, 0x100, 1, 0x21000, granted] }
theorem witness_LaunchesEnd :
    ([(0, 0), (2, 0), (0, 4)] : List (BitVec 64 × Nat)).all (fun x => (retiredLaunch x.1 x.2).launchOver 1) = true ∧
    (let s := retiredLaunch 2 0
     (s.launch 1).status = 0 ∧ schWord (s.launch 1).sched 12 ≠ 0 ∧ 3 < schCells (s.launch 1).sched ∧ s.cell (s.launch 1) 3 ≠ 3 ∧
     (s.queue (s.launch 1).queue).packets[0]? = some (packet launchWords true (some 1)) ∧
     (s.queue (s.launch 1).queue).packets.length = 1) ∧
    ((idle.launch 1).used = true ∧ (idle.launch 1).ended = false ∧ (idle.launch 1).gangs = [1] ∧ (idle.gang 1).retired = false ∧
      (idle.gang 1).blocks = [1] ∧ idle.launchMolts (idle.launch 1) = false ∧
      (held (.molt 0 0)).launchMolts (idle.launch 1) = true) := by decide +kernel
theorem witness_LaunchesEnd_views (a : Nat) :
    let s := retiredLaunch 0 0
    s.pubSys.get 0 a ≤ s.stamp ∧ (s.launch 1).view.get 0 a ≤ s.stamp := ⟨Nat.zero_le _, Nat.zero_le _⟩

/-! ### Messages, timers, services -/

theorem witness_MessagesAndTimers :
    (let s := ganged fun g => { g with halted := true, record := [0x40, 0x80] }
     (s.launch 1).gangs.find? (fun g => !(s.gang g).record.isEmpty) = some 1) ∧
    (idle.gangOf (idle.wave 1) = 1 ∧ idle.iss.granted = false) ∧
    (let s := held .brk
     s.iss.granted = false ∧ (s.wave 1).single = false ∧ 1 ∈ s.gangWaves 1 ∧ (s.wave 1).trapm = false ∧
       15 ∈ (s.wave 1).live ∧ ((s.wave 1).lane 15).wait = .brk) ∧
    (let s := idle.setClink 31 { CmdLink.start with up := [.preemptReport [1]], down := [.raw []], upPermits := 15, downPermits := 15 }
     (s.clink 31).up = [.preemptReport [1]] ∧ (s.clink 31).down = [.raw []]) ∧
    (idle.sched = 0 ∧ (let s := { idle with time := 225000 }; s.beat + 225000 ≤ s.time)) ∧
    (let s := rich.setCtl 0 { CtlCore.start with wave := 1 }
     bits 0x20000 63 56 < 64 ∧ (s.clink (bits 0x20000 63 56)).downPermits ≠ 0 ∧ (s.messageBytes (s.ctl 0).wave 0x20000).isSome = true) := by decide +kernel
-- A timer at 0 that is armed.
theorem witness_timer :
    let s := idle.setCtl 15 { CtlCore.start with armed := true }
    (s.ctl 15).armed = true ∧ (s.ctl 15).timer.toNat ≤ s.coreTime (256 + 15) := ⟨by decide, Nat.zero_le _⟩
theorem witness_StorageAndLog :
    (let s := queued [] id
     (s.ctxWords (s.ctxOf (s.wave 1)) 0x20800 4).isSome = true ∧ s.ctxWords (s.ctxOf (s.wave 1)) 0x40000000 4 = none) ∧
    (let s := (queued [] id).setLaunch 1 { idle.launch 1 with ctx := physCtx }
     (s.ctxRead (s.ctxOf (s.wave 1)) 0x20800 256).isSome = true) ∧
    ∀ n ∈ [1, 2, 3], let s := calling (queued [] id) 0x20800 n; (s.openCall 1).any (fun c => c.num == n) = true ∧ s.iss.granted = false := by
  decide +kernel
/-- A request block's words at 0x20800, and as a request of process 0. -/
def asking (ws : List Nat) (s : State) : State :=
  { s with reqs := [(9, ⟨.host, 0x20800, 0, 0, ws.map (BitVec.ofNat 64), 0, 0⟩)] }
theorem witness_RequestsAreTaken :
    ([(1, false), (15, false), (16, true), (0, true)] : List (BitVec 8 × Bool)).all (fun x =>
      let s := calling (queued [(0x20800, x.1)] id) 0x20800 4
      !s.iss.granted && s.reqs.isEmpty && match s.ctxWords (s.ctxOf (s.wave 1)) 0x20800 8 with
        | some ws => requestBad false ws == x.2
        | none => false) = true ∧
    (let s := calling (queued [] id) 0x20801 4
     (s.openCall 1).isSome = true ∧ 0x20801 % 64 ≠ 0 ∧ s.ctxWords (s.ctxOf (s.wave 1)) 0x40000000 8 = none) ∧
    (let s := (queued [(0x20800, 15), (0x20838, 3)] id).setQueue 0 { Queue.absent with used := true, ctx := physCtx, base := 0x20800, widx := 1 }
     let q := s.queue 0
     s.iss.granted = false ∧ q.used = true ∧ q.ridx < q.widx ∧
     (match s.ctxWords physCtx (q.base + 64 * (q.ridx % 2 ^ q.log2n)) 8 with
      | some ws => requestBad true ws == false | none => false) = true) ∧
    (let s := (queued [(0x20800, 16)] id).setQueue 0 { Queue.absent with used := true, ctx := physCtx, base := 0x20800, widx := 1 }
     s.reqs = [] ∧ (match s.ctxWords physCtx 0x20800 8 with | some ws => requestBad true ws | none => false) = true) ∧
    (noneBad (asking [1] (queued [] id)) ∧ ((asking [1] (queued [] id)).req 9).src = .host ∧
      ({ queued [] id with masks := [(0, false)] } : State).masks.get true 0 = false) := by
  refine ⟨by decide +kernel, by decide +kernel, by decide +kernel, by decide +kernel, ?_, by decide, by decide⟩
  unfold noneBad
  decide

/-- Request 9 of kind `kind` can be served, and process 0 has context 0. -/
def servable (s : State) (kind : Nat) : Bool :=
  s.reqs.has 9 && bits (schWord (s.req 9).words 0) 15 0 == kind && !s.iss.granted && s.reqs.all (fun p => decide (9 ≤ p.1)) &&
    (s.contexts.find? fun p => p.2.pid == (s.req 9).pid).any fun p => p.1 == 0
theorem servable_meaning (s : State) (kind : Nat) (h : servable s kind = true) : served s 9 kind ∧ hasContext s (s.req 9) 0 := by
  simp only [servable, Bool.and_eq_true, beq_iff_eq, Bool.not_eq_true', List.all_eq_true, decide_eq_true_eq] at h
  obtain ⟨⟨⟨⟨h1, h2⟩, h3⟩, h4⟩, h5⟩ := h
  refine ⟨⟨h1, h2, h3, fun _ p hp _ => h4 p hp⟩, ?_⟩
  unfold hasContext State.contextFor
  cases hf : s.contexts.find? fun p => p.2.pid == (s.req 9).pid with
  | none => simp [hf] at h5
  | some p => obtain ⟨c, x⟩ := p; simp [hf] at h5; simp [h5]
theorem witness_QueueRequests :
    ([[1, 0x20000, 4, 0xFFFF, 0x20000, 1], [1, 0x21000, 9, 2047, 0x20040, 0]] : List (List Nat)).all (fun ws =>
      let s := asking ws (queued [] id)
      let r := s.req 9
      servable s 1 && r.arg 0 % 4096 == 0 && (r.arg 2 < 2048 || r.arg 2 == 0xFFFF) && r.arg 3 % 64 == 0 && r.arg 4 ≤ 1 &&
        s.owns 0 (r.arg 0) (64 * 2 ^ r.arg 1) && s.owns 0 (r.arg 3) 2048 && s.pageFree 0 0x50000000 &&
        !s.queues.any fun p => p.2.window == 8191) = true ∧
    (let s := asking [1, 0x20001, 4, 0, 0, 0] (queued [] id)
     servable s 1 = true ∧ (s.req 9).arg 0 % 4096 ≠ 0) ∧
    (let s := asking [1, 0x40000000, 4, 0, 0x20000, 0] (queued [] id)
     servable s 1 = true ∧ s.owns 0 ((s.req 9).arg 0) 1024 = false) ∧
    (let s := asking [2, 1] (queued [] fun q => { q with pid := 0 })
     servable s 2 = true ∧ s.ownsQueue 0 1 = true ∧ ∀ p ∈ (s.queue 1).packets, p.done = true) ∧
    (let s := asking [2, 1] (queued [] fun q => { q with pid := 0, packets := [packet waitWords true none] })
     servable s 2 = true ∧ s.ownsQueue 0 1 = true ∧ ∃ p ∈ (s.queue 1).packets, p.done = false) ∧
    (let s := asking [2, 1] (queued [] id)
     servable s 2 = true ∧ s.ownsQueue 0 1 = false) ∧
    (let s := asking [3, 1, 1] (queued [] fun q => { q with pid := 0, state := 1, widx := 1 })
     servable s 3 = true ∧ s.ownsQueue 0 1 = true ∧ (s.queue 1).state = 1 ∧ (s.req 9).arg 1 ≤ 1) ∧
    (let s := asking [3, 1, 1] (queued [] fun q => { q with pid := 0 })
     servable s 3 = true ∧ (s.queue 1).state ≠ 1) ∧
    servable (asking [3, 1, 2] (queued [] id)) 3 = true := by decide +kernel
-- Queues are no part of it.
theorem servable_queues (s : State) (qs : Tab Queue) (n : Nat) : servable { s with queues := qs } n = servable s n := rfl
-- However many windows there are, all may be taken.
theorem witness_QueueRequests_windows (n : Nat) : ∃ s : State, servable s 1 = true ∧ (s.req 9).arg 4 = 1 ∧
    ∀ i < n, ∃ p ∈ s.queues, p.2.used = true ∧ p.2.state ≠ 2 ∧ p.2.window = i + 1 :=
  ⟨{ asking [1, 0x20000, 4, 0xFFFF, 0x20000, 1] (queued [] id) with
      queues := (List.range (n + 1)).map fun i => (i, { Queue.absent with used := true, state := 0, window := i }) },
    (servable_queues ..).trans (by decide +kernel), rfl,
    fun i h => ⟨_, List.mem_map.mpr ⟨i + 1, List.mem_range.mpr (by omega), rfl⟩, rfl, Nat.zero_ne_add_one 1, rfl⟩⟩
theorem witness_CommunicatorRequests :
    (let s := asking [6, 0x40000000, 2] (queued [] id)
     servable s 6 = true ∧ s.askedList (s.req 9) = none ∧ ∀ p ∈ s.askers (s.req 9), s.time - p.2.since < 2250000000) ∧
    (let s := asking [6, 0x20800, 0] (queued [] id)
     servable s 6 = true ∧ s.askedList (s.req 9) = some [] ∧ s.ranksFor (s.req 9) [] = []) ∧
    (let s := { asking [6, 0x20800, 0] (queued [] id) with time := 2250000000 }
     servable s 6 = true ∧ ∃ p ∈ s.askers (s.req 9), 2250000000 ≤ s.time - p.2.since) ∧
    (let s := asking [7, 5] (queued [] id)
     servable s 7 = true ∧ s.comms = []) ∧
    (let s := { asking [7, 5] (queued [] id) with comms := [⟨5, 0, [], 0, 0, 1, 0, 0, 0⟩], colls := [(1, { CollOp.absent with handle := 5 })] }
     servable s 7 = true ∧ ∃ p ∈ s.colls, p.2.handle = 5) := by decide +kernel
-- A member of this device, whatever its number on the fabric is.
theorem device_number (d : BitVec 8) :
    bits (BitVec.ofNat 64 (ofLe [1#8, 0#8, 0#8, 0#8, 0#8, 0#8, 0#8, d])).toNat 63 56 = d.toNat ∧
    bits (BitVec.ofNat 64 (ofLe [1#8, 0#8, 0#8, 0#8, 0#8, 0#8, 0#8, d])).toNat 47 0 = 1 := by
  have := d.isLt
  simp only [ofLe, bits, BitVec.toNat_ofNat]
  constructor <;> omega
/-- A member: this device's launch 1. -/
def hereMember : BitVec 64 × BitVec 64 := (BitVec.ofNat 64 (ofLe [1#8, 0#8, 0#8, 0#8, 0#8, 0#8, 0#8, Config.device]), 0#64)
theorem speaks_here (s : State) (r : Request) (h1 : r.src = .host)
    (h3 : s.launches.any (fun p => p.2.used && !p.2.ended && p.2.pid == r.pid && p.2.id == 1) = true) :
    s.speaksFor r hereMember = true := by
  simp only [State.speaksFor, memberHere, h1, hereMember, (device_number _).1, (device_number _).2, h3, beq_self_eq_true,
    Bool.and_self]
theorem ranks_here (s : State) (r : Request) (h : s.speaksFor r hereMember = true) : s.ranksFor r [hereMember] = [0] := by
  simp [State.ranksFor, List.range_succ, h]
theorem ranksOf_here (s : State) (r : Request) (h : s.speaksFor r hereMember = true) :
    s.ranksOf [(9, r)] [hereMember] = [(0, r.pid)] := by
  simp [State.ranksOf, ranks_here s r h]
set_option maxRecDepth 20000 in
theorem witness_CommunicatorRequests_rank :
    let s := { asking [6, 0x20800, 1] (queued [(0x20800, 1), (0x20807, Config.device)] id) with contexts := [(physCtx, Context.absent)] }
    s.askedList (s.req 9) = some [hereMember] ∧ s.askers (s.req 9) = [(9, s.req 9)] ∧
    s.ranksFor (s.req 9) [hereMember] = [0] ∧ s.ranksOf [(9, s.req 9)] [hereMember] = [(0, 0)] ∧ s.comms = [] :=
  ⟨rfl, rfl, ranks_here _ _ (speaks_here _ _ rfl (by decide +kernel)), ranksOf_here _ _ (speaks_here _ _ rfl (by decide +kernel)),
    rfl⟩
theorem witness_CommunicatorRequests_destroy :
    let s := { asking [7, 5] (queued [] id) with comms := [⟨5, 0, [hereMember], 0, 0, 1, 0, 0, 0⟩] }
    servable s 7 = true ∧ (∀ c ∈ s.comms, s.speaksOf (s.req 9) c = true) ∧ s.colls = [] := by
  refine ⟨by decide +kernel, ?_, rfl⟩
  intro c hc
  obtain rfl : c = ⟨5, 0, [hereMember], 0, 0, 1, 0, 0, 0⟩ := by simpa using hc
  exact speaks_here _ _ rfl (by decide +kernel)


/-! ### Debuggers -/

/-- The queued state whose process asks, about its launch, whose gang is halted where `halted`, and its wave where `stopped`. -/
def debugging (ws : List Nat) (halted stopped : Bool) : State :=
  let s := asking ws ((queued [] id).onWave 1 fun w => { w with stopped := stopped })
  s.setGang 1 { s.gang 1 with halted := halted }
theorem witness_DebuggersAndViews :
    ([8, 9, 11, 12, 13, 14] : List Nat).all (fun k =>
      let s := debugging [k, 2] false false
      servable s k && (s.debugged (s.req 9)).isNone) = true ∧
    ([[8, 1, 0, 0x20008, 8, 1], [8, 1, 3, 0x40000000, 0x40000000, 3]] : List (List Nat)).all (fun ws =>
      let s := debugging ws false false
      servable s 8 && s.debugged (s.req 9) == some 1 && ((s.req 9).arg 3 == 2 ^ (3 + 0) || (s.req 9).arg 3 == 2 ^ (3 + 27)) &&
        (s.req 9).arg 2 % (s.req 9).arg 3 == 0) = true ∧
    (let s := debugging [8, 1, 4, 0, 8, 1] false false
     servable s 8 = true ∧ s.debugged (s.req 9) = some 1 ∧ 3 < (s.req 9).arg 1) ∧
    (let s := debugging [9, 1, 3] false false
     servable s 9 = true ∧ s.debugged (s.req 9) = some 1 ∧ (s.req 9).arg 1 ≤ 3) ∧
    -- Which processes hold the debug privilege is left open (log 81).
    (let s := debugging [10, 1] false false
     servable s 10 = true ∧ s.launchById ((s.req 9).arg 0) = some 1 ∧ (s.launch 1).dbg = false ∧
     ((s.setLaunch 1 { s.launch 1 with dbg := true }).launch 1).dbg = true) ∧
    (let s := debugging [11, 1, 0, 0xFFFFFFFFFFFFFFFF] true false
     servable s 11 = true ∧ s.debugged (s.req 9) = some 1 ∧ s.gangByIndex 1 ((s.req 9).arg 1) = some 1 ∧
     (s.req 9).arg 2 = 2 ^ 64 - 1 ∧ (s.gang 1).halted = true) ∧
    (let s := debugging [11, 1] false true
     servable s 11 = true ∧ s.debugged (s.req 9) = some 1 ∧ s.gangByIndex 1 ((s.req 9).arg 1) = some 1 ∧
     (s.req 9).arg 2 ≠ 2 ^ 64 - 1 ∧ s.waveByArg 1 ((s.req 9).arg 2) = some 1 ∧ (s.wave 1).stopped = true) ∧
    (let s := debugging [12, 1, 0, 0, 1] false true
     servable s 12 = true ∧ s.debugged (s.req 9) = some 1 ∧ s.gangByIndex 1 ((s.req 9).arg 1) = some 1 ∧
     (s.req 9).arg 2 ≠ 2 ^ 64 - 1 ∧ s.waveByArg 1 ((s.req 9).arg 2) = some 1 ∧ s.waveHalted 1 = true ∧ (s.req 9).arg 3 ≤ 1 ∧
     (s.req 9).src = .host) ∧
    (let s := debugging [15, 1] false false
     servable s 15 = true ∧ s.launchById ((s.req 9).arg 0) = some 1 ∧ (s.launch 1).pid = (s.req 9).pid) ∧
    (let s := debugging [15, 1] false false
     let s := s.setLaunch 1 { s.launch 1 with pid := 3 }
     servable s 15 = true ∧ s.launchById ((s.req 9).arg 0) = some 1 ∧ (s.launch 1).pid ≠ (s.req 9).pid) := by decide +kernel
/-- `debugging` with physical addresses as the process's own. -/
def physically (s : State) : State := { s with contexts := [(physCtx, Context.absent)] }
theorem witness_Views :
    (let s := debugging [13, 1, 0, 0, 0x20000, 64] true false
     servable s 13 = true ∧ s.viewed (s.req 9) ((s.req 9).arg 2) = some 1) ∧
    ([0x1000, 0xFFF1000, 0, 0x3FF0000, 0x2000] : List Nat).all (fun a =>
      let s := physically (debugging [14, 1, 0, a, 0x8001, 0x20000] true false)
      s.reqs.has 9 && bits (schWord (s.req 9).words 0) 15 0 == 14 && !s.iss.granted && (s.req 9).src == .host &&
        s.viewed (s.req 9) (bits ((s.req 9).arg 2) 9 8) == some 1 && (s.ctxWords physCtx ((s.req 9).arg 4) 64).isSome &&
        (s.block 1).waves == [1] && (bits a 15 12 == 2 ||
          decide (bits a 31 16 < if bits a 15 12 == 1 then (s.launch 1).kernel.decl.unif else (s.launch 1).kernel.decl.lane))) = true ∧
    hasContext (physically (debugging [14] true false)) ((physically (debugging [14] true false)).req 9) physCtx := by
  refine ⟨by decide +kernel, by decide +kernel, rfl⟩
theorem witness_EngineHits :
    let h : EngineHit := ⟨.copy 1, 3, 0x20000, 1, 0x10000, [0], false⟩
    let s := { copied 0x20000 id with hits := [h] }
    s.hits.find? (fun x => Instr.engineWatchpointHit x.engine x.slot x.addr == .engineWatchpointHit (.copy 1) 3 0x20000) =
      some h := by decide

/-! ### Code objects -/

/-- An object of one kernel and 16 bytes of code at 0x30000, with its header's words 0 to 3 so, and its relocation. -/
def objectCells : Memory :=
  [(0x30000, 1), (0x30002, 1), (0x30004, 79), (0x30005, 67), (0x30006, 77), (0x30007, 76), (0x3000b, 64),
    (0x30012, 1), (0x30014, 16), (0x30020, 128), (0x30021, 1), (0x30028, 144), (0x30029, 1), (0x30030, 128),
    (0x30038, 144), (0x30039, 1), (0x30080, 1), (0x30082, 1), (0x30083, 16), (0x30084, 67), (0x30085, 83), (0x30086, 68),
    (0x30087, 75)]
/-- The same with one relocation, of type 2, to 0xFFFFFFFF bytes past its base. -/
def relocatedCells : Memory :=
  [(0x30000, 1), (0x30002, 1), (0x30004, 79), (0x30005, 67), (0x30006, 77), (0x30007, 76), (0x3000b, 64),
    (0x30012, 1), (0x30014, 16), (0x30018, 1), (0x30020, 128), (0x30021, 1), (0x30028, 144), (0x30029, 1), (0x30030,
    128), (0x30038, 144), (0x30039, 1), (0x30080, 1), (0x30082, 1), (0x30083, 16), (0x30084, 67), (0x30085, 83), (0x30086, 68),
    (0x30087, 75), (0x30197, 2), (0x30198, 255), (0x30199, 255), (0x3019a, 255), (0x3019b, 255)]
/-- Request 9 asks to load it, its result at 0x20000. -/
def loading (cells : Memory) (used : List (Nat × Nat)) : State :=
  { asking [4, 0x30000, 0x20000] (queued cells id) with contexts := [(0, ⟨0x100, 0, used⟩)] }
/-- A plan: tables at 0x400 and 0x600, a page at 0x40000000, readable and executable, and one at 0x40020000, readable, for
the descriptors. -/
def aPlan : LoadPlan :=
  ⟨0x40020000, [(0x308, 0x401), (0x400, 0x601), (0x600, 0x10000004000000B), (0x610, 0x100000040020003)]⟩
theorem witness_ObjectsLoad :
    let s := loading objectCells []
    servable s 4 = true ∧ s.owns 0 0x30000 128 = true ∧ s.owns 0 0x20000 32 = true ∧
    (match s.readObject 0 0x30000 with
     | some o => s.baseFor 0 o == some 0x40000000 && (o.overflow 0x40000000).isNone && o.kernels.length == 1 &&
         (let t := aPlan.tables.foldl (fun u p => u.sysWrite p.1 (leBytes 8 p.2.toNat)) s
          t.planOk 0 0x40000000 o aPlan.kdesc.toNat && s.planFree t 0 0x40000000 o aPlan)
     | none => false) = true := by decide +kernel
theorem witness_ObjectsLoad_stops :
    (let s := loading relocatedCells []
     servable s 4 = true ∧ s.owns 0 0x30000 128 = true ∧ s.owns 0 0x20000 32 = true ∧
     (match s.readObject 0 0x30000 with
      | some o => s.baseFor 0 o == some 0x40000000 && o.overflow 0x40000000 == some (0, 0x13FFFFFFF)
      | none => false) = true) ∧
    (let s := loading [] []
     servable s 4 = true ∧ s.owns 0 0x30000 128 = true ∧ s.readObject 0 0x30000 = none) ∧
    (let s := asking [4, 0x40000000, 0x20000] (queued [] id)
     servable s 4 = true ∧ s.owns 0 0x40000000 128 = false) := by decide +kernel
-- No base is free where the process's whole space is in use.
theorem findFrom_none (p : Nat → Bool) (h : ∀ i, p i = false) : ∀ n i, findFrom p n i = none
  | 0, _ => rfl
  | n + 1, i => by simp [findFrom, h, findFrom_none p h n]
theorem rangeFree_full (s : State) (ctx n b : Nat) (hn : 0 < n) (h : (s.context ctx).used = [(0, 2 ^ 56)]) :
    s.rangeFree ctx b n = false := by
  unfold State.rangeFree
  by_cases hb : b + n ≤ 2 ^ 56
  · have : ((s.context ctx).used.any fun u => decide (u.1 < b + n) && decide (b < u.1 + u.2)) = true := by
      rw [h]
      simp only [List.any_cons, List.any_nil, Bool.or_false, Bool.and_eq_true, decide_eq_true_eq]
      omega
    rw [this]
    simp only [Bool.not_true, Bool.and_false, Bool.false_and]
  · rw [decide_eq_false hb]
    simp only [Bool.and_false, Bool.false_and]
theorem witness_ObjectsLoad_room :
    let s := loading objectCells [(0, 2 ^ 56)]
    servable s 4 = true ∧ s.owns 0 0x30000 128 = true ∧ s.owns 0 0x20000 32 = true ∧
    (s.readObject 0 0x30000).isSome = true ∧ ∀ o, 0 < o.span → s.baseFor 0 o = none := by
  refine ⟨by decide +kernel, by decide +kernel, by decide +kernel, by decide +kernel, fun o h => ?_⟩
  have := fun b => rangeFree_full (loading objectCells [(0, 2 ^ 56)]) 0 o.span b h rfl
  unfold State.baseFor
  rw [if_neg (by rw [this]; exact Bool.false_ne_true)]
  have all : (fun i => (loading objectCells [(0, 2 ^ 56)]).rangeFree 0 (i * 2 ^ 16) o.span) = fun _ => false :=
    funext fun i => this _
  rw [all, findFrom_none _ fun _ => rfl]
  rfl
theorem witness_ObjectsUnload :
    let s (kdesc : Nat) : State := { asking [5, 0x50000] (queued [] id) with objects := [⟨0, 0, 0x50000, 0x10000, kdesc, 1, false⟩] }
    let o (kdesc : Nat) : CodeObj := ⟨0, 0, 0x50000, 0x10000, kdesc, 1, false⟩
    servable (s 0) 5 = true ∧ servable (asking [5, 0x50000] (queued [] id)) 5 = true ∧
    ((s 0).objects.find? fun o => o.pid == 0 && o.base == 0x50000) = some (o 0) ∧ (s 0).objectBusy (o 0) = true ∧
    (s 0x60000).objectBusy (o 0x60000) = false ∧
    ((queued [] id).objects.find? fun o => o.pid == 0 && o.base == 0x50000) = none := by decide +kernel


/-! ### The host, links, boot, power -/

theorem witness_HostLinksAndDevices :
    (let s := { queued [] id with contexts := [(barCtx, ⟨0x100, 0, []⟩)] }
     s.barPa 0x20007 = some (0x20007, 0x1000000000008007) ∧ copiesFor 0x1000000000008007 0x20007 = [0x20007] ∧ s.mem.wf = true ∧
       (pieces 0x40000000 [1, 2]).all fun p => (s.barPa p.1).isNone) ∧
    (idle.mem.wf = true ∧ ({ idle with vectors := [2047] } : State).vectors = [2047] ∧ 0 ∉ [2047]) ∧
    ((idle.glink 17).training = false ∧ (idle.glink 17).backlog = [] ∧ idle.mem.wf = true) ∧
    (let f : Flight := ⟨false, 9, [(15, 0x80)], [15], 0, some 4, 4⟩
     let s := { (idle.onWave 1 fun w => { w with flights := [f] }) with remotes := [(4, ⟨1, 15, 9, 17, 1, 0x50000, 1, false, .load, false, none, 0⟩)] }
     s.remotes.find? (fun p => p.1 == 4) = some (4, ⟨1, 15, 9, 17, 1, 0x50000, 1, false, .load, false, none, 0⟩) ∧
     (s.wave 1).flights.find? (fun f => f.remote == some 4) = some f ∧ f.uniform = false ∧
     f.vals = [(15, BitVec.ofNat 64 0x80)] ∧ s.linkUp (s.backLink 4 ⟨1, 15, 9, 17, 1, 0x50000, 1, false, .load, false, none, 0⟩) = true ∧
     ((s.wave 1).lane 15).exited = false ∧ (s.wave 1).retired = false) ∧
    (let fs := [254, 255, 0].map fun n => BitVec.ofNat 256 (n * 2 ^ 232)
     (fs == fs.take 1 ++ fs.getD 1 0 :: fs.drop 2 && (fs.take 1).all fun x => flitSeq x != flitSeq (fs.getD 1 0)) = true) ∧
    (let s := idle.setGlink 17 { GLink.start with replays := 16, training := true, expect := 1 }
     16 ≤ (s.glink 17).replays ∧ (s.glink 17).training = true ∧ (idle.glink 17).replays < 16) ∧
    (flitOk 0 = true ∧ bits (0 : BitVec 256).toNat 231 230 ≠ 3 ∧ flitSeq 0 ≠ 1) ∧
    (flitOk 1 = false ∧ bits (1 : BitVec 256).toNat 231 230 ≠ 3) := by decide +kernel
theorem witness_Boot_refused :
    let s := State.reset
    (({ s.boot with booted := true } : BootState).booted = true ∧ s.mem.wf = true) ∧
    s.boot.booted = false ∧ s.boot.accepts [] = false ∧ s.boot.clear = false ∧ s.boot.owner = none ∧
    ({ s.boot with clear := true } : BootState).accepts [] = false := by decide
-- Field `f` of `a ++ f ++ b`.
theorem imgField_append (a f b : List (BitVec 8)) : imgField (a ++ (f ++ b)) a.length f.length = f := by simp [imgField]
-- An image of no program, with version 9 at address 0x10000, that enrolls the owner key `e`, is accepted where its two
-- signatures verify; SHAKE256 and Ed448 are left open (log 11).
theorem witness_Boot_accepted (e d sig1 sig2 : List (BitVec 8)) (he : e.length = 57) (hz : ∃ x ∈ e, x ≠ 0)
    (hd : d.length = 64) (h1 : sig1.length = 114) (h2 : sig2.length = 114) :
    let f := leBytes 4 0x4C4D5048 ++ leBytes 4 1 ++ leBytes 8 9 ++ leBytes 8 0 ++ leBytes 8 0x10000
    Config.shake256 [] = d → Config.ed448Verify Config.makerKey (f ++ d ++ e) sig1 = true →
    Config.ed448Verify e (f ++ d ++ e) sig2 = true →
    State.reset.boot.accepts (f ++ (d ++ (sig1 ++ (sig2 ++ (e ++ List.replicate 131 0#8))))) = true := by
  intro f a1 a2 a3
  have hf : f.length = 32 := rfl
  generalize hg : f = g at *
  have hw : ∀ off n, off + n ≤ 32 → ∀ t, imgField (g ++ t) off n = imgField g off n := by
    intro off n h t
    simp only [imgField, List.drop_append, List.take_append, List.length_drop, hf]
    have : n - (32 - off) = 0 := by omega
    simp [this]
  have hm : ∀ off n, off + n ≤ 32 → ∀ t, imgWord (g ++ t) off n = imgWord g off n := fun off n h t => by
    simp only [imgWord, hw off n h]
  have w0 : imgWord g 0 4 = 0x4C4D5048 := by rw [← hg]; decide
  have w1 : imgWord g 4 4 = 1 := by rw [← hg]; decide
  have w2 : imgWord g 16 8 = 0 := by rw [← hg]; decide
  have w3 : imgWord g 8 8 = 9 := by rw [← hg]; decide
  have x0 := hm 0 4 (by omega); have x1 := hm 4 4 (by omega); have x2 := hm 16 8 (by omega); have x3 := hm 8 8 (by omega)
  have at_ : ∀ (a v t : List (BitVec 8)) (o n : Nat), a.length = o → v.length = n → imgField (a ++ (v ++ t)) o n = v := by
    rintro a v t _ _ rfl rfl; exact imgField_append a v t
  have len : (g ++ (d ++ (sig1 ++ (sig2 ++ (e ++ List.replicate 131 0#8))))).length = 512 := by
    simp [hf, hd, h1, h2, he]
  have f0 := at_ [] (g ++ d) (sig1 ++ (sig2 ++ (e ++ List.replicate 131 0#8))) 0 96 rfl (by simp [hf, hd])
  have f1 := at_ g d (sig1 ++ (sig2 ++ (e ++ List.replicate 131 0#8))) 32 64 hf hd
  have f2 := at_ (g ++ d) sig1 (sig2 ++ (e ++ List.replicate 131 0#8)) 96 114 (by simp [hf, hd]) h1
  have f3 := at_ (g ++ d ++ sig1) sig2 (e ++ List.replicate 131 0#8) 210 114 (by simp [hf, hd, h1]) h2
  have f4 := at_ (g ++ d ++ sig1 ++ sig2) e (List.replicate 131 0#8) 324 57 (by simp [hf, hd, h1, h2]) he
  have f5 := at_ (g ++ d ++ sig1 ++ sig2 ++ e) (List.replicate 131 0#8) [] 381 131 (by simp [hf, hd, h1, h2, he]) (by simp)
  simp only [List.append_assoc, List.nil_append, List.append_nil] at f0 f1 f2 f3 f4 f5 a2 a3
  have hdrop := List.drop_eq_nil_of_le (Nat.le_of_eq len)
  obtain ⟨x, hx, hx0⟩ := hz
  have hall : (e.all fun x => x == 0#8) = false := by
    simp only [List.all_eq_false]; exact ⟨x, hx, by simpa using hx0⟩
  have hs : imgSigned (g ++ (d ++ (sig1 ++ (sig2 ++ (e ++ List.replicate 131 0#8))))) = g ++ (d ++ e) := by
    simp only [imgSigned, f0, f4, List.append_assoc]
  have hk : State.reset.boot.ownerKey (g ++ (d ++ (sig1 ++ (sig2 ++ (e ++ List.replicate 131 0#8))))) = some e := by
    simp only [BootState.ownerKey, State.reset, f4, hall]; rfl
  simp only [BootState.accepts, x0, x1, x2, x3, w0, w1, w2, w3, len, f1, f2, f3, f5, hs, hk, hdrop, a1, a2, a3]
  rw [beq_self_eq_true d]; decide
theorem witness_Ownership (k : List Byte) :
    let s := { State.reset with boot := { State.reset.boot with owner := some k } }
    s.boot.owner = some k ∧ s.boot.booted = false ∧ ([] : List Byte) ≠ s.boot.nonce :=
  ⟨rfl, rfl, by intro h; simp [BootState.nonce, leBytes] at h⟩
theorem witness_PowerSensorsAndErrors :
    (idle.power.throttle = List.range 0 ∧ ({ idle.power with throttle := [0, 1] } : Power).throttle = List.range 2 ∧
      ({ idle.power with throttle := [0, 1, 2] } : Power).throttle = List.range (2 + 1)) ∧
    (({ idle.boot with booted := true } : BootState).booted = true ∧
      (let p : Power := { idle.power with hot := some 5, sampled := 2250005, excess := 2 }
       p.hot = some 5 ∧ 5 + 2250000 ≤ p.sampled ∧ 1 < p.excess) ∧ idle.power.excess = 0 ∧ idle.power.hot = none) ∧
    (ErrPlace.tile 1 15 4095 ≠ .path ∧ ∀ pa, ErrPlace.scratch 1 255 0 ≠ .home pa) ∧
    (let f : Flight := ⟨false, 9, [(15, 3)], [15], 0, none, 3⟩
     let s := waved fun w => { w with flights := [f] }
     s.wordsInFlight = [(1, 0, 15)] ∧ (s.wave 1).flights[0]? = some f) ∧
    (let s := { idle with badNames := [.laneName 1 15 1023] }
     ((s.wave 1).lane 15).window false 1023 = none ∧ ((s.wave 1).lane 15).dead = [] ∧ .laneName 1 15 1023 ∈ s.badNames ∧
     s.omitted (s.wave 1) 0 1023 ((s.wave 1).lane 15).pc = false ∧ (s.wave 1).forwards 0 15 1023 = false ∧
     (s.wave 1).retired = false ∧ s.wordsInFlight = []) := by
  refine ⟨by decide, by decide, ⟨by decide, fun _ h => by cases h⟩, by decide, by decide⟩


/-! ## Values of single steps, by hand from the rules cited, or from the manual's worked examples -/

/-- The base state with values in lane names 5, 6 and 7, and in uniform names 5, 6 and 7. -/
def valued (a b c : BitVec 64) : State := waved fun w =>
  { w.onLanes (List.range 16) fun t => { t with names := [(5, a), (6, b), (7, c)] } with unif := [(5, a), (6, b), (7, c)] }
/-- The state after, or reset where there is none. -/
def after (r : Host.Outcome State Fault Refusal) : State := match r with | .next t => t | _ => State.reset
/-- Name 9 of lane 15, and uniform name 9, after. -/
def lane9 (r : Host.Outcome State Fault Refusal) : BitVec 64 := (((after r).wave 1).lane 15).names.get 0 9
def unif9 (r : Host.Outcome State Fault Refusal) : BitVec 64 := ((after r).wave 1).unif.get 0 9

-- R90, R91: the constant of R94's worked encoding, after SLUI and SADDI.
theorem test_constant :
    ((after (execSlui false 1 0x12346 base)).wave 1).unif.get 0 1 = 0x12346000 ∧
    ((after (execSaddi false 1 0xAB8 (waved fun w => { w with unif := [(1, 0x12346000)] }))).wave 1).unif.get 0 1 = 0x12345AB8 := by
  decide
-- R90: counts of 64, the sign that SSAR copies, the high half of a signed product.
theorem test_uniform :
    unif9 (execSshl (ops 0 9 5 6 0) (valued 3 64 0)) = 0 ∧ unif9 (execSsar (ops 0 9 5 6 0) (valued (-8) 64 0)) = -1 ∧
    unif9 (execSsar (ops 0 9 5 6 0) (valued (-8) 1 0)) = -4 ∧ unif9 (execSshr (ops 0 9 5 6 0) (valued (-8) 60 0)) = 15 ∧
    unif9 (execSmulh (ops 0 9 5 6 0) (valued (-1) 1 0)) = -1 ∧ unif9 (execSmulh (ops 2 9 5 6 0) (valued (-1) 2 0)) = 1 ∧
    unif9 (execSadd (ops 1 9 5 6 0) (valued 0x7FFFFFFFFFFFFFFF 1 0)) = 0x7FFFFFFFFFFFFFFF ∧
    unif9 (execSsub (ops 3 9 5 6 0) (valued 1 2 0)) = 0 ∧ unif9 (execSsel (ops 0 9 5 6 7) (valued 1 2 0)) = 2 := by decide
-- R95: 32 bits wrap, saturate signed and unsigned; modifier bit 2 is the width of 64.
theorem test_lane_arithmetic :
    lane9 (execViadd (ops 0 9 5 6 0) (valued 0xFFFFFFFF 1 0)) = 0 ∧ lane9 (execViadd (ops 4 9 5 6 0) (valued 0xFFFFFFFF 1 0)) = 0x100000000 ∧
    lane9 (execViadd (ops 1 9 5 6 0) (valued 0x7FFFFFFF 1 0)) = 0x7FFFFFFF ∧ lane9 (execVisub (ops 3 9 5 6 0) (valued 1 2 0)) = 0 ∧
    lane9 (execVimulh (ops 0 9 5 6 0) (valued 0xFFFFFFFF 1 0)) = 0xFFFFFFFF ∧ lane9 (execVimulh (ops 2 9 5 6 0) (valued 0xFFFFFFFF 2 0)) = 1 ∧
    lane9 (execVimad (ops 0 9 5 6 7) (valued 3 4 5)) = 17 ∧ lane9 (execVimin (ops 0 9 5 6 0) (valued 0xFFFFFFFF 1 0)) = 0xFFFFFFFF ∧
    lane9 (execVimax (ops 2 9 5 6 0) (valued 0xFFFFFFFF 1 0)) = 0xFFFFFFFF ∧ lane9 (execViabs (ops 0 9 5 0 0) (valued 0x80000000 0 0)) = 0x80000000 ∧
    lane9 (execViabs (ops 1 9 5 0 0) (valued 0x80000000 0 0)) = 0x7FFFFFFF := by decide
theorem test_lane_shifts :
    lane9 (execVshl (ops 0 9 5 6 0) (valued 1 32 0)) = 0 ∧ lane9 (execVshr (ops 0 9 5 6 0) (valued 0x80000000 31 0)) = 1 ∧
    lane9 (execVsar (ops 0 9 5 6 0) (valued 0x80000000 255 0)) = 0xFFFFFFFF ∧ lane9 (execVsar (ops 0 9 5 6 0) (valued 0x80000000 0x101 0)) = 0xC0000000 := by
  decide
-- R96-R100.
theorem test_lane_bits :
    lane9 (execVclz (ops 0 9 5 0 1) (valued 0x01008000 0 0)) = 0x07080008 ∧ lane9 (execVffs (ops 0 9 5 0 0) (valued 0 0 0)) = 0xFFFFFFFF ∧
    lane9 (execVpopc (ops 0 9 5 0 2) (valued 0x00FF0003 0 0)) = 0x00080002 ∧ lane9 (execVbrev (ops 0 9 5 0 1) (valued 0x01020380 0 0)) = 0x8040C001 ∧
    lane9 (execVbfe (ops 0 9 5 6 7) (valued 0xF0 4 8)) = 0xF ∧ lane9 (execVbfe (ops 0 9 5 6 7) (valued 0xF0 4 4)) = 0xFFFFFFFF ∧
    lane9 (execVbfe (ops 0 9 5 6 7) (valued 0xF0 32 4)) = 0 ∧ lane9 (execVbfi (ops 0 9 5 6 7) (valued 0xFFFF 0 0x404)) = 0xFF0F ∧
    lane9 (execVpadd (ops 1 9 5 6 0) (valued 0x7F80FF01 0x01FF01FF 0)) = 0x7F800000 := by decide

/-- FP32 values of the table of conversions in the chapter on numbers: 1, 232, 236, 61,440, 2^32, ±1.5·2^-11, +inf. -/
def cvtInputs : List Nat := [0x3F800000, 0x43680000, 0x436C0000, 0x47700000, 0x4F800000, 0x3A400000, 0xBA400000, 0x7F800000]
def cvtColumn (fmt mode : Nat) (sat : Bool) : List (Nat × Flags) := cvtInputs.map fun v => cvtFloat fp32 (fmtOf fmt) mode sat v
-- R73, R74, R79: the table, column by column; b8p4se is 0x24 and b8p3nf is 0x3B (R71).
theorem test_conversions_b8p4se :
    cvtColumn 0x24 0 false = [(0x40, 0), (0x7E, flagNX), (0x7F, flagOF ||| flagNX), (0x7F, flagOF ||| flagNX), (0x7F, flagOF ||| flagNX),
      (0x01, flagUF ||| flagNX), (0x81, flagUF ||| flagNX), (0x7F, 0)] ∧
    cvtColumn 0x24 1 false = [(0x40, 0), (0x7E, flagNX), (0x7E, flagNX), (0x7E, flagOF ||| flagNX), (0x7E, flagOF ||| flagNX),
      (0x00, flagUF ||| flagNX), (0x00, flagUF ||| flagNX), (0x7F, 0)] ∧
    cvtColumn 0x24 0 true = [(0x40, 0), (0x7E, flagNX), (0x7E, flagOF ||| flagNX), (0x7E, flagOF ||| flagNX), (0x7E, flagOF ||| flagNX),
      (0x01, flagUF ||| flagNX), (0x81, flagUF ||| flagNX), (0x7E, 0)] := by decide
theorem test_conversions_b8p3nf :
    cvtColumn 0x3B 0 false = [(0x80, 0), (0x9F, flagNX), (0x9F, flagNX), (0xC0, flagNX), (0xFF, flagOF ||| flagNX), (0x56, 0),
      (0xFF, flagNV), (0xFF, flagNV)] ∧
    cvtColumn 0x3B 2 false = [(0x80, 0), (0xA0, flagNX), (0xA0, flagNX), (0xC0, flagNX), (0xFF, flagOF ||| flagNX), (0x56, 0),
      (0xFF, flagNV), (0xFF, flagNV)] := by decide
-- R76, R77: 1 + 2^-24 is a tie, to even; the sum's flags; 0 × inf.
theorem test_float :
    lane9 (execVfadd (ops 0 9 5 6 0) (valued 0x3F800000 0x33800000 0)) = 0x3F800000 ∧
    ((after (execVfadd (ops 0 9 5 6 0) (valued 0x3F800000 0x33800000 0))).wave 1).fflags = flagNX ∧
    lane9 (execVfadd (ops 2 9 5 6 0) (valued 0x3F800000 0x33800000 0)) = 0x3F800001 ∧
    lane9 (execVfmul (ops 0 9 5 6 0) (valued 0x7F800000 0 0)) = 0x7FC00000 ∧
    ((after (execVfmul (ops 0 9 5 6 0) (valued 0x7F800000 0 0))).wave 1).fflags = flagNV ∧
    lane9 (execVffma (ops 0 9 5 6 7) (valued 0x40000000 0x40400000 0xC0C00000)) = 0 := by decide

/-- The thread of the worked example of the chapter on the sequential machine, at `pc` with `%x` = 5: a packet at each of
0x200, 0x210 and 0x300, and the stack region at 0x40000000. -/
def example2 (pc : BitVec 64) (x : BitVec 64) (f : Lane → Lane) : State :=
  let s := State.reset.placeCode ⟨0, 0, 0, 0⟩
  let s := s.setBlock 1 { s.block 1 with sb := 0x40000000 }
  let s := { s with
    tlb := [⟨0, 0, 0, 16, 0xF⟩, ⟨0, 0, 0x40000000, 16, 0x200000000F000007⟩]
    iss := { s.iss with pc := pc, next := pc + 8, lanes := [0] } }
  s.onWave 1 fun w => { w with lanes := [(0, f { probeLane with pc := pc, names := [(5, x)] })] }
theorem test_example_steps :
    (let t := ((after (execVcmpImmediate (ops 0 2 5 0 8) (example2 0x200 5 id))).wave 1).lane 0
     t.preds = 1 ∧ t.count = 1 ∧ t.pc = 0x208) ∧
    (let t := ((after (execVcmpImmediate (ops 0 2 5 0 8) (example2 0x200 9 id))).wave 1).lane 0
     t.preds = 0 ∧ t.count = 1) ∧
    (let s := example2 0x208 5 fun t => { t with preds := 1, count := 1 }
     let r := after (execCall false (.pred false 0) 16 0 { s with iss := { s.iss with next := 0x210 } })
     ((r.wave 1).lane 0).depth = 1 ∧ ((r.wave 1).lane 0).pc = 0x300 ∧ r.mem.get 0xF000000 = 0x10 ∧ r.mem.get 0xF000001 = 2) ∧
    (let s := example2 0x208 9 fun t => { t with count := 1 }
     let r := after (execCall false (.pred false 0) 16 0 { s with iss := { s.iss with next := 0x210 } })
     ((r.wave 1).lane 0).depth = 0 ∧ ((r.wave 1).lane 0).pc = 0x210 ∧ r.mem = []) ∧
    (let s := example2 0x308 10 fun t => { t with preds := 1, count := 1, depth := 1 }
     let r := after (execRet false .always { s with mem := [(0xF000000, 0x10), (0xF000001, 2)] })
     ((r.wave 1).lane 0).depth = 0 ∧ ((r.wave 1).lane 0).pc = 0x210) ∧
    (let t := ((after (execPdrop (pops 0 0 0) (example2 0x210 10 fun t => { t with preds := 1, count := 1 }))).wave 1).lane 0
     t.count = 0) := by decide +kernel
-- Entered with C = 8, the VCMP traps with "predicate overflow" (R29, R324); here the kernel's handler is at 0x300.
theorem test_example_overflow :
    let s := example2 0x200 5 fun t => { t with count := 8 }
    let s := s.setLaunch 1 { s.launch 1 with kernel := { probeKernel with trap := 0x300 } }
    let w := (after (execVcmpImmediate (ops 0 2 5 0 8) s)).wave 1
    w.trapm = true ∧ w.trapc = 0x12 ∧ (w.lane 0).pc = 0x300 ∧ (w.lane 0).epc = 0x200 ∧ (w.lane 0).count = 8 := by decide

/-! ## The binder on the manual's two examples (R315-R317, R322, R357) -/

/-- A lane name: number, size, weight, intervals. -/
def laneName (n size weight : Nat) (live : List (Nat × Nat)) : NameInfo := ⟨0, n, false, false, 0, 0, weight, size, live⟩
/-- The lane names of `rebind2`. -/
def rebind2 : Kernel :=
  { probeKernel with
    width := 64
    names := [laneName 0 64 8 [(0x018, 0x020)], laneName 1 64 24 [(0x028, 0x090), (0x0D0, 0x0F0)],
      laneName 2 64 60 [(0x040, 0x0C0), (0x0D0, 0x1F0)], laneName 3 32 56 [(0x058, 0x0A0), (0x0D0, 0x1E0)],
      laneName 4 64 16 [(0x0E0, 0x150)], laneName 5 64 40 [(0x118, 0x160)], laneName 6 64 40 [(0x128, 0x180)],
      laneName 7 64 40 [(0x138, 0x1A0)], laneName 8 64 40 [(0x148, 0x1C0)],
      laneName 9 32 32 [(0x098, 0x0C0), (0x168, 0x170), (0x188, 0x190), (0x1A8, 0x1B0), (0x1C8, 0x1D0)],
      laneName 10 32 52 [(0x158, 0x1F0)]] }
/-- The lane-name entries of a binding with so many rows, a local spill region at `spill` and a live set. -/
def entries (k : Kernel) (rows vbase spill : Nat) (live : List Nat) (names : List Nat) : List (BitVec 64) :=
  let t := idle.bindBlock k 1 none [] ⟨rows, 16, 0, 64, vbase, spill, 0, 0, 0, 0⟩ live
  names.map fun n => t.get 0 n
theorem test_binding_rebind2 :
    let row (r : BitVec 64) := 0x1000000000000000 + r
    entries rebind2 48 0x400000 0x408000 [] (List.range 11) =
      [row 0, row 8, row 0, row 4, row 0x18, row 8, row 0xC, row 0x10, row 0x14, row 8, row 6] ∧
    entries rebind2 24 0x400000 0x408000 [1, 2, 3] (List.range 11) =
      [row 0, row 8, row 0, row 4, 0x4000000000408000, row 8, row 0xC, row 0x10, row 0x14, row 8, row 6] ∧
    entries rebind2 24 0x410000 0x418000 [2, 3, 4, 5, 6, 7, 8] (List.range 11) =
      [row 0, row 8, row 0, row 4, 0x4000000000418000, row 8, row 0xC, row 0x10, row 0x14, row 8, row 6] := by decide
/-- `%p`, `%y`, `%x` and `%t` of the block rebound while divergent. -/
def divergent : Kernel :=
  { probeKernel with
    width := 64
    names := [laneName 0 64 40 [(0x010, 0x080)], laneName 1 32 20 [(0x050, 0x070)], laneName 2 32 10 [(0x030, 0x060)],
      laneName 3 32 5 [(0x0A0, 0x0B0)]] }
theorem test_binding_divergent :
    entries divergent 12 0x78000 0x80000 [] [0, 1, 2, 3] =
      [0x1000000000000000, 0x1000000000000004, 0x1000000000000006, 0x1000000000000000] ∧
    entries divergent 6 0x78000 0x80000 [0, 1, 2, 3] [0, 1, 2, 3] =
      [0x1000000000000000, 0x1000000000000004, 0x4000000000080000, 0x4000000000080100] := by decide

/-! ## The manual's tables of values for lane integers, the matrix window and the molt -/

theorem test_worked_values :
    lane9 (execViadd (ops 1 9 5 6 0) (valued 0x7FFFFFF0 0x20 0)) = 0x7FFFFFFF ∧ lane9 (execVisub (ops 3 9 5 6 0) (valued 0x10 0xFFFFFFF0 0)) = 0 ∧
    lane9 (execVimulh (ops 0 9 5 6 0) (valued 0xFFFFFFFE 3 0)) = 0xFFFFFFFF ∧ lane9 (execVimulh (ops 2 9 5 6 0) (valued 0xFFFFFFFE 3 0)) = 2 ∧
    lane9 (execVsar (ops 0 9 5 6 0) (valued 0x80000000 40 0)) = 0xFFFFFFFF ∧ lane9 (execVshlImmediate (ops 0 9 5 0 0x3FF) (valued 1 0 0)) = 0 ∧
    lane9 (execVclz (ops 0 9 5 0 1) (valued 0x10080 0 0)) = 0x08070800 ∧ lane9 (execVffs (ops 0 9 5 0 1) (valued 0x10080 0 0)) = 0xFF00FF07 ∧
    lane9 (execVpopc (ops 4 9 5 0 0) (valued 0 0 0)) = 0 ∧ lane9 (execVbfe (ops 0 9 5 6 7) (valued 0xF00 8 4)) = 0xFFFFFFFF ∧
    lane9 (execVbfe (ops 2 9 5 6 7) (valued 0xF00 30 8)) = 0 := by decide

/-- A positive product m × 2^e. -/
def product (m : Nat) (e : Int) : FVal := .fin false ⟨m, e⟩
-- R270, R271: a window of 16 bits, and the renormalisation.
theorem test_matrix_window :
    let g0 := groupSum false 16 0 [product 1 10, product 1 0, product 1 (-6)]
    let g1 := groupSum false 16 0 [product 3 (-4)]
    let h0 := groupSum false 16 0 (List.replicate 16 (product 1 0))
    let h1 := groupSum false 16 0 []
    let big := groupSum false 16 0 [product 1 30]
    let t1 := integrate (integrate .zero (-18) [(.zero, some g0), (.zero, some h0)]) (-18)
      [(⟨1025 * 2 ^ 18, true, .finite⟩, some g1), (⟨4194304, false, .finite⟩, some h1)]
    let t2 := integrate t1 (-18) [(⟨268746752, true, .finite⟩, none), (⟨4194304, false, .finite⟩, some big)]
    g0.u = some (-5) ∧ g0.loss = true ∧ g0.sum.same ⟨1025, 0⟩ = true ∧ g1.u = some (-18) ∧ h0.u = some (-15) ∧ h0.sum.same ⟨16, 0⟩ = true ∧
    t1.elems = [(0, ⟨268746752, true, .finite⟩), (1, ⟨4194304, false, .finite⟩)] ∧ t1.rc = 0 ∧
    t2.elems = [(0, ⟨67186688, true, .finite⟩), (1, ⟨2 ^ 46 + 2 ^ 20, false, .finite⟩)] ∧ t2.exp = some (-16) ∧ t2.rc = 1 ∧
    t2.summary = 0xFFF0000000010001 := by decide

/-- The launch of the worked molt, after the molt where `molted`, with map word 0 so. -/
def molting (molted : Bool) (map : BitVec 64) : State × Launch :=
  let s := scheduled map 0 0 []
  (s, { s.launch 1 with sched := [0x3000000020, 0x100000001, 0x0001000100080008, if molted then 0x1800000008 else 0x1000000010,
    0x100000001, if molted then 0xE4 else 0xE1, 1, 1, 4, 0x200, 0, 0x20000, 0, 0, 0, 0] })
/-- The next grant: its anchor's number in the traversal, the anchor and the extents in cells. -/
def nextGrant (molted : Bool) (map : BitVec 64) : Option (List Nat × List Nat) :=
  let x := molting molted map
  let ws := x.2.sched
  (findFrom (fun i => let v := x.1.cell x.2 (cellIndex ws (visit ws i)); v == 0 || v == 2) (schCells ws) 0).bind fun i =>
    match x.1.form x.2 (visit ws i) with
    | .ok e => some ((visit ws i).take 2, e.take 2)
    | .error _ => none
-- R185: G1 and G2 before the molt; then G3, G5, G6 and G8.
theorem test_molt_grants :
    nextGrant false 0 = some ([0, 0], [2, 2]) ∧ nextGrant false 0x5005 = some ([0, 2], [2, 2]) ∧
    nextGrant true 0x55045 = some ([2, 0], [1, 3]) ∧ nextGrant true 0x15015055045 = some ([0, 2], [1, 1]) := by decide +kernel
theorem test_molt_later :
    nextGrant true 0x15015055055 = some ([2, 3], [1, 3]) ∧ nextGrant true 0x555555055055 = some ([0, 4], [1, 2]) ∧
    nextGrant true 0x555555055555 = some ([1, 4], [1, 2]) := by decide +kernel

end Sys2Proof.Tests
end

section
/-! Proofs: how an instruction of a lane set issues: every Sirgen instruction is the issue of an effect of its own
(R38), and what an issue comes to without an active lane or with something missing (R30, R143). -/

namespace Sys2Proof.Machine

/-- Every instruction that is no event of the device is the issue of an effect of its own (R38). -/
theorem exec_eq_issue (i : Instr) (s : State) (h : i.isEvent = false) : ∃ f, exec i s = .next (s.issue i f) := by
  cases i <;> cases h <;> exact ⟨_, rfl⟩

/-! ## What keeps an instruction from its effect -/

/-- Without an active lane (R30). -/
theorem State.issue_inactive (s : State) (i : Instr) (f : State → List Nat → Eff) (hr : s.resumes = false)
    (ha : s.active i = []) : s.issue i f = s.finish i [] (s.idle i) := by
  simp [State.issue, hr, ha]

/-- A source is missing (R143). -/
theorem State.issue_pending (s : State) (i : Instr) (f : State → List Nat → Eff) (hr : s.resumes = false)
    (ha : s.active i ≠ []) (hp : s.pending i (s.active i) = true) : s.issue i f = s.hold s .score := by
  simp [State.issue, State.finish, hr, ha, hp]

/-- A buffer that the instruction names awaits a write of EPI or TMERGE (R280). -/
theorem State.issue_unitBusy (s : State) (i : Instr) (f : State → List Nat → Eff) (hr : s.resumes = false)
    (ha : s.active i ≠ []) (hp : s.pending i (s.active i) = false) (hb : s.unitBusy (buffersOf i) = true) :
    s.issue i f = s.hold s .access := by
  simp [State.issue, State.finish, hr, ha, hp, hb]

/-! ## Traps -/

theorem State.refilled_of_ne (s : State) (cause : Nat) (addr : BitVec 64) (h : cause ≠ causeProtection) :
    s.refilled cause addr = s := by
  simp [State.refilled, h]

/-- A trap other than a denied access leaves no translation behind (R9). -/
theorem State.finish_trap (s : State) (i : Instr) (act : List Nat) (cause : Nat) (addr : BitVec 64) (l : Nat)
    (h : cause ≠ causeProtection) : s.finish i act (.trap cause addr l) = s.trapTurn cause addr l :=
  congrArg (fun r : State => r.trapTurn cause addr l) (s.refilled_of_ne cause addr h)

/-- A ready lane set whose effect is a trap. -/
theorem State.issue_trap (s : State) (i : Instr) (f : State → List Nat → Eff) (cause : Nat) (addr : BitVec 64)
    (l : Nat) (h : s.ready i = true) (hf : f s (s.active i) = .trap cause addr l) (hc : cause ≠ causeProtection) :
    s.issue i f = s.trapTurn cause addr l := by
  rw [s.issue_ready i f h, hf, s.finish_trap _ _ _ _ _ hc]

/-! ## An instruction without an active lane (R30, R59, R169) -/

theorem wrap_of_packets (v : Int) : wrap 64 (16 * v) / 16 * 16 = wrap 64 (16 * v) := by
  unfold wrap
  omega

/-- The model's target of a PC-relative transfer is that of R59. -/
theorem relTarget_eq_packetTarget (pc : BitVec 64) (off : Int) (slot : Nat) :
    relTarget pc off slot = Claims.packetTarget pc off slot := by
  have e : ((pc.toNat : Int) / 16 * 16 + 16 * off) = 16 * ((pc.toNat : Int) / 16 + off) := by omega
  have e' : (((pc.toNat / 16 * 16 : Nat) : Int) + 16 * off) = 16 * ((pc.toNat : Int) / 16 + off) := by omega
  unfold relTarget Claims.packetTarget
  rw [e, e', wrap_of_packets]

/-- A transfer whose own slot field is 3 is PC-relative: each lane's target is the one that its fields name. -/
theorem relOf_of_jumpTable (s : State) (i : Instr) (t : Nat → BitVec 64) (mark : Bool) (hb : badSlot i = true)
    (ht : Claims.jumpTable s i = some (t, mark)) (l : Nat) : relOf s.iss.pc i = t l := by
  unfold Claims.jumpTable at ht
  split at ht
  case h_5 => cases hb
  case h_6 => cases ht
  all_goals
    cases ht
    exact relTarget_eq_packetTarget ..

theorem relOf_of_callTable (s : State) (i : Instr) (t : Nat → BitVec 64) (hb : badSlot i = true)
    (ht : Claims.callTable s i = some t) (l : Nat) : relOf s.iss.pc i = t l := by
  unfold Claims.callTable at ht
  split at ht
  case h_3 => cases hb
  case h_4 => cases ht
  all_goals
    cases ht
    exact relTarget_eq_packetTarget ..

theorem State.idle_badSlot (s : State) (i : Instr) (hb : badSlot i = true) :
    s.idle i = .trap causeTarget (relOf s.iss.pc i) (s.issuing.headD 0) :=
  if_pos hb

theorem State.idle_xmovS (s : State) (o : Ops) : s.idle (.xmovS o) =
    if (s.block s.cur.block).slots.has o.s2.toNat then .wait s (.xmov true o.s2.toNat) else .done s := rfl

theorem State.idle_xmovR (s : State) (o : Ops) : s.idle (.xmovR o) =
    if (s.block s.cur.block).slots.has o.s2.toNat then .done s else .wait s (.xmov false o.s2.toNat) := rfl

/-- An instruction without an active lane only advances, but for bad slot fields and an XMOV whose slot is not as it
wants it. -/
theorem State.idle_done (s : State) (i : Instr) (hb : badSlot i = false)
    (hS : ∀ o, i = .xmovS o → (s.block s.cur.block).slots.has o.s2.toNat = false)
    (hR : ∀ o, i = .xmovR o → (s.block s.cur.block).slots.has o.s2.toNat = true) : s.idle i = .done s := by
  unfold State.idle
  rw [hb]
  simp only [Bool.false_eq_true, if_false]
  split
  next o => rw [hS o rfl]; rfl
  next o => rw [hR o rfl]; rfl
  next => rfl

end Sys2Proof.Machine

namespace Sys2Proof.Proofs

open Sys2Proof.Machine Sys2Proof.Claims

/-- Settles O7: every Sirgen instruction is one issue, which looks in this order at its active lanes, its sources and
the buffers that it names. -/
theorem inactiveAndUnreadyInstructions : Obligations.InactiveAndUnreadyInstructions := by
  unfold Obligations.InactiveAndUnreadyInstructions
  intro s i hev hr slots
  obtain ⟨f, hf⟩ := exec_eq_issue i s hev
  have idle (ha : s.active i = []) : exec i s = .next (s.finish i [] (s.idle i)) := by
    rw [hf, s.issue_inactive i f hr ha]
  have traps (ha : s.active i = []) (hb : badSlot i = true) : exec i s =
      .next (s.trapTurn causeTarget (relOf s.iss.pc i) (s.issuing.headD 0)) := by
    rw [idle ha, s.idle_badSlot i hb, s.finish_trap _ _ _ _ _ (by decide)]
  refine ⟨fun ha _ hs hb hS hR => ?_, fun ha hb => ⟨fun t mark ht => ?_, fun t ht => ?_⟩, fun ha o ho hfull => ?_,
    fun ha o ho hempty => ?_, fun ha hp => ?_, fun ha hp hb => ?_⟩
  · refine ⟨_, idle ha, ?_⟩
    rw [s.idle_done i hb hS hR]
    exact s.retire_retired s i [] [] false rfl hs
  · rw [traps ha hb, relOf_of_jumpTable s i t mark hb ht]
  · rw [traps ha hb, relOf_of_callTable s i t hb ht]
  · rw [idle ha, ho, s.idle_xmovS, if_pos hfull]
    rfl
  · rw [idle ha, ho, s.idle_xmovR, if_neg (by simpa using hempty)]
    rfl
  · rw [hf, s.issue_pending i f hr ha hp]
  · rw [hf, s.issue_unitBusy i f hr ha hp hb]

end Sys2Proof.Proofs
end

section
/-! Proofs: pushes onto predicate stacks (R29, R92, R101, R102, R119). -/

namespace Sys2Proof.Machine

open Sys2Proof.Claims

theorem Tab.put_put {α : Type} (t : Tab α) (a : Nat) (v w : α) : (t.put a v).put a w = t.put a w := by
  induction t with
  | nil => simp [Tab.put]
  | cons p t ih =>
    obtain ⟨k, x⟩ := p
    simp only [Tab.put]
    split
    · simp [Tab.put]
    · split
      · simp [Tab.put]
      · next h1 h2 => simp [Tab.put, h1, h2, ih]

/-! ## Bits of a stack -/

theorem bit_eq_testBit (x k : Nat) : bit x k = x.testBit k := by
  rw [Nat.testBit_eq_decide_div_mod_eq]
  rfl

theorem bit_ofNat_eight (x k : Nat) : bit (BitVec.ofNat 8 x).toNat k = (decide (k < 8) && bit x k) := by
  rw [BitVec.toNat_ofNat, bit_eq_testBit, bit_eq_testBit, Nat.testBit_mod_two_pow]

theorem bit_double_zero (p : Nat) (b : Bool) : bit (2 * p + b.toNat) 0 = b := by
  unfold bit
  cases b <;> simp

theorem bit_double_succ (p : Nat) (b : Bool) (k : Nat) : bit (2 * p + b.toNat) (k + 1) = bit p k := by
  have e : (2 * p + b.toNat) / 2 = p := by have := b.toNat_le; omega
  rw [bit_eq_testBit, bit_eq_testBit, Nat.testBit_succ, e]

/-! ## The entries after a push -/

theorem Lane.pred_push_zero (t : Lane) (b : Bool) : (t.push b).pred 0 = b := by
  simp only [Lane.pred, Lane.push, bit_ofNat_eight, bit_double_zero]
  simp

theorem Lane.pred_push_succ (t : Lane) (b : Bool) (h : t.count < 8) (k : Nat) :
    (t.push b).pred (k + 1) = t.pred k := by
  simp only [Lane.pred, Lane.push, bit_ofNat_eight, bit_double_succ, Nat.add_lt_add_iff_right]
  by_cases hk : k < t.count
  · simp [show k + 1 < 8 by omega]
  · simp [hk]

/-- A push puts its bit on top of the entries (R29). -/
theorem entries_push (t : Lane) (b : Bool) (h : t.count < 8) : entries (t.push b) = b :: entries t := by
  have hc : (t.push b).count = t.count + 1 := rfl
  simp only [entries, hc, List.range_succ_eq_map, List.map_cons, List.map_map, t.pred_push_zero]
  exact congrArg (b :: ·) (List.map_congr_left fun k _ => t.pred_push_succ b h k)

/-- Threads whose architectural parts differ in the PC alone have one stack. -/
theorem entries_of_arch {t u : Lane} {pc : BitVec 64} (h : t.arch = { u.arch with pc := pc }) :
    entries t = entries u :=
  (congrArg entries h :)

theorem State.toNext_active (s : State) (i : Instr) (f : Nat → Lane → Lane) (l : Nat) (a : Lane)
    (h : l ∈ s.active i) : s.toNext i f l a = { f l a with pc := s.iss.next } := by
  rw [State.toNext, if_pos h]

theorem State.toNext_inactive (s : State) (i : Instr) (f : Nat → Lane → Lane) (l : Nat) (a : Lane)
    (h : l ∉ s.active i) : s.toNext i f l a = { a with pc := s.iss.next } := by
  rw [State.toNext, if_neg h]

/-! ## What an instruction that pushes comes to -/

/-- Each listed lane's push, and the flags contributed with it (R33). -/
def Wave.pushAll (w : Wave) (act : List Nat) (f : Nat → Bool) (fl : Flags) : Wave :=
  { act.foldl (fun w l => w.setLane l ((w.lane l).push (f l))) w with fflags := w.fflags ||| fl }

/-- An effect is a push of `f` at these lanes with the flags `fl`, or where some lane's stack is full the trap for the
lowest such lane (R29, R9). -/
def State.Pushes (s : State) (act : List Nat) (f : Nat → Bool) (fl : Flags) (e : Eff) : Prop :=
  match act.find? fun l => (s.cur.lane l).count == 8 with
  | some l => e = .trap causePredOver (BitVec.ofNat 64 8) l
  | none => ∃ x y, e = .done
    { s.onWave s.iss.wave fun w => w.pushAll act f fl with iss := { s.iss with raised := x, mine := y } }

/-- VFCMP's effect: a push, then the flags (R119, R114). -/
def State.pushRaise (s : State) (act : List Nat) (f : Nat → Bool) (fl : Flags) : Eff :=
  match s.pushEff act f with
  | .done t => .done (t.raise fl)
  | e => e

theorem Wave.foldl_push_arch (w : Wave) (act : List Nat) (f : Nat → Bool) :
    (act.foldl (fun w l => w.setLane l ((w.lane l).push (f l))) w).arch = w.arch := by
  refine Wave.foldl_keep Wave.arch _ ?_ act w
  intro w l
  rfl

theorem Wave.pushAll_no_flags (w : Wave) (act : List Nat) (f : Nat → Bool) :
    w.pushAll act f 0 = act.foldl (fun w l => w.setLane l ((w.lane l).push (f l))) w := by
  have e : w.fflags ||| 0 = w.fflags := BitVec.or_zero
  unfold Wave.pushAll
  rw [e, Wave.foldl_each_shape fun l t => t.push (f l)]

theorem State.setWave_setWave (s : State) (k : Nat) (v w : Wave) : (s.setWave k v).setWave k w = s.setWave k w := by
  unfold State.setWave
  rw [Tab.put_put]

theorem State.onWave_onWave (s : State) (k : Nat) (F G : Wave → Wave) :
    (s.onWave k F).onWave k G = s.onWave k fun w => G (F w) := by
  unfold State.onWave
  rw [State.wave_setWave_same, State.setWave_setWave]

theorem State.raise_onWave (s : State) (F : Wave → Wave) (fl : Flags) :
    (s.onWave s.iss.wave F).raise fl =
      { s.onWave s.iss.wave fun w => { F w with fflags := (F w).fflags ||| fl } with
        iss := { s.iss with raised := s.iss.raised ||| fl, mine := s.iss.mine ||| fl } } :=
  congrArg (fun t : State => { t with
    iss := { s.iss with raised := s.iss.raised ||| fl, mine := s.iss.mine ||| fl } })
    (s.onWave_onWave s.iss.wave F fun w => { w with fflags := w.fflags ||| fl })

theorem State.pushes_pushEff (s : State) (act : List Nat) (f : Nat → Bool) :
    s.Pushes act f 0 (s.pushEff act f) := by
  unfold State.Pushes State.pushEff
  cases act.find? fun l => (s.cur.lane l).count == 8 with
  | some l => rfl
  | none => exact ⟨s.iss.raised, s.iss.mine, by simp only [Wave.pushAll_no_flags]; rfl⟩

theorem State.pushes_pushRaise (s : State) (act : List Nat) (f : Nat → Bool) (fl : Flags) :
    s.Pushes act f fl (s.pushRaise act f fl) := by
  unfold State.Pushes State.pushRaise State.pushEff
  cases act.find? fun l => (s.cur.lane l).count == 8 with
  | some l => rfl
  | none =>
    refine ⟨s.iss.raised ||| fl, s.iss.mine ||| fl, ?_⟩
    have flags (w : Wave) : (act.foldl (fun w l => w.setLane l ((w.lane l).push (f l))) w).fflags = w.fflags :=
      (congrArg Wave.fflags (w.foldl_push_arch act f) :)
    show Eff.done (State.raise _ fl) = _
    rw [State.raise_onWave]
    simp only [Wave.pushAll, flags]

theorem condI_eq_cc (c : Nat) (a b : Int) : condI c a b = cc c a b := by
  have le (x y : Int) : decide (x ≤ y) = (decide (x < y) || decide (x = y)) := by
    rw [← Bool.decide_or, decide_eq_decide]; omega
  match c with
  | 0 | 1 | 2 | 4 => rfl
  | 3 => exact le a b
  | _ + 5 => exact (le b a).trans (congrArg (decide (b < a) || ·) (decide_eq_decide.mpr eq_comm))

/-- A comparison of integers pushes what the table says of its condition. -/
theorem State.pushes_compare (s : State) (act : List Nat) (c : Nat) (a b : Nat → Int) :
    s.Pushes act (fun l => cc c (a l) (b l)) 0 (s.pushEff act fun l => condI c (a l) (b l)) := by
  simp only [condI_eq_cc]
  exact s.pushes_pushEff act _

/-- Every instruction of the table of pushes is the issue of its push. -/
theorem exec_pushTable (s : State) (i : Instr) (f : Nat → Bool) (fl : Flags) (h : pushTable s i = some (f, fl)) :
    ∃ g, exec i s = .next (s.issue i g) ∧ s.Pushes (s.active i) f fl (g s (s.active i)) := by
  unfold pushTable at h
  split at h <;> cases h
  case h_1 | h_2 | h_3 | h_4 | h_5 => exact ⟨_, rfl, s.pushes_compare _ _ _ _⟩
  case h_6 => exact ⟨_, rfl, s.pushes_pushRaise _ _ _⟩
  case h_7 | h_8 => exact ⟨_, rfl, s.pushes_pushEff _ _⟩

/-- A push by a ready lane set none of whose active lanes' stacks is full. -/
theorem State.issue_pushes (s : State) (i : Instr) (f : Nat → Bool) (fl : Flags) (g : State → List Nat → Eff)
    (h : s.ready i = true) (hc : ∀ l ∈ s.active i, (s.cur.lane l).count < 8)
    (hg : s.Pushes (s.active i) f fl (g s (s.active i))) :
    ThreadResult i s (s.issue i g)
      (s.toNext i fun l a => { a with preds := BitVec.ofNat 8 (2 * a.preds.toNat + (f l).toNat), count := a.count + 1 })
      (fun w => { w with fflags := w.fflags ||| fl }) := by
  have hroom : ((s.active i).find? fun l => (s.cur.lane l).count == 8) = none :=
    find?_none_of _ _ fun l hl => beq_false_of_ne (Nat.ne_of_lt (hc l hl))
  unfold State.Pushes at hg
  rw [hroom] at hg
  obtain ⟨x, y, e⟩ := hg
  have lane (l : Nat) : (s.cur.pushAll (s.active i) f fl).lane l =
      if l ∈ s.active i then (s.cur.lane l).push (f l) else s.cur.lane l :=
    Wave.foldl_each (fun l t => t.push (f l)) _ (s.active_nodup i) _ _
  have arch := s.cur.foldl_push_arch (s.active i) f
  refine State.issue_wave s i (fun w => w.pushAll (s.active i) f fl) x y _ _ g h e ?_ ?_ ?_ ?_
  · exact (congrArg Wave.single arch :)
  · exact congrArg (fun v : Wave => { v with fflags := s.cur.fflags ||| fl }) arch
  · intro l _
    rw [lane]
    unfold State.toNext
    split <;> rfl
  · intro l hl
    rw [lane, if_neg fun hm => hl (s.active_issuing i l hm)]

end Sys2Proof.Machine

namespace Sys2Proof.Proofs

open Sys2Proof.Machine Sys2Proof.Claims

/-- Settles O11: each instruction of the table pushes, or traps for the first full stack. -/
theorem pushesOntoStacks : Obligations.PushesOntoStacks := by
  unfold Obligations.PushesOntoStacks
  refine ⟨fun s i f fl ht h hc => ?_, fun s i f fl l ht h hfull => ?_⟩
  all_goals obtain ⟨g, he, hg⟩ := exec_pushTable s i f fl ht
  · have q := s.issue_pushes i f fl g h hc hg
    refine ⟨_, he, q, fun l hl => ?_⟩
    have e := q.set l (s.active_issuing i l hl)
    rw [s.toNext_active i _ l _ hl] at e
    exact (entries_of_arch (u := (s.cur.lane l).push (f l)) e).trans (entries_push _ _ (hc l hl))
  · unfold State.Pushes at hg
    rw [hfull] at hg
    rw [he, s.issue_trap i g _ _ _ h hg (by decide)]

end Sys2Proof.Proofs
end

section
/-! Proofs: predicate instructions that change the entries of a stack in place (R102). -/

namespace Sys2Proof.Machine

open Sys2Proof.Claims

/-! ## The entries after an update -/

/-- The number whose binary digits are `p`'s, but for digit `d`. -/
def withBit (p d : Nat) (b : Bool) : Nat := 2 ^ d * (2 * (p / 2 ^ (d + 1)) + b.toNat) + p % 2 ^ d

theorem withBit_self (p d : Nat) : withBit p d (bit p d) = p := by
  have h1 := Nat.div_add_mod p (2 ^ d)
  have h2 := Nat.div_add_mod (p / 2 ^ d) 2
  have h3 : p / 2 ^ (d + 1) = p / 2 ^ d / 2 := by rw [Nat.pow_succ, Nat.div_div_eq_div_mul]
  have h4 : (bit p d).toNat = p / 2 ^ d % 2 := by
    rcases Nat.mod_two_eq_zero_or_one (p / 2 ^ d) with h | h <;> simp [bit, h]
  unfold withBit
  rw [h3, h4, h2, h1]

theorem bit_withBit (p d : Nat) (b : Bool) (k : Nat) :
    bit (withBit p d b) k = if k = d then b else bit p k := by
  have below : p % 2 ^ d < 2 ^ d := Nat.mod_lt _ (Nat.two_pow_pos d)
  have read (c : Bool) : bit (withBit p d c) k =
      if k < d then (p % 2 ^ d).testBit k else bit (2 * (p / 2 ^ (d + 1)) + c.toNat) (k - d) := by
    rw [bit_eq_testBit, withBit, Nat.testBit_two_pow_mul_add _ below]
    simp only [bit_eq_testBit]
  have same := read (bit p d)
  rw [withBit_self] at same
  rw [read b]
  by_cases hk : k = d
  · subst hk
    rw [if_neg (Nat.lt_irrefl k), Nat.sub_self, bit_double_zero, if_pos rfl]
  · rw [if_neg hk, same]
    by_cases hlt : k < d
    · simp [hlt]
    · obtain ⟨m, hm⟩ : ∃ m, k - d = m + 1 := ⟨k - d - 1, by omega⟩
      simp only [hlt, if_false, hm, bit_double_succ]

theorem withBit_true (p d : Nat) : withBit p d true = withBit p d false + 2 ^ d := by
  simp only [withBit, Bool.toNat_true, Bool.toNat_false, Nat.mul_add, Nat.mul_one, Nat.mul_zero]
  omega

/-- Setting an entry sets its digit. -/
theorem Lane.setPred_eq (t : Lane) (d : Nat) (b : Bool) :
    t.setPred d b = { t with preds := BitVec.ofNat 8 (withBit t.preds.toNat d b) } := by
  have self := withBit_self t.preds.toNat d
  have step := withBit_true t.preds.toNat d
  have e : (if bit t.preds.toNat d then (if b then t.preds.toNat else t.preds.toNat - 2 ^ d)
      else (if b then t.preds.toNat + 2 ^ d else t.preds.toNat)) = withBit t.preds.toNat d b := by
    cases hc : bit t.preds.toNat d <;> cases b <;> rw [hc] at self <;> simp <;> omega
  unfold Lane.setPred
  simp only [e]

theorem bit_toNat_eight (p : BitVec 8) (k : Nat) : (decide (k < 8) && bit p.toNat k) = bit p.toNat k := by
  rw [← bit_ofNat_eight, BitVec.ofNat_toNat, BitVec.setWidth_eq]

theorem Lane.pred_setPred (t : Lane) (d : Nat) (b : Bool) (hd : d < t.count) (h8 : d < 8) (k : Nat) :
    (t.setPred d b).pred k = if k = d then b else t.pred k := by
  rw [Lane.setPred_eq]
  simp only [Lane.pred, bit_ofNat_eight, bit_withBit]
  by_cases hk : k = d
  · simp [hk, hd, h8]
  · simp only [hk, if_false, bit_toNat_eight]

theorem Lane.setPred_count (t : Lane) (d : Nat) (b : Bool) : (t.setPred d b).count = t.count := rfl

theorem entries_setPred (t : Lane) (d : Nat) (b : Bool) (hd : d < t.count) (h8 : d < 8) :
    entries (t.setPred d b) = (entries t).set d b := by
  refine List.ext_getElem (by simp [entries, Lane.setPred_count]) fun k _ _ => ?_
  simp [entries, List.getElem_set, t.pred_setPred d b hd h8, eq_comm]

/-- An entry below the stack reads 0 (R29). -/
theorem getD_entries (t : Lane) (d : Nat) : (entries t).getD d false = t.pred d := by
  by_cases hd : d < t.count
  · simp [entries, List.getD, hd]
  · simp [entries, List.getD, hd, Lane.pred]

theorem Lane.pred_pop (t : Lane) (k : Nat) : t.pop.pred k = t.pred (k + 1) := by
  have hb : bit (BitVec.ofNat 8 (t.preds.toNat / 2)).toNat k = bit t.preds.toNat (k + 1) := by
    rw [BitVec.toNat_ofNat, Nat.mod_eq_of_lt (by omega), bit_eq_testBit, bit_eq_testBit, Nat.testBit_succ]
  have hc : (k < t.count - 1) = (k + 1 < t.count) := by rw [Nat.lt_sub_iff_add_lt]
  simp only [Lane.pred, Lane.pop, hb, hc]

theorem entries_pop (t : Lane) : entries t.pop = (entries t).tail := by
  have hc : t.pop.count = t.count - 1 := rfl
  refine List.ext_getElem (by simp [entries, hc]) fun k _ _ => ?_
  simp [entries, t.pred_pop]

/-! ## What an instruction of the table comes to -/

/-- A change of a thread is one of its stack alone, which makes of the entries what `f` does where the stack has an
entry `n`. -/
structure WorksOnStack (n : Nat) (f : List Bool → List Bool) (F : Lane → Lane) : Prop where
  frame : ∀ t, F t = { t with preds := (F t).preds, count := (F t).count }
  arch : ∀ t, (F t).arch = (F t.arch).arch
  entries : ∀ t, n < t.count → entries (F t) = f (entries t)

/-- One entry becomes a function of two. -/
theorem worksOnStack_setPred (a b : BitVec 3) (op : Bool → Bool → Bool) :
    WorksOnStack a.toNat (fun e => e.set a.toNat (op (e.getD a.toNat false) (e.getD b.toNat false)))
      (fun t => t.setPred a.toNat (op (t.pred a.toNat) (t.pred b.toNat))) where
  frame _ := rfl
  arch _ := rfl
  entries t h := by
    simp only [getD_entries]
    exact entries_setPred t _ _ h a.isLt

theorem worksOnStack_pop : WorksOnStack 0 List.tail Lane.pop where
  frame _ := rfl
  arch _ := rfl
  entries t _ := entries_pop t

/-- Two entries change places. -/
theorem worksOnStack_swap (a b : BitVec 3) :
    WorksOnStack (max a.toNat b.toNat)
      (fun e => (e.set a.toNat (e.getD b.toNat false)).set b.toNat (e.getD a.toNat false))
      (fun t => (t.setPred a.toNat (t.pred b.toNat)).setPred b.toNat (t.pred a.toNat)) where
  frame _ := rfl
  arch _ := rfl
  entries t h := by
    simp only [getD_entries]
    rw [entries_setPred (t.setPred a.toNat _) _ _ (Nat.lt_of_le_of_lt (Nat.le_max_right ..) h) b.isLt,
      entries_setPred _ _ _ (Nat.lt_of_le_of_lt (Nat.le_max_left ..) h) a.isLt]

/-- Every instruction of the table is the issue of its work on the stacks. -/
theorem exec_stackTable (s : State) (i : Instr) (n : Nat) (f : List Bool → List Bool)
    (h : stackTable i = some (n, f)) : ∃ a b F, exec i s = .next (s.issue i fun s act => s.underEff act a b F) ∧
      max a b = n ∧ WorksOnStack n f F := by
  unfold stackTable at h
  split at h <;> cases h
  case h_1 p => exact ⟨_, _, _, rfl, Nat.max_self _, worksOnStack_setPred p.a p.b fun x _ => !x⟩
  case h_2 p => exact ⟨_, _, _, rfl, Nat.max_self _, worksOnStack_setPred p.a p.b fun x y => x && y⟩
  case h_3 p => exact ⟨_, _, _, rfl, Nat.max_self _, worksOnStack_setPred p.a p.b fun x y => x || y⟩
  case h_4 p => exact ⟨_, _, _, rfl, Nat.max_self _, worksOnStack_setPred p.a p.b fun x y => x != y⟩
  case h_5 => exact ⟨_, _, _, rfl, Nat.max_self _, worksOnStack_pop⟩
  case h_6 p => exact ⟨_, _, _, rfl, rfl, worksOnStack_swap p.a p.b⟩

/-- Some listed lane's stack is too short (R102). -/
theorem State.underEff_short (s : State) (act : List Nat) (a b : Nat) (F : Lane → Lane) (l : Nat)
    (h : (act.find? fun l => decide ((s.cur.lane l).count ≤ max a b)) = some l) :
    ∃ addr, s.underEff act a b F = .trap causePredUnder addr l := by
  have e : (fun l => decide ((s.cur.lane l).count ≤ a) || decide ((s.cur.lane l).count ≤ b)) =
      fun l => decide ((s.cur.lane l).count ≤ max a b) := by
    funext l
    rw [← Bool.decide_or, decide_eq_decide]
    omega
  unfold State.underEff
  rw [e, h]
  exact ⟨_, rfl⟩

/-- A thread of which an instruction has changed the stack alone, and its PC. -/
theorem WorksOnStack.arch_frame {n : Nat} {f : List Bool → List Bool} {F : Lane → Lane} (w : WorksOnStack n f F)
    (t : Lane) (pc : BitVec 64) :
    ({ (F t.arch).arch with pc := pc, preds := t.preds, count := t.count } : Lane) = { t.arch with pc := pc } := by
  rw [← w.arch, w.frame]
  rfl

end Sys2Proof.Machine

namespace Sys2Proof.Proofs

open Sys2Proof.Machine Sys2Proof.Claims

/-- Settles O12: each instruction of the table works on the stacks alone, or traps for the first that is too short. -/
theorem stackEntriesInPlace : Obligations.StackEntriesInPlace := by
  unfold Obligations.StackEntriesInPlace
  refine ⟨fun s i n f ht h hdeep => ?_, fun s i f n l ht h hshort => ?_⟩
  all_goals obtain ⟨a, b, F, he, rfl, work⟩ := exec_stackTable s i _ f ht
  · have q := s.issue_underEff i a b F (fun s act => s.underEff act a b F) h hdeep work.arch rfl
    refine ⟨_, he, q.toThreadFrame, q.regs, fun l hl => ?_, fun l hl => ?_, fun l hl hn => ?_⟩
    · by_cases hm : l ∈ s.active i
      · rw [q.set l hl, s.toNext_active i _ l _ hm]
        exact ⟨work.arch_frame (s.cur.lane l) _, rfl⟩
      · rw [q.set l hl, s.toNext_inactive i _ l _ hm]
        exact ⟨rfl, rfl⟩
    · have e := q.set l (s.active_issuing i l hl)
      rw [s.toNext_active i _ l _ hl, ← work.arch] at e
      rw [entries_of_arch e]
      exact work.entries _ (hdeep l hl)
    · have e := q.set l hl
      rw [s.toNext_inactive i _ l _ hn] at e
      exact entries_of_arch e
  · obtain ⟨addr, hg⟩ := s.underEff_short (s.active i) a b F l hshort
    exact ⟨addr, by rw [he, s.issue_trap i _ _ _ _ h hg (by decide)]⟩

end Sys2Proof.Proofs
end

section
/-! Proofs: writes of the executive and of leaf controllers to home memory, as far as their bytes and the waves go
(R329, R383). -/

namespace Sys2Proof.Machine

open Sys2Proof.Claims

/-! ## Waves as they were, but for places in views -/

theorem sameWave_refl (w : Wave) : SameWave w w := rfl

theorem SameWave.trans {u v w : Wave} (h : SameWave u v) (g : SameWave v w) : SameWave u w := by
  unfold SameWave at h g ⊢
  rw [g, h]

theorem SameWave.lane {v w : Wave} (h : SameWave v w) (l : Nat) : w.lane l = v.lane l := by
  rw [h]
  rfl

theorem Tab.get_map_rel {α : Type} {R : α → α → Prop} {d : α} {g : α → α} (hd : R d d) (hg : ∀ v, R v (g v))
    (t : Tab α) (k : Nat) : R (Tab.get d t k) (Tab.get d (t.map fun p => (p.1, g p.2)) k) := by
  induction t with
  | nil => exact hd
  | cons p t ih =>
    simp only [List.map_cons, Tab.get]
    split
    · exact hd
    · split
      · exact hg _
      · exact ih

/-- The bytes of home memory are as before, and no wave differs but in the places that writes have in its view. -/
structure Reordered (s t : State) : Prop where
  mem : t.mem = s.mem
  waves : SameWaves s t

theorem reordered_refl (s : State) : Reordered s s := ⟨rfl, fun _ => rfl⟩

theorem Reordered.trans {s t u : State} (h : Reordered s t) (g : Reordered t u) : Reordered s u :=
  ⟨g.mem.trans h.mem, fun k => SameWave.trans (h.waves k) (g.waves k)⟩

theorem reordered_foldl {α : Type} (f : State → α → State) (h : ∀ s a, Reordered s (f s a)) (as : List α) (s : State) :
    Reordered s (as.foldl f s) := by
  induction as generalizing s with
  | nil => exact reordered_refl s
  | cons a as ih => exact (h s a).trans (ih _)

theorem State.restamp_reordered (s : State) (pa n : Nat) : Reordered s (s.restamp pa n) where
  mem := rfl
  waves k := Tab.get_map_rel (R := SameWave)
    (g := fun w => { w with
      view := restampIn pa n (max s.stamp (n + 1)) w.view, code := restampIn pa n (max s.stamp (n + 1)) w.code })
    (sameWave_refl _) (fun _ => by rfl) s.waves k

theorem State.overtake_reordered (s : State) (pa len : Nat) : Reordered s (s.overtake pa len) := by
  unfold State.overtake
  split
  · exact reordered_refl s
  · refine reordered_foldl _ (fun s i => reordered_foldl _ (fun s v => ?_) _ _) _ _
    dsimp only
    split
    · exact State.restamp_reordered ..
    · exact reordered_refl s

/-! ## Writes at home -/

theorem State.foldl_pushByte_mem (bs : List Byte) (pa n : Nat) (s : State) :
    ((bs.zipIdx n).foldl (fun s p => s.pushByte (pa + p.2) p.1) s).mem = s.mem.write (pa + n) bs := by
  induction bs generalizing n s with
  | nil => rfl
  | cons b bs ih =>
    rw [List.zipIdx_cons, List.foldl_cons, ih]
    rfl

theorem State.foldl_pushByte_waves (ps : List (Byte × Nat)) (pa : Nat) (s : State) :
    (ps.foldl (fun s p => s.pushByte (pa + p.2) p.1) s).waves = s.waves := by
  induction ps generalizing s with
  | nil => rfl
  | cons p ps ih => rw [List.foldl_cons, ih]; rfl

/-- What a write by the executive does to home memory and to the waves. -/
theorem State.sysWrite_mem (s : State) (pa : Nat) (bs : List Byte) : (s.sysWrite pa bs).mem = s.mem.write pa bs :=
  (State.overtake_reordered ..).mem.trans (State.foldl_pushByte_mem bs pa 0 s)

theorem State.sysWrite_waves (s : State) (pa : Nat) (bs : List Byte) : SameWaves s (s.sysWrite pa bs) := by
  intro k
  have h := (((s.pushBytes pa bs).unmark pa bs.length).overtake_reordered pa bs.length).waves k
  have e : ((s.pushBytes pa bs).unmark pa bs.length).wave k = s.wave k :=
    congrArg (fun ws : Tab Wave => Tab.get Wave.absent ws k) (State.foldl_pushByte_waves bs.zipIdx pa s)
  rw [e] at h
  exact h

theorem State.sendUp_mem (s : State) (cluster : Nat) (m : LinkMsg) : (s.sendUp cluster m).mem = s.mem := by
  unfold State.sendUp
  dsimp only
  split <;> rfl

theorem State.sendUp_wave (s : State) (cluster : Nat) (m : LinkMsg) (k : Nat) :
    (s.sendUp cluster m).wave k = s.wave k := by
  unfold State.sendUp
  dsimp only
  split <;> rfl

/-! ## Fault records (R329, R330) -/

theorem leBytes_length (n x : Nat) : (leBytes n x).length = n := by
  induction n generalizing x with
  | zero => rfl
  | succ n ih => rw [leBytes, List.length_cons, ih]

theorem length_flatMap_of_length {α β : Type} (f : α → List β) (n : Nat) (h : ∀ a, (f a).length = n) (as : List α) :
    (as.flatMap f).length = n * as.length := by
  induction as with
  | nil => rfl
  | cons a as ih =>
    rw [List.flatMap_cons, List.length_append, h, ih, List.length_cons, Nat.mul_add, Nat.mul_one, Nat.add_comm]

theorem wordBytes_length (ws : List (BitVec 64)) : (ws.flatMap fun w => leBytes 8 w.toNat).length = 8 * ws.length :=
  length_flatMap_of_length _ 8 (fun w => leBytes_length 8 w.toNat) ws

/-- The bytes of a fault record go to the launch's ring. -/
theorem State.putRecord_mem (s : State) (launch cluster : Nat) (ws : List (BitVec 64)) :
    (s.putRecord launch cluster ws).1.mem =
      s.mem.write ((s.launch launch).ring + 256 * ((s.launch launch).records % 64))
        (ws.flatMap fun w => leBytes 8 w.toNat) := by
  unfold State.putRecord
  rw [State.sendUp_mem, State.setLaunch_mem, State.sysWrite_mem]

theorem State.putRecord_waves (s : State) (launch cluster : Nat) (ws : List (BitVec 64)) :
    SameWaves s (s.putRecord launch cluster ws).1 := by
  intro k
  unfold State.putRecord
  rw [State.sendUp_wave, State.setLaunch_get_wave]
  exact s.sysWrite_waves _ _ k

theorem State.entry_length (s : State) (k lane : Nat) (p : Operand) : (s.entry k lane p).length = 4 := by
  unfold State.entry
  split <;> rfl

/-- A fault record has 32 words. -/
theorem State.record_length (s : State) (k : Nat) (t : Trap) (ws : List (BitVec 32)) (trapm noh nowave : Bool) :
    (s.record k t ws trapm noh nowave).length = 32 := by
  have entries : (((operandsOfWords (s.wave k).priv ws).take 6).flatMap fun p => s.entry k t.lane p).length ≤ 24 := by
    rw [length_flatMap_of_length _ 4 (s.entry_length k t.lane)]
    have := List.length_take_le 6 (operandsOfWords (s.wave k).priv ws)
    omega
  unfold State.record
  simp only [List.length_append, List.length_cons, List.length_nil, List.length_replicate]
  omega

end Sys2Proof.Machine
end

section
/-! Proofs: a trap that is delivered at once enters the kernel's handler (R324, R325), and the return from it (R351). -/

namespace Sys2Proof.Machine

open Sys2Proof.Claims

/-! ## What waits for a rebind does not look at -/

/-- Whether a block's waves are asked to stop for a rebind depends on the waves by their blocks, live lanes and PCs
alone (R319). -/
theorem State.rebindStops_congr (s : State) (ws : Tab Wave)
    (hb : ∀ k, (Tab.get Wave.absent ws k).block = (s.wave k).block)
    (hl : ∀ k, (Tab.get Wave.absent ws k).live = (s.wave k).live)
    (hp : ∀ k l, ((Tab.get Wave.absent ws k).lane l).pc = ((s.wave k).lane l).pc) (b : Nat) :
    ({ s with waves := ws } : State).rebindStops b = s.rebindStops b := by
  have wave (k : Nat) : ({ s with waves := ws } : State).wave k = Tab.get Wave.absent ws k := rfl
  have pinned : ({ s with waves := ws } : State).pinned = s.pinned := by
    funext x cls name
    unfold State.pinned
    simp only [wave, hb]
    rfl
  have live : ({ s with waves := ws } : State).liveSet = s.liveSet := by
    funext x
    unfold State.liveSet
    simp only [wave, hl, hp]
    rfl
  have bind : ({ s with waves := ws } : State).bindBlock = s.bindBlock := by
    unfold State.bindBlock
    rw [pinned]
  have moves : ({ s with waves := ws } : State).movesGang = s.movesGang := by
    unfold State.movesGang
    rw [live, bind]
    rfl
  unfold State.rebindStops
  rw [moves]
  rfl

/-! ## A trap that can be delivered is delivered at once (R324) -/

/-- The waits of these lanes end. -/
def Wave.woken (w : Wave) (ls : List Nat) : Wave := w.onLanes ls fun x => { x with wait := .none }

theorem State.onWave_congr (s : State) (k : Nat) {f g : Wave → Wave} (h : f (s.wave k) = g (s.wave k)) :
    s.onWave k f = s.onWave k g :=
  congrArg (s.setWave k) h

/-- A change of lanes that keeps which of them live and their PCs asks no block to stop, and keeps none from it. -/
theorem State.rebindStops_onLanes (s : State) (k : Nat) (ls : List Nat) (f : Lane → Lane)
    (hf : ∀ x, (f x).exited = x.exited ∧ (f x).pc = x.pc) (b : Nat) :
    (s.onWave k fun w => w.onLanes ls f).rebindStops b = s.rebindStops b := by
  have lane {β : Type} (π : Lane → β) (h : ∀ x, π (f x) = π x) (j l : Nat) :
      π (((s.onWave k fun w => w.onLanes ls f).wave j).lane l) = π ((s.wave j).lane l) := by
    rw [State.wave_onWave]
    split
    · next e => rw [e]; exact Wave.lane_onLanes_keep π _ ls f h l
    · rfl
  have whole {β : Type} (π : Wave → β) (h : ∀ w : Wave, π (w.onLanes ls f) = π w) (j : Nat) :
      π ((s.onWave k fun w => w.onLanes ls f).wave j) = π (s.wave j) := by
    rw [State.wave_onWave]
    split
    · next e => rw [e]; exact h _
    · rfl
  refine s.rebindStops_congr _ (whole Wave.block fun w => by simp) (fun j => ?_) (lane Lane.pc fun x => (hf x).2) b
  have width := whole Wave.width (fun w => by simp) j
  have exited := lane Lane.exited (fun x => (hf x).1) j
  show Wave.live ((s.onWave k fun w => w.onLanes ls f).wave j) = _
  simp only [Wave.live, width, exited]

theorem State.deliverable_woken (s : State) (k : Nat) (t : Trap) (hn : t.lanes.Nodup)
    (h : s.deliverable k t = true) : (s.onWave k fun w => w.woken t.lanes).deliverable k t = true := by
  simp only [State.deliverable, Bool.and_eq_true] at h ⊢
  obtain ⟨⟨⟨remote, performed⟩, stops⟩, _⟩ := h
  refine ⟨⟨⟨?_, performed⟩, ?_⟩, ?_⟩
  · simpa [Wave.woken] using remote
  · rw [State.wave_onWave_same]
    simpa [Wave.woken, Wave.priv, State.rebindStops_onLanes] using stops
  · rw [List.all_eq_true]
    intro l hl
    rw [State.wave_onWave_same, Wave.woken, Wave.lane_onLanes_mem _ _ _ _ hl hn]

theorem State.raiseTrap_delivered (s : State) (k : Nat) (t : Trap) (hn : t.lanes.Nodup)
    (hp : (s.wave k).pend = none) (h : s.deliverable k t = true) :
    s.raiseTrap k t = (s.onWave k fun w => w.woken t.lanes).takeTrap k t := by
  have free := h
  simp only [State.deliverable, Bool.and_eq_true] at free
  unfold State.raiseTrap
  rw [s.onWave_congr k (g := fun w => w.woken t.lanes)]
  rotate_left
  · exact if_pos (by rw [hp]; exact free.2)
  have none : ((s.onWave k fun w => w.woken t.lanes).wave k).pend = none := by simp [Wave.woken, hp]
  simp only [none, s.deliverable_woken k t hn h, Option.isSome_none, Bool.false_eq_true, if_false, if_true]

/-! ## Entering the handler (R324, R325) -/

/-- A wave enters the handler at `entry` with the lanes of a trap. -/
def Wave.entering (w : Wave) (t : Trap) (entry : BitVec 64) : Wave :=
  { w with
    trapm := true
    handler := t.lanes
    lanes := (w.onLanes t.lanes fun x => { x with pc := entry, code := none }).lanes }

theorem State.landAll_of_none (s : State) (k : Nat) (h : (s.wave k).flights = []) : s.landAll k = s := by
  simp [State.landAll, h]

/-! An update of lanes keeps where a wave is and what it runs. -/

theorem State.kernelOf_onLanes (s : State) (k : Nat) (ls : List Nat) (f : Lane → Lane) :
    let t := s.onWave k fun w => w.onLanes ls f
    t.kernelOf (t.wave k) = s.kernelOf (s.wave k) := by
  simp [State.kernelOf, State.launchOf, State.gangOf]

theorem State.launchOf_onLanes (s : State) (k : Nat) (ls : List Nat) (f : Lane → Lane) :
    let t := s.onWave k fun w => w.onLanes ls f
    t.launchOf (t.wave k) = s.launchOf (s.wave k) := by
  simp [State.launchOf, State.gangOf]

theorem State.trapHalts_onLanes (s : State) (k : Nat) (ls : List Nat) (f : Lane → Lane) (cause : Nat) :
    (s.onWave k fun w => w.onLanes ls f).trapHalts k cause = s.trapHalts k cause := by
  have kernel := s.kernelOf_onLanes k ls f
  have launch := s.launchOf_onLanes k ls f
  dsimp only at kernel launch
  unfold State.trapHalts State.brkHalts
  rw [kernel, launch]
  simp

/-- A trap of a core's wave that does not halt: its registers are written, its record is formed, and its lane set enters
the handler. -/
theorem State.takeTrap_enters (s : State) (k : Nat) (t : Trap) (hc : (s.wave k).control = none)
    (hf : (s.wave k).flights = []) (hh : s.trapHalts k t.cause = false) (hs : t.cause ≠ causeStep) :
    ∃ (r : State) (bs : List Byte),
      s.takeTrap k t = (r.onWave k fun w => w.entering t (s.kernelOf (s.wave k)).trap) ∧
      SameWaves ((s.closeWindows k t.lanes).onWave k fun w => w.trapped t) r ∧ bs.length = 256 ∧
      r.mem = s.mem.write ((s.launch (s.launchOf (s.wave k))).ring +
        256 * ((s.launch (s.launchOf (s.wave k))).records % 64)) bs := by
  have kernel := s.kernelOf_onLanes k t.lanes fun x => { x with windows := [] }
  have launch := s.launchOf_onLanes k t.lanes fun x => { x with windows := [] }
  have halts : (s.closeWindows k t.lanes).trapHalts k t.cause = false :=
    (s.trapHalts_onLanes k t.lanes _ t.cause).trans hh
  have priv : ((s.closeWindows k t.lanes).wave k).priv = false := by simp [State.closeWindows, Wave.priv, hc]
  have step : (t.cause == causeStep) = false := by simpa using hs
  unfold State.takeTrap
  rw [s.landAll_of_none k hf, ← launch, ← kernel]
  dsimp only
  simp only [halts, priv, step, Bool.false_eq_true, if_false]
  refine ⟨_, _, rfl, State.putRecord_waves _ _ _ _, ?_, State.putRecord_mem ..⟩
  rw [wordBytes_length, State.record_length]

/-- A wave whose trap is being taken: its lane set waits no more, its windows close, its registers are written. -/
def Wave.delivered (w : Wave) (t : Trap) : Wave :=
  ((w.woken t.lanes).onLanes t.lanes fun x => { x with windows := [] }).trapped t

/-- What of a thread a trap's delivery does not touch. -/
def Lane.kept (x : Lane) : Lane :=
  { x with
    pc := 0, epc := 0, wait := .none, windows := [], chain := false, passed := 0, held := false, code := none }

section
variable {w v : Wave} {t : Trap} (h : SameWave (w.delivered t) v) (entry : BitVec 64) (x : Nat)
include h

/-- The lanes that no trap is taken for are as before. -/
theorem Wave.lane_handler_outside (hx : x ∉ t.lanes) :
    ((v.entering t entry).spent t.lanes).lane x = w.lane x := by
  calc ((v.entering t entry).spent t.lanes).lane x
      = v.lane x := (Wave.lane_onLanes_ne _ _ _ _ hx).trans (Wave.lane_onLanes_ne _ _ _ _ hx)
    _ = (w.delivered t).lane x := SameWave.lane h x
    _ = w.lane x := (Wave.lane_onLanes_ne _ _ _ _ hx).trans
      ((Wave.lane_onLanes_ne _ _ _ _ hx).trans (Wave.lane_onLanes_ne _ _ _ _ hx))

/-- A trap's delivery keeps every lane's names, call depth and stack. -/
theorem Wave.lane_handler_kept : (((v.entering t entry).spent t.lanes).lane x).kept = (w.lane x).kept := by
  have keep (u : Wave) (f : Lane → Lane) (hf : ∀ y, (f y).kept = y.kept) :
      ((u.onLanes t.lanes f).lane x).kept = (u.lane x).kept := Wave.lane_onLanes_keep Lane.kept u t.lanes f hf x
  have entered : (((v.entering t entry).spent t.lanes).lane x).kept = (v.lane x).kept := by
    refine (keep _ _ ?_).trans (keep _ _ ?_) <;> exact fun _ => rfl
  have delivered : ((w.delivered t).lane x).kept = (w.lane x).kept := by
    refine (keep _ _ ?_).trans ((keep _ _ ?_).trans (keep _ _ ?_)) <;> exact fun _ => rfl
  rw [entered, SameWave.lane h x, delivered]

/-- Each lane of the set enters the handler, with the trapping PC in its CR.EPC (R324). -/
theorem Wave.lane_handler_inside (hx : x ∈ t.lanes) (hn : t.lanes.Nodup) (hs : t.cause ≠ causeStep) :
    (((v.entering t entry).spent t.lanes).lane x).pc = entry ∧
      (((v.entering t entry).spent t.lanes).lane x).epc = t.pc := by
  have lane : ((v.entering t entry).spent t.lanes).lane x =
      { (w.delivered t).lane x with pc := entry, code := none, passed := 0, held := false } := by
    rw [← SameWave.lane h x]
    refine (Wave.lane_onLanes_mem _ _ _ _ hx hn).trans ?_
    exact congrArg (fun y : Lane => { y with passed := 0, held := false }) (Wave.lane_onLanes_mem _ _ _ _ hx hn)
  have epc : ((w.delivered t).lane x).epc = t.pc := by
    refine (congrArg Lane.epc (Wave.lane_onLanes_mem _ _ _ _ hx hn) :).trans ?_
    simp [hs]
  rw [lane]
  exact ⟨rfl, epc⟩

/-- The wave's registers after a trap's delivery. -/
theorem Wave.handler_regs : let z := (v.entering t entry).spent t.lanes
    z.trapc = BitVec.ofNat 16 t.cause ∧ z.trapa = t.addr ∧ z.trapm = true ∧ z.handler = t.lanes ∧ z.unif = w.unif := by
  have cause : v.trapc = BitVec.ofNat 16 t.cause := (congrArg Wave.trapc h :)
  have addr : v.trapa = t.addr := (congrArg Wave.trapa h :)
  have unif : v.unif = w.unif := by
    refine (congrArg Wave.unif h :).trans ?_
    simp [Wave.delivered, Wave.trapped, Wave.woken]
  simp [Wave.spent, Wave.entering, cause, addr, unif]

end

/-- A trap raised for the lane set of a core's wave, that can be delivered and does not halt (R324, R325): the wave
enters the handler, its fault record is written to the launch's ring, and else only places in views differ. -/
theorem State.raiseTrap_enters (s : State) (k : Nat) (t : Trap) (hn : t.lanes.Nodup)
    (hc : (s.wave k).control = none) (hf : (s.wave k).flights = []) (hp : (s.wave k).pend = none)
    (hd : s.deliverable k t = true) (hh : s.trapHalts k t.cause = false) (hs : t.cause ≠ causeStep) :
    ∃ (r : State) (bs : List Byte), s.raiseTrap k t = (r.onWave k fun w => w.entering t (s.kernelOf (s.wave k)).trap) ∧
      SameWave ((s.wave k).delivered t) (r.wave k) ∧ (∀ j, j ≠ k → SameWave (s.wave j) (r.wave j)) ∧
      bs.length = 256 ∧
      r.mem = s.mem.write ((s.launch (s.launchOf (s.wave k))).ring +
        256 * ((s.launch (s.launchOf (s.wave k))).records % 64)) bs := by
  have kernel := s.kernelOf_onLanes k t.lanes fun x => { x with wait := .none }
  have launch := s.launchOf_onLanes k t.lanes fun x => { x with wait := .none }
  obtain ⟨r, bs, htake, views, hlen, mem⟩ := (s.onWave k fun w => w.woken t.lanes).takeTrap_enters k t
    (by simp [Wave.woken, hc]) (by simp [Wave.woken, hf]) ((s.trapHalts_onLanes k t.lanes _ t.cause).trans hh) hs
  have wave (j : Nat) : ((((s.onWave k fun w => w.woken t.lanes).closeWindows k t.lanes).onWave k
      fun w => w.trapped t).wave j) = if j = k then (s.wave k).delivered t else s.wave j := by
    unfold State.closeWindows
    rw [State.onWave_onWave, State.onWave_onWave, State.wave_onWave]
    rfl
  refine ⟨r, bs, ?_, ?_, fun j hj => ?_, hlen, ?_⟩
  · rw [s.raiseTrap_delivered k t hn hp hd, htake]
    exact congrArg (fun e => r.onWave k fun w => w.entering t (Kernel.trap e)) kernel
  · have := views k
    rwa [wave, if_pos rfl] at this
  · have := views j
    rwa [wave, if_neg hj] at this
  · rw [mem]
    exact congrArg (fun l => s.mem.write ((s.launch l).ring + 256 * ((s.launch l).records % 64)) bs) launch

/-! ## The turn of a lane set that traps -/

/-- The first trap of a turn is raised, and the turn is over (R9, R151). -/
theorem State.trapTurn_first (s : State) (cause : Nat) (addr : BitVec 64) (lane : Nat) (htr : s.iss.trapped = false)
    (hst : s.iss.stepped = []) :
    let r := s.raiseTrap s.iss.wave ⟨cause, addr, lane, s.issuing, s.iss.pc, false⟩
    (∀ j, (s.trapTurn cause addr lane).wave j = (r.onWave s.iss.wave fun w => w.spent s.issuing).wave j) ∧
      (s.trapTurn cause addr lane).mem = r.mem := by
  unfold State.trapTurn
  rw [htr, hst]
  exact ⟨fun _ => rfl, rfl⟩

/-- The first trap of a turn, where it can be delivered and does not halt: what the turn leaves of the wave that traps,
of the other waves and of home memory. -/
theorem State.trapTurn_enters (s : State) (t : Trap) (ht : t = ⟨t.cause, t.addr, t.lane, s.issuing, s.iss.pc, false⟩)
    (hc : s.cur.control = none) (htr : s.iss.trapped = false) (hst : s.iss.stepped = []) (hp : s.cur.pend = none)
    (hd : s.deliverable s.iss.wave t = true) (hh : s.trapHalts s.iss.wave t.cause = false) (hs : t.cause ≠ causeStep)
    (hf : s.cur.flights = []) :
    ∃ (v : Wave) (bs : List Byte), SameWave (s.cur.delivered t) v ∧
      (s.trapTurn t.cause t.addr t.lane).wave s.iss.wave =
        (v.entering t (s.kernelOf s.cur).trap).spent t.lanes ∧
      (∀ j, j ≠ s.iss.wave → SameWave (s.wave j) ((s.trapTurn t.cause t.addr t.lane).wave j)) ∧ bs.length = 256 ∧
      (s.trapTurn t.cause t.addr t.lane).mem = s.mem.write ((s.launch (s.launchOf s.cur)).ring +
        256 * ((s.launch (s.launchOf s.cur)).records % 64)) bs := by
  have lanes : t.lanes = s.issuing := by rw [ht]
  obtain ⟨hwave, hturn⟩ := s.trapTurn_first t.cause t.addr t.lane htr hst
  obtain ⟨r, bs, eraise, hv, hothers, hlen, hmem⟩ :=
    s.raiseTrap_enters s.iss.wave t (lanes ▸ s.issuing_nodup) hc hf hp hd hh hs
  rw [← ht, eraise] at hwave hturn
  rw [State.onWave_onWave, ← lanes] at hwave
  refine ⟨r.wave s.iss.wave, bs, hv, ?_, fun j hj => ?_, hlen, hturn.trans hmem⟩
  · rw [hwave, State.wave_onWave_same]
    rfl
  · rw [hwave, State.wave_onWave, if_neg hj]
    exact hothers j hj

/-! ## The return (R351) -/

/-- RTT outside trap mode. -/
theorem State.rttEff_outside (s : State) (o : Ops) (act : List Nat) (hm : s.cur.trapm = false) :
    s.rttEff o act = .trap causePriv 0 (act.headD 0) := by
  simp [State.rttEff, hm]

theorem State.endTrapMode_single (s : State) (k : Nat) : ((s.endTrapMode k).wave k).single = (s.wave k).single := by
  unfold State.endTrapMode
  rw [State.wave_onWave_same]

/-- RTT's effect where every lane that the handler holds is at it. -/
theorem State.rttEff_whole (s : State) (o : Ops) (act : List Nat) (hm : s.cur.trapm = true)
    (hw : ∀ l ∈ s.seen.present, l ∈ s.issuing) : s.rttEff o act =
      .jump (s.endTrapMode s.iss.wave) (s.returnPcs s.iss.wave s.issuing (bit o.s2.toNat 0)) false := by
  have whole : s.seen.present.all s.issuing.contains = true := by simpa [List.all_eq_true] using hw
  simp [State.rttEff, hm, State.whole, whole]

end Sys2Proof.Machine

namespace Sys2Proof.Proofs

open Sys2Proof.Machine Sys2Proof.Claims

/-- Settles O35: TRAP and BRK trap; a trap's delivery is followed from its registers over the record in the launch's
ring to the handler's entry; RTT's effect is the end of trap mode with the lanes at their return PCs. -/
theorem trapsAndReturns : Obligations.TrapsAndReturns := by
  unfold Obligations.TrapsAndReturns
  refine ⟨fun s o => ⟨fun h => ?_, fun h => ?_⟩, ?_, fun s o h => ⟨fun hm => ?_, fun hm hw => ?_⟩⟩
  · exact congrArg Host.Outcome.next (s.issue_trap _ _ _ _ _ h rfl (by decide))
  · exact congrArg Host.Outcome.next (s.issue_trap _ _ _ _ _ h rfl (by decide))
  · intro s cause addr lane k l ring hc htr hst hp hd hh hs hf hwf
    obtain ⟨v, bs, hv, own, others, hlen, mem⟩ :=
      s.trapTurn_enters ⟨cause, addr, lane, s.issuing, s.iss.pc, false⟩ rfl hc htr hst hp hd hh hs hf
    obtain ⟨htrapc, htrapa, htrapm, hhandler, hunif⟩ := Wave.handler_regs hv (s.kernelOf s.cur).trap
    dsimp only at own mem ⊢
    rw [own]
    refine ⟨htrapc, htrapa, htrapm, hhandler, hunif, fun x hx => ?_, fun x hx => ?_, fun x => ?_, others,
      fun a ha => ?_⟩
    · exact (Wave.lane_handler_inside hv _ x hx s.issuing_nodup hs).symm
    · have e := Wave.lane_handler_outside hv (s.kernelOf s.cur).trap x hx
      exact ⟨congrArg Lane.epc e, congrArg Lane.pc e⟩
    · have e := Wave.lane_handler_kept hv (s.kernelOf s.cur).trap x
      exact ⟨(congrArg Lane.names e :), (congrArg Lane.depth e :), (congrArg Lane.preds e :), (congrArg Lane.count e :)⟩
    · rw [mem]
      exact Memory.get_write_outside s.mem hwf ring bs a (by omega)
  · exact congrArg Host.Outcome.next (s.issue_trap _ _ _ _ _ h (s.rttEff_outside o _ hm) (by decide))
  · refine ⟨_, rfl, ?_⟩
    rw [s.issue_ready _ _ h, s.rttEff_whole o _ hm hw]
    exact s.retire_retired _ _ _ _ false rfl ((s.endTrapMode_single _).trans (s.ready_single _ h))

end Sys2Proof.Proofs
end

section
/-! Proofs: a lane instruction's result is the only one, and ACTM's live lanes are those from before the cycle (R150,
R167). -/

namespace Sys2Proof.Machine

open Sys2Proof.Claims

/-- Two results of one instruction that write the same lane name write the same value there. -/
theorem ThreadResult.value_eq {i : Instr} {s t : State} {d : Nat} {f g : Nat → Nat} {v w : Wave → Wave}
    (hf : ThreadResult i s t (s.toNext i fun l a => { a with names := a.names.put d (s.atWidth d (f l)) }) v)
    (hg : ThreadResult i s t (s.toNext i fun l a => { a with names := a.names.put d (s.atWidth d (g l)) }) w)
    (l : Nat) (hl : l ∈ s.active i) : s.atWidth d (f l) = s.atWidth d (g l) := by
  have hi := s.active_issuing i l hl
  have e := (hf.set l hi).symm.trans (hg.set l hi)
  rw [s.toNext_active i _ l _ hl, s.toNext_active i _ l _ hl] at e
  have names := congrArg (fun a : Lane => a.names.get 0 d) e
  simpa [Tab.get_put_same] using names

/-- ACTM.LIVE writes the live lanes as they stood before the cycle (R150, R167). -/
theorem exec_actm_live (s : State) (o : Ops) (h : s.ready (.actm o) = true) (hm : bit o.mod.toNat 0 = true) :
    Answers (.actm o) s fun t => ThreadResult (.actm o) s t
      (s.toNext (.actm o) fun _ a => { a with
        names := a.names.put o.dst.toNat (s.atWidth o.dst.toNat (maskOf s.seen.live).toNat) })
      (fun w => w.cancelLane o.dst.toNat (s.active (.actm o))) :=
  ⟨_, rfl, s.issue_laneEff (.actm o) o.dst.toNat (fun _ => (maskOf s.seen.live).toNat) h _ (by rw [hm]; rfl)⟩

/-! ## A cycle in which half of a wave exits before the other half asks which lanes live -/

/-- A wave of 16 lanes of which the upper half has exited. -/
def halfExitedWave : Wave :=
  { probeWave with lanes := (List.range 16).map fun l => (l, { probeLane with exited := decide (8 ≤ l) }) }

/-- The second turn of a cycle, of the wave's lower half: in the first, its upper half has exited. -/
def lateState : State :=
  let s := State.reset.placeCode ⟨0, 0, 0, 0⟩
  { s with
    iss := { Issue.of 1 (List.range 8) with late := true, before := s.waves, blocks := s.blocks, gangs := s.gangs }
    waves := s.waves.put 1 halfExitedWave }

/-- The operands of `ACTM.LIVE %9`. -/
def actmLive : Ops := ⟨false, false, .always, false, false, false, 1, 9, 0, 0, 0⟩

theorem lateState_ready : lateState.ready (.actm actmLive) = true := by decide +kernel

/-- The lanes that live now are not those that lived before the cycle. -/
theorem lateState_masks : lateState.atWidth 9 (maskOf lateState.cur.live).toNat = 0xFF ∧
    lateState.atWidth 9 (maskOf lateState.seen.live).toNat = 0xFFFF := by decide +kernel

end Sys2Proof.Machine

namespace Sys2Proof.Proofs

open Sys2Proof.Machine Sys2Proof.Claims

/-- Refutes O8: its table gives ACTM.LIVE the lanes that live when it executes, and the model those that lived before
the cycle. They differ where another lane set of the wave has exited earlier in the same cycle: at `lateState` lane 0
receives 0xFFFF, where the statement claims 0xFF. -/
theorem not_laneIntegerResults : ¬ Obligations.LaneIntegerResults := by
  unfold Obligations.LaneIntegerResults
  rintro ⟨-, moves⟩
  obtain ⟨t, ht, claimed⟩ := moves lateState (.actm actmLive) _ _ rfl lateState_ready
  obtain ⟨u, hu, written⟩ := exec_actm_live lateState actmLive lateState_ready rfl
  cases ht.symm.trans hu
  have same : lateState.atWidth 9 (maskOf lateState.cur.live).toNat =
      lateState.atWidth 9 (maskOf lateState.seen.live).toNat :=
    claimed.value_eq written 0 (by decide +kernel)
  rw [lateState_masks.1, lateState_masks.2] at same
  exact absurd same (by decide)

end Sys2Proof.Proofs
end

section
/-! Proofs: loads and stores with generic addresses (R108-R111, R203). -/

namespace Sys2Proof.Machine

open Sys2Proof.Claims

/-! ## What an access leaves of the turn -/

/-- The turn is the same, whether each wave is stepped is as before, and no name's word has become marked where none
was. -/
structure KeepsTurn (s t : State) : Prop where
  iss : t.iss = s.iss
  single : ∀ k, (t.wave k).single = (s.wave k).single
  unmarked : s.badNames = [] → t.badNames = []

theorem keepsTurn_refl (s : State) : KeepsTurn s s := ⟨rfl, fun _ => rfl, id⟩

theorem KeepsTurn.trans {s t u : State} (h : KeepsTurn s t) (g : KeepsTurn t u) : KeepsTurn s u :=
  ⟨g.iss.trans h.iss, fun k => (g.single k).trans (h.single k), fun e => g.unmarked (h.unmarked e)⟩

theorem KeepsTurn.cur_single {s t : State} (h : KeepsTurn s t) : t.cur.single = s.cur.single := by
  unfold State.cur
  rw [h.iss, h.single]

theorem keepsTurn_foldl {α : Type} (f : State → α → State) (h : ∀ s a, KeepsTurn s (f s a)) (as : List α) (s : State) :
    KeepsTurn s (as.foldl f s) := by
  induction as generalizing s with
  | nil => exact keepsTurn_refl s
  | cons a as ih => exact (h s a).trans (ih _)

/-- An update of other parts of the state. -/
theorem keepsTurn_of_eq {s t : State} (hi : t.iss = s.iss) (hw : t.waves = s.waves) (hb : t.badNames = s.badNames) :
    KeepsTurn s t :=
  ⟨hi, fun k => congrArg (fun ws : Tab Wave => (ws.get Wave.absent k).single) hw, fun e => hb.trans e⟩

theorem State.onWave_keepsTurn (s : State) (k : Nat) (f : Wave → Wave)
    (hf : (f (s.wave k)).single = (s.wave k).single) : KeepsTurn s (s.onWave k f) := by
  refine ⟨rfl, fun j => ?_, id⟩
  rw [State.wave_onWave]
  split
  · next e => rw [hf, e]
  · rfl

theorem ite_keepsTurn {s t u : State} (c : Prop) [Decidable c] (ht : KeepsTurn s t) (hu : KeepsTurn s u) :
    KeepsTurn s (if c then t else u) := by
  split
  · exact ht
  · exact hu

theorem State.unmarkNames_keepsTurn (s : State) (p : ErrPlace → Bool) : KeepsTurn s (s.unmarkNames p) := by
  unfold State.unmarkNames
  split
  · exact keepsTurn_refl s
  · exact ⟨rfl, fun _ => rfl, fun e => by simp [e]⟩

theorem State.unmarkNames_of_none (s : State) (p : ErrPlace → Bool) (h : s.badNames = []) : s.unmarkNames p = s := by
  simp [State.unmarkNames, h]

/-! ### Loads -/

theorem State.fills_keepsTurn (s : State) (w : Wave) (vas : List Nat) : KeepsTurn s (s.fills w vas) := by
  refine keepsTurn_foldl _ (fun s va => ?_) vas s
  split
  · exact keepsTurn_of_eq rfl rfl rfl
  · exact keepsTurn_refl s

theorem State.hear_keepsTurn (s : State) (k : Nat) (ns : List Nat) : KeepsTurn s (s.hear k ns) := by
  unfold State.hear
  split
  · exact keepsTurn_refl s
  · exact s.onWave_keepsTurn k _ rfl

theorem State.learn_keepsTurn (s : State) (k : Nat) (pas : List Nat) : KeepsTurn s (s.learn k pas) := by
  unfold State.learn
  split
  · exact keepsTurn_refl s
  · exact s.hear_keepsTurn k _

theorem State.learnScratch_keepsTurn (s : State) (k buf : Nat) (offs : List Nat) :
    KeepsTurn s (s.learnScratch k buf offs) := by
  unfold State.learnScratch
  split
  · exact keepsTurn_refl s
  · exact s.hear_keepsTurn k _

theorem State.openWindow_keepsTurn (s : State) (k : Nat) (ls : List Nat) (u : Bool) (name n : Nat) :
    KeepsTurn s (s.openWindow k ls u name n) := by
  refine s.onWave_keepsTurn k _ (Wave.foldl_keep Wave.single _ ?_ ls _)
  intro w l
  rfl

theorem State.flyLanes_keepsTurn (s : State) (ls : List Nat) (name : Nat) (vals : List (Nat × BitVec 64)) (fl : Flags) :
    KeepsTurn s (s.flyLanes ls name vals fl) := by
  refine (s.openWindow_keepsTurn s.iss.wave ls false name s.iss.look).trans ?_
  unfold State.flyLanes
  exact State.onWave_keepsTurn _ _ _ rfl

theorem State.fromMem_keepsTurn (s : State) (src : Nat) : KeepsTurn s (s.fromMem src) := by
  refine s.onWave_keepsTurn _ _ ?_
  split <;> rfl

theorem State.sendRemote_keepsTurn (s : State) (k l name pa z : Nat) (ask : RemoteOp) (sign : Bool)
    (acq : Option Nat) : KeepsTurn s (s.sendRemote k l name pa z ask sign acq).1 :=
  keepsTurn_of_eq rfl rfl rfl

theorem State.flyRemote_keepsTurn (s : State) (l name id : Nat) : KeepsTurn s (s.flyRemote l name id) := by
  refine (s.flyLanes_keepsTurn [l] name [(l, 0)] 0).trans ?_
  unfold State.flyRemote
  exact State.onWave_keepsTurn _ _ _ rfl

/-! ### Stores to home memory -/

theorem State.restamp_keepsTurn (s : State) (pa n : Nat) : KeepsTurn s (s.restamp pa n) where
  iss := rfl
  single k := (congrArg Wave.single ((s.restamp_reordered pa n).waves k) :)
  unmarked := id

theorem State.overtake_keepsTurn (s : State) (pa len : Nat) : KeepsTurn s (s.overtake pa len) := by
  unfold State.overtake
  split
  · exact keepsTurn_refl s
  · refine keepsTurn_foldl _ (fun s i => keepsTurn_foldl _ (fun s v => ?_) _ _) _ _
    dsimp only
    split
    · exact s.restamp_keepsTurn _ _
    · exact keepsTurn_refl s

theorem State.pushBytes_keepsTurn (s : State) (pa : Nat) (bs : List Byte) : KeepsTurn s (s.pushBytes pa bs) := by
  have bytes : KeepsTurn s (bs.zipIdx.foldl (fun s p => s.pushByte (pa + p.2) p.1) s) := by
    refine keepsTurn_foldl _ (fun s p => ?_) _ s
    exact keepsTurn_of_eq rfl rfl rfl
  exact bytes.trans (keepsTurn_of_eq rfl rfl rfl)

theorem State.storeLines_keepsTurn (s : State) (cluster pa : Nat) (bs : List Byte) (n : Nat) :
    KeepsTurn s (s.storeLines cluster pa bs n) := by
  unfold State.storeLines
  split <;> exact keepsTurn_of_eq rfl rfl rfl

theorem State.unmark_keepsTurn (s : State) (pa len : Nat) : KeepsTurn s (s.unmark pa len) :=
  keepsTurn_of_eq rfl rfl rfl

theorem State.seeBlock_keepsTurn (s : State) (k pa len n : Nat) : KeepsTurn s (s.seeBlock k pa len n) :=
  keepsTurn_foldl _ (fun s j => s.onWave_keepsTurn j _ rfl) _ s

theorem State.storeHome_keepsTurn (s : State) (k pa : Nat) (bs : List Byte) : KeepsTurn s (s.storeHome k pa bs) :=
  (s.pushBytes_keepsTurn pa bs).trans <| (State.unmark_keepsTurn ..).trans <| (State.storeLines_keepsTurn ..).trans <|
    (State.overtake_keepsTurn ..).trans (State.seeBlock_keepsTurn ..)

theorem State.noteProp_keepsTurn (s : State) (leaf pa : Nat) : KeepsTurn s (s.noteProp leaf pa) := by
  unfold State.noteProp
  dsimp only
  split <;> split <;> exact keepsTurn_of_eq rfl rfl rfl

/-! ### Stores to scratch buffers -/

theorem State.setScratch_keepsTurn (s : State) (b buf : Nat) (v : Scratch) : KeepsTurn s (s.setScratch b buf v) := by
  unfold State.setScratch
  dsimp only
  split <;> exact keepsTurn_of_eq rfl rfl rfl

theorem State.writeScratch_keepsTurn (s : State) (b buf off : Nat) (bs : List Byte) (lane : Option Nat) :
    KeepsTurn s (s.writeScratch b buf off bs lane) :=
  (s.setScratch_keepsTurn b buf _).trans (keepsTurn_of_eq rfl rfl rfl)

theorem State.unmarkScratch_keepsTurn (s : State) (b buf off len : Nat) :
    KeepsTurn s (s.unmarkScratch b buf off len) := by
  unfold State.unmarkScratch
  split
  · exact keepsTurn_refl s
  · exact ⟨rfl, fun _ => rfl, fun e => by simp [e]⟩

theorem State.scratchWrite_keepsTurn (s : State) (k buf off : Nat) (bs : List Byte) :
    KeepsTurn s (s.scratchWrite k buf off bs) := by
  unfold State.scratchWrite
  refine KeepsTurn.trans ?_ ((State.unmarkScratch_keepsTurn ..).trans (State.writeScratch_keepsTurn ..))
  split <;> exact keepsTurn_of_eq rfl rfl rfl

/-! ### Stores through the vault window -/

theorem Wave.soil_single (w : Wave) (width name : Nat) (ls : List Nat) : (w.soil width name ls).single = w.single :=
  (congrArg Wave.single (w.soil_arch width name ls) :)

theorem State.setSlotByte_keepsTurn (s : State) (b k cls name off : Nat) (v : Byte) :
    KeepsTurn s (s.setSlotByte b k cls name off v) := by
  unfold State.setSlotByte
  split
  · exact s.onWave_keepsTurn k _ (Wave.soil_single ..)
  · exact s.onWave_keepsTurn k _ rfl
  · exact s.writeScratch_keepsTurn b name off [v] none
  · exact keepsTurn_of_eq rfl rfl rfl

theorem State.reviveSlot_keepsTurn (s : State) (k name off len : Nat) : KeepsTurn s (s.reviveSlot k name off len) := by
  unfold State.reviveSlot
  exact s.onWave_keepsTurn k _ (Wave.onLanes_single ..)

theorem State.unmarkSlot_keepsTurn (s : State) (b k cls name off len : Nat) :
    KeepsTurn s (s.unmarkSlot b k cls name off len) := by
  refine KeepsTurn.trans ?_ (State.unmarkNames_keepsTurn ..)
  split
  · exact s.unmarkScratch_keepsTurn b name off len
  · exact keepsTurn_refl s

theorem State.vaultWrite_keepsTurn (s : State) (pa : Nat) (bs : List Byte) : KeepsTurn s (s.vaultWrite pa bs) := by
  unfold State.vaultWrite
  split
  · dsimp only
    refine KeepsTurn.trans ?_ (ite_keepsTurn _ (State.reviveSlot_keepsTurn ..) (keepsTurn_refl _))
    refine KeepsTurn.trans ?_ (State.unmarkSlot_keepsTurn ..)
    exact keepsTurn_foldl _ (fun _ _ => State.setSlotByte_keepsTurn ..) _ s
  · exact keepsTurn_of_eq rfl rfl rfl

/-! ### Whole stores -/

theorem State.physWrite_keepsTurn (s : State) (k pa leaf : Nat) (bs : List Byte) :
    KeepsTurn s (s.physWrite k pa leaf bs) := by
  unfold State.physWrite
  split
  · exact keepsTurn_foldl _ (fun _ _ => (State.noteProp_keepsTurn ..).trans (State.storeHome_keepsTurn ..)) _ s
  · exact s.vaultWrite_keepsTurn pa bs
  · exact keepsTurn_refl s

theorem State.access1_keepsTurn (s : State) (k kind addr : Nat) : KeepsTurn s (s.access1 k kind addr) :=
  keepsTurn_of_eq rfl rfl rfl

theorem State.storeLane_keepsTurn (s : State) (pas : List (Nat × Nat × Nat)) (l va : Nat) (bs : List Byte) :
    KeepsTurn s (s.storeLane pas l va bs) := by
  unfold State.storeLane
  dsimp only
  split
  · split
    · exact State.sendRemote_keepsTurn ..
    · exact (State.physWrite_keepsTurn ..).trans (State.access1_keepsTurn ..)
  · exact (State.scratchWrite_keepsTurn ..).trans (State.access1_keepsTurn ..)

theorem State.unmarkAll_keepsTurn (s : State) (rs : List (Nat × Nat)) : KeepsTurn s (s.unmarkAll rs) := by
  unfold State.unmarkAll
  split
  · exact keepsTurn_refl s
  · dsimp only
    refine KeepsTurn.trans (t := { s with bad := s.bad.filter fun a => !wholeWord rs a })
      (keepsTurn_of_eq rfl rfl rfl) (keepsTurn_foldl _ (fun s a => ?_) _ _)
    split
    · exact State.unmarkSlot_keepsTurn ..
    · exact keepsTurn_refl s

/-! ## Where no word is marked (R216, R332, R333) -/

theorem length_eraseDups_flatMap_nil {α β : Type} [BEq β] (as : List α) :
    ((as.flatMap fun _ => ([] : List β)).eraseDups).length = 0 := by
  have none : (as.flatMap fun _ => ([] : List β)) = [] := List.flatMap_eq_nil_iff.mpr fun _ _ => rfl
  rw [none]
  rfl

theorem State.noteErrs_zero (s : State) (k src cls name : Nat) : s.noteErrs k src cls name 0 = s := rfl

theorem State.badWords_of_none (s : State) (hb : s.bad = []) (hn : s.badNames = []) (pa n : Nat) :
    s.badWords pa n = [] := by
  unfold State.badWords
  split
  · simp [hb]
  · simp [hb, hn]
  · rfl

theorem State.badScratch_of_none (s : State) (hn : s.badNames = []) (b buf off n : Nat) :
    s.badScratch b buf off n = [] := by
  simp [State.badScratch, hn]

theorem State.scratchRead_of_none (s : State) (hn : s.badNames = []) (b buf off n : Nat) :
    s.scratchRead b buf off n = ofLe ((List.range n).map fun i => s.scratchByte b buf (off + i)) := by
  simp [State.scratchRead, s.badScratch_of_none hn]

theorem State.scratchPast_badNames (s : State) : s.scratchPast.badNames = s.badNames := by
  unfold State.scratchPast State.past
  split <;> rfl

theorem State.foldl_unmarkScratchAll_of_none (s : State) (hn : s.badNames = []) (b : Nat)
    (rs : Nat → List (Nat × Nat)) (bufs : List Nat) :
    bufs.foldl (fun t buf => t.unmarkScratchAll b buf (rs buf)) s = s := by
  induction bufs with
  | nil => rfl
  | cons buf bufs ih =>
    rw [List.foldl_cons, State.unmarkScratchAll, s.unmarkNames_of_none _ hn, ih]

/-! ## LD -/

/-- What LD's reads of this device's places leave: the translations that they used, and what they tell of publications
(R212, R238). -/
def State.loadTold (s : State) (z : Nat) (as loc : List (Nat × Nat)) : State :=
  let k := s.iss.wave
  let t := s.fills s.cur ((as.filter fun a => bits a.2 63 56 == 0).map Prod.snd)
  let t := t.learn k (loc.flatMap fun p => (List.range z).map (p.2 + ·))
  (as.filter fun a => bits a.2 63 56 == 0xFE).foldl (fun r a =>
    r.learnScratch k (bits a.2 55 48) ((List.range z).map (bits a.2 31 0 + ·))) t

/-- What the lanes of this device load where no word is marked: their values leave, with what they tell of publications
(R109, R203, R238). -/
def State.loadHere (s : State) (name z : Nat) (signed : Bool) (as : List (Nat × Nat)) (pas : List (Nat × Nat × Nat)) :
    State :=
  let k := s.iss.wave
  let loc := (pas.filter fun p => !bit p.2.1 55).map fun p => (p.1, copyFor (s.dieOf s.cur) p.2.2 p.2.1)
  let ptr := as.filter fun a => bits a.2 63 56 == 0xFE
  let vals := (loc.map fun p => (p.1, loaded z signed (s.physRead k p.2 z))) ++ ptr.map fun a =>
    (a.1, loaded z signed (ofLe ((List.range z).map fun i =>
      s.scratchPast.scratchByte s.cur.block (bits a.2 55 48) (bits a.2 31 0 + i))))
  let t := s.loadTold z as loc
  if vals = [] then t else (t.flyLanes (vals.map Prod.fst) name vals 0).fromMem (if loc = [] then 3 else 4)

/-- Lanes whose places lie on other devices send requests, and their results leave (R363). -/
def State.loadRemote (s : State) (k name z : Nat) (signed : Bool) (pas : List (Nat × Nat × Nat)) : State :=
  (pas.filter fun p => bit p.2.1 55).foldl (fun r p =>
    let q := r.sendRemote k p.1 name p.2.1 z .load signed none
    q.1.flyRemote p.1 name q.2) s

theorem State.loadTold_keepsTurn (s : State) (z : Nat) (as loc : List (Nat × Nat)) :
    KeepsTurn s (s.loadTold z as loc) := by
  refine (s.fills_keepsTurn s.cur _).trans ((State.learn_keepsTurn _ s.iss.wave _).trans (keepsTurn_foldl _ ?_ _ _))
  exact fun _ _ => State.learnScratch_keepsTurn ..

theorem State.loadHere_keepsTurn (s : State) (name z : Nat) (signed : Bool) (as : List (Nat × Nat))
    (pas : List (Nat × Nat × Nat)) : KeepsTurn s (s.loadHere name z signed as pas) := by
  unfold State.loadHere
  dsimp only
  refine (s.loadTold_keepsTurn ..).trans (ite_keepsTurn _ (keepsTurn_refl _) ?_)
  exact (State.flyLanes_keepsTurn ..).trans (State.fromMem_keepsTurn ..)

theorem State.loadRemote_keepsTurn (s : State) (k name z : Nat) (signed : Bool) (pas : List (Nat × Nat × Nat)) :
    KeepsTurn s (s.loadRemote k name z signed pas) :=
  keepsTurn_foldl _ (fun _ _ => (State.sendRemote_keepsTurn ..).trans (State.flyRemote_keepsTurn ..)) _ s

/-- LD's effect once its checks are passed. -/
theorem State.loadEff_of_none (s : State) (hb : s.bad = []) (hn : s.badNames = []) (name z : Nat) (signed : Bool)
    (as : List (Nat × Nat)) (pas : List (Nat × Nat × Nat)) : s.loadEff name z signed as pas =
      .done ((s.loadHere name z signed as pas).loadRemote s.iss.wave name z signed pas) := by
  have past : s.scratchPast.badNames = [] := s.scratchPast_badNames.trans hn
  unfold State.loadEff State.loadHere State.loadRemote State.loadTold
  simp only [s.badWords_of_none hb hn, s.badScratch_of_none hn, length_eraseDups_flatMap_nil, State.noteErrs_zero,
    State.scratchRead_of_none _ past, List.foldl_map, List.map_map, Function.comp_def, List.isEmpty_iff]

/-- LD of a ready lane set whose checks pass, where no word is marked. -/
theorem State.ldEff_passed (s : State) (o : Ops) (act : List Nat) (pas : List (Nat × Nat × Nat)) (hb : s.bad = [])
    (hn : s.badNames = []) (hc : s.genericCheck .load (accessSize o) (s.eas o act) = .ok pas) :
    s.ldEff o act = .done ((s.loadHere o.dst.toNat (accessSize o) (bit o.mod.toNat 2) (s.eas o act) pas).loadRemote
      s.iss.wave o.dst.toNat (accessSize o) (bit o.mod.toNat 2) pas) := by
  unfold State.ldEff
  simp only [hc]
  exact s.loadEff_of_none hb hn ..

/-! ## ST -/

/-- What ST does once its checks are passed: its lanes' stores in ascending order, then the marks of words that they
write whole together (R109, R333). -/
def State.storeAll (s : State) (o : Ops) (as : List (Nat × Nat)) (pas : List (Nat × Nat × Nat)) : State :=
  (as.foldl (fun r a => r.storeLane pas a.1 a.2 (leBytes (accessSize o) (s.rd 64 a.1 o.s1.toNat)))
    (s.fills s.cur ((as.filter fun a => bits a.2 63 56 == 0).map Prod.snd))).unmarkAll
    ((pas.filter fun p => !bit p.2.1 55).flatMap fun p => (copiesFor p.2.2 p.2.1).map fun a => (a, accessSize o))

theorem State.storeAll_keepsTurn (s : State) (o : Ops) (as : List (Nat × Nat)) (pas : List (Nat × Nat × Nat)) :
    KeepsTurn s (s.storeAll o as pas) :=
  (s.fills_keepsTurn ..).trans <|
    (keepsTurn_foldl _ (fun _ _ => State.storeLane_keepsTurn ..) as _).trans (State.unmarkAll_keepsTurn ..)

/-- ST whose checks pass: where no name's word is marked, none of a scratch buffer is. -/
theorem State.stEff_passed (s : State) (o : Ops) (act : List Nat) (pas : List (Nat × Nat × Nat)) (hn : s.badNames = [])
    (hc : s.genericCheck .store (accessSize o) (s.eas o act) = .ok pas) :
    s.stEff o act = .done (s.storeAll o (s.eas o act) pas) := by
  have unmarked := (s.storeAll_keepsTurn o (s.eas o act) pas).unmarked hn
  unfold State.stEff
  simp only [hc, List.foldl_map]
  exact congrArg Eff.done (State.foldl_unmarkScratchAll_of_none _ unmarked ..)

/-! ## How an access ends -/

/-- An effect of a ready lane set that keeps its turn completes the instruction. -/
theorem State.completes_of_done (s : State) (i : Instr) (f : State → List Nat → Eff) (t : State)
    (he : exec i s = .next (s.issue i f)) (h : s.ready i = true) (hf : f s (s.active i) = .done t)
    (hk : KeepsTurn s t) : Completes i s t [] := by
  refine ⟨_, he, ?_⟩
  rw [s.issue_ready i f h, hf]
  exact s.retire_retired t i _ [] false (congrArg Issue.wave hk.iss) (hk.cur_single.trans (s.ready_single i h))

/-! ## Bad addresses (R109, R203) -/

/-- The trap for the first lane whose address has a fault. -/
def firstTrap (as : List (Nat × Nat)) (cause : Nat) (p : Nat → Bool) : Option (Nat × BitVec 64 × Nat) :=
  (as.find? fun a => p a.2).map fun a => (cause, BitVec.ofNat 64 a.2, a.1)

theorem firstTrap_cause {as : List (Nat × Nat)} {cause : Nat} {p : Nat → Bool} {x : Nat × BitVec 64 × Nat}
    (h : firstTrap as cause p = some x) : x.1 = cause := by
  obtain ⟨a, -, rfl⟩ := Option.map_eq_some_iff.mp h
  rfl

/-- The trap of the first check of a scratch pointer that some lane's address fails (R203). -/
def State.pointerTrap (s : State) (z : Nat) (as : List (Nat × Nat)) : Option (Nat × BitVec 64 × Nat) :=
  (firstTrap as causeCanonical fun a => bits a 63 56 == 0xFE && bits a 47 32 != 0) <|>
  (firstTrap as causeInvalid fun a => bits a 63 56 == 0xFE && decide ((s.declared s.cur).scr ≤ bits a 55 48)) <|>
  (firstTrap as causeBounds fun a =>
    bits a 63 56 == 0xFE && decide (s.scratchSize s.cur.block (bits a 55 48) < bits a 31 0 + z))

theorem addressTrap_eq (s : State) (z : Nat) (as : List (Nat × Nat)) : addressTrap s z as =
    ((firstTrap as causeCanonical fun a => bits a 63 56 != 0 && bits a 63 56 != 0xFE) <|>
      (firstTrap as causeAlign fun a => a % z != 0) <|> s.pointerTrap z as) := rfl

theorem orElse_some_cases {α : Type} {o p : Option α} {x : α} (h : (o <|> p) = some x) : o = some x ∨ p = some x := by
  cases o with
  | some y => exact .inl h
  | none => exact .inr h

theorem State.pointerTrap_cause (s : State) {z : Nat} {as : List (Nat × Nat)} {x : Nat × BitVec 64 × Nat}
    (h : s.pointerTrap z as = some x) : x.1 ≠ causeProtection := by
  rcases orElse_some_cases h with h | h
  · rw [firstTrap_cause h]; decide
  rcases orElse_some_cases h with h | h
  · rw [firstTrap_cause h]; decide
  · rw [firstTrap_cause h]; decide

/-- No check of addresses raises the trap of a denied access, which leaves its translation behind. -/
theorem addressTrap_cause {s : State} {z : Nat} {as : List (Nat × Nat)} {x : Nat × BitVec 64 × Nat}
    (h : addressTrap s z as = some x) : x.1 ≠ causeProtection := by
  rw [addressTrap_eq] at h
  rcases orElse_some_cases h with h | h
  · rw [firstTrap_cause h]; decide
  rcases orElse_some_cases h with h | h
  · rw [firstTrap_cause h]; decide
  exact s.pointerTrap_cause h

/-- The model's checks of scratch pointers find that trap. -/
theorem State.pointerCheck_eq (s : State) (z : Nat) (as : List (Nat × Nat)) :
    s.pointerCheck z as = (s.pointerTrap z as).map fun x => .trap x.1 x.2.1 x.2.2 := by
  have find (q : Nat × Nat → Bool) : (as.filter fun a => bits a.2 63 56 == 0xFE).find? q =
      as.find? fun a => bits a.2 63 56 == 0xFE && q a := by
    simp only [List.find?_filter, Bool.decide_and, Bool.decide_eq_true]
  unfold State.pointerCheck State.pointerTrap firstTrap
  simp only [find]
  cases as.find? fun a => bits a.2 63 56 == 0xFE && bits a.2 47 32 != 0 with
  | some a => rfl
  | none =>
    cases as.find? fun a => bits a.2 63 56 == 0xFE && decide ((s.declared s.cur).scr ≤ bits a.2 55 48) with
    | some a => rfl
    | none =>
      cases as.find? fun a =>
        bits a.2 63 56 == 0xFE && decide (s.scratchSize s.cur.block (bits a.2 55 48) < bits a.2 31 0 + z) <;> rfl

/-- Where nothing makes the access wait, its checks stop at the trap of the first that an address fails. -/
theorem State.genericCheck_of_addressTrap (s : State) (kind : AccKind) (z : Nat) (as : List (Nat × Nat))
    (x : Nat × BitVec 64 × Nat) (hw : ∀ bufs, s.accessWaits bufs = false) (h : addressTrap s z as = some x) :
    s.genericCheck kind z as = .error (.trap x.1 x.2.1 x.2.2) := by
  rw [addressTrap_eq] at h
  unfold firstTrap at h
  unfold State.genericCheck
  rw [hw]
  simp only [Bool.false_eq_true, if_false]
  cases hcanon : as.find? fun a => bits a.2 63 56 != 0 && bits a.2 63 56 != 0xFE with
  | some a =>
    rw [hcanon] at h
    cases h
    rfl
  | none =>
    rw [hcanon] at h
    cases halign : as.find? fun a => a.2 % z != 0 with
    | some a =>
      rw [halign] at h
      cases h
      rfl
    | none =>
      rw [halign] at h
      have hptr : s.pointerTrap z as = some x := h
      simp only [s.pointerCheck_eq, hptr, Option.map_some]

/-- No acquiring atomic of the wave is on its way, nor a write of EPI or TMERGE (R225, R280). -/
theorem State.accessWaits_of_none (s : State) (ha : s.acquiring s.iss.wave = false)
    (hu : ∀ a ∈ s.access, a.wave = s.iss.wave → a.kind ≠ 3) (bufs : List Nat) : s.accessWaits bufs = false := by
  have free : s.unitBusy bufs = false := by
    unfold State.unitBusy
    rw [List.any_eq_false]
    intro a hm e
    simp only [Bool.and_eq_true, beq_iff_eq] at e
    obtain ⟨⟨hwave, hkind⟩, -⟩ := e
    exact hu a hm hwave hkind
  rw [State.accessWaits, ha, free]
  rfl

end Sys2Proof.Machine

namespace Sys2Proof.Proofs

open Sys2Proof.Machine Sys2Proof.Claims

/-- Settles O19: LD and ST whose checks pass complete with their effects, which keep the turn; the checks stop at the
first that an address fails. -/
theorem loadsAndStores : Obligations.LoadsAndStores := by
  unfold Obligations.LoadsAndStores
  refine ⟨fun s o pas h hb hc => ?_, fun s o pas h hc => ?_, fun s o cause addr l ha hu => ?_⟩
  · have done := s.ldEff_passed o _ pas hb (s.ready_badNames _ h) hc
    exact s.completes_of_done _ _ _ rfl h done ((State.loadHere_keepsTurn ..).trans (State.loadRemote_keepsTurn ..))
  · have done := s.stEff_passed o _ pas (s.ready_badNames _ h) hc
    exact s.completes_of_done _ _ _ rfl h done (State.storeAll_keepsTurn ..)
  · have checked (kind : AccKind) (as : List (Nat × Nat))
        (ht : addressTrap s (accessSize o) as = some (cause, addr, l)) :=
      s.genericCheck_of_addressTrap kind (accessSize o) as _ (s.accessWaits_of_none ha hu) ht
    refine ⟨fun h ht => ?_, fun h ht => ?_⟩
    · have trap : s.ldEff o (s.active (.ld o)) = .trap cause addr l := by
        simp only [State.ldEff, checked .load _ ht]
      exact congrArg Host.Outcome.next (s.issue_trap _ _ _ _ _ h trap (addressTrap_cause ht))
    · have trap : s.stEff o (s.active (.st o)) = .trap cause addr l := by
        simp only [State.stEff, checked .store _ ht]
      exact congrArg Host.Outcome.next (s.issue_trap _ _ _ _ _ h trap (addressTrap_cause ht))

end Sys2Proof.Proofs
end

section
/-! Proofs: wave operations over the members of a lane's tile and mask (R155-R165). -/

namespace Sys2Proof.Machine

open Sys2Proof.Claims

/-! ## Members (R155-R158) -/

theorem tileOf_eq_iff (part l j : Nat) : tileOf part l = tileOf part j ↔ l / part = j / part := by
  rcases Nat.eq_zero_or_pos part with h | h
  · simp [tileOf, h]
  · exact Nat.mul_left_inj (Nat.ne_of_gt h)

theorem State.member_iff (s : State) (m l j : Nat) : s.member m l j = true ↔ Claims.memberOf s m l j := by
  simp only [State.member, Claims.memberOf, Bool.and_eq_true, beq_iff_eq, decide_eq_true_eq, tileOf_eq_iff, and_assoc]

theorem State.takers_eq_here (s : State) (i : Instr) (m l : Nat) : s.takers (s.active i) m l = here s i m l := by
  refine List.filter_congr fun j _ => ?_
  rw [Bool.eq_iff_iff, s.member_iff]
  simp only [Claims.memberOf, Bool.and_eq_true, decide_eq_true_eq, and_assoc]

/-- Some member of an active lane is elsewhere (R158). -/
def State.scattered (s : State) (act : List Nat) (m : Nat) : Bool :=
  s.seen.present.any fun j => !s.issuing.contains j && act.any fun l => s.member m l j

theorem State.scattered_iff (s : State) (act : List Nat) (m : Nat) : s.scattered act m = true ↔
    ∃ j ∈ s.seen.present, j ∉ s.issuing ∧ ∃ l ∈ act, Claims.memberOf s m l j := by
  simp [State.scattered, s.member_iff]

/-- A wave operation looks at members elsewhere first, then for an active lane outside its own mask. -/
theorem State.waveOp_eq (s : State) (act : List Nat) (name : Nat) (f : Nat → Eff) : s.waveOp act name f =
    if s.scattered act (s.ru act name) then .wait s (.members (BitVec.ofNat 64 (s.ru act name)))
    else match act.find? fun l => !bit (s.ru act name) l with
      | some l => .trap causeSelf (BitVec.ofNat 64 l) l
      | none => f (s.ru act name) := rfl

theorem State.waveOp_of_scattered (s : State) (act : List Nat) (name : Nat) (f : Nat → Eff)
    (h : ∃ j ∈ s.seen.present, j ∉ s.issuing ∧ ∃ l ∈ act, Claims.memberOf s (s.ru act name) l j) :
    s.waveOp act name f = .wait s (.members (BitVec.ofNat 64 (s.ru act name))) := by
  rw [s.waveOp_eq, if_pos ((s.scattered_iff _ _).mpr h)]

theorem State.waveOp_of_together (s : State) (act : List Nat) (name : Nat) (f : Nat → Eff)
    (h : ∀ j ∈ s.seen.present, j ∉ s.issuing → ∀ l ∈ act, ¬ Claims.memberOf s (s.ru act name) l j) :
    s.waveOp act name f = match act.find? fun l => !bit (s.ru act name) l with
      | some l => .trap causeSelf (BitVec.ofNat 64 l) l
      | none => f (s.ru act name) := by
  have none_elsewhere : ¬ s.scattered act (s.ru act name) = true := fun e =>
    let ⟨j, hj, out, l, hl, hm⟩ := (s.scattered_iff _ _).mp e
    h j hj out l hl hm
  rw [s.waveOp_eq, if_neg none_elsewhere]

theorem State.waveOp_gathered (s : State) (i : Instr) (name : Nat) (f : Nat → Eff)
    (h : Gathered s i (s.ru (s.active i) name)) : s.waveOp (s.active i) name f = f (s.ru (s.active i) name) := by
  obtain ⟨together, self⟩ := h
  rw [s.waveOp_of_together _ name f together, find?_none_of _ _ fun l hl => by rw [self l hl]; rfl]

/-- Every instruction with a member mask is the issue of a wave operation over it. -/
theorem exec_waveMask (s : State) (i : Instr) (m : Nat) (h : waveMask s i = some m) :
    ∃ g name f, exec i s = .next (s.issue i g) ∧ g s (s.active i) = s.waveOp (s.active i) name f ∧
      s.ru (s.active i) name = m := by
  unfold waveMask at h
  split at h <;> cases h <;> exact ⟨_, _, _, rfl, rfl, rfl⟩

/-! ## Results (R161-R164) -/

theorem shflSource_eq_shuffleFrom (mode part l b : Nat) : shflSource mode part l b = shuffleFrom mode part l b := by
  have on (t j : Nat) : (if t ≤ j && decide (j < t + part) then some j else none) =
      if (t : Int) ≤ j ∧ (j : Int) < t + part then some (j : Int).toNat else none := by
    have inTile : t ≤ j ∧ j < t + part ↔ (t : Int) ≤ j ∧ (j : Int) < t + part := by omega
    simp only [Bool.and_eq_true, decide_eq_true_eq, Int.toNat_natCast, inTile]
  match mode with
  | 0 | _ + 3 => rfl
  | 1 =>
    simp only [shflSource, shuffleFrom]
    split
    next h => rw [on, Int.ofNat_sub h]
    next h => rw [if_neg (by omega)]
  | 2 => exact on ..

theorem orFlags_map_zero (ls : List Nat) : orFlags (ls.map fun _ => (0 : Flags)) = 0 := by
  have zero : (0 : Flags) ||| 0 = 0 := BitVec.or_zero
  unfold orFlags
  induction ls with
  | nil => rfl
  | cons l ls ih => rw [List.map_cons, List.foldl_cons, zero, ih]

/-- A write of a lane name as a result whose flags are all clear. -/
theorem State.issue_laneEff_noFlags (s : State) (i : Instr) (d : Nat) (f : Nat → Nat × Flags) (h : s.ready i = true)
    (g : State → List Nat → Eff) (hf : ∀ l, (f l).2 = 0)
    (hg : g s (s.active i) = s.laneEff d (s.active i) fun l => (f l).1) :
    ThreadResult i s (s.issue i g)
      (s.toNext i fun l a => { a with names := a.names.put d (s.atWidth d (f l).1) })
      (fun w => { w.cancelLane d (s.active i) with
        fflags := w.fflags ||| orFlags ((s.active i).map fun l => (f l).2) }) := by
  have same (w : Wave) : { w.cancelLane d (s.active i) with
      fflags := w.fflags ||| orFlags ((s.active i).map fun l => (f l).2) } = w.cancelLane d (s.active i) := by
    have clear : w.fflags ||| 0 = w.fflags := BitVec.or_zero
    simp only [hf, orFlags_map_zero, clear]
    rfl
  simp only [same]
  exact s.issue_laneEff i d (fun l => (f l).1) h g hg

theorem State.tileVals_eq (s : State) (o : Ops) (i : Instr) (m l op n : Nat) :
    s.tileVals o (s.active i) m l op n = (List.range s.part).map fun x =>
      if l / s.part * s.part + x ∈ here s i m l then s.rd n (l / s.part * s.part + x) o.s0.toNat
      else redIdentity op n (unsOf o) := by
  simp only [State.tileVals, s.takers_eq_here, tileOf, List.contains_eq_mem, decide_eq_true_eq]

/-! ## VOTE (R161) -/

theorem filter_beq_self {α : Type} [DecidableEq α] (p : α → Bool) (ls : List α) : (ls.filter p == ls) = ls.all p := by
  rw [Bool.eq_iff_iff, beq_iff_eq, List.filter_eq_self, List.all_eq_true]

theorem isEmpty_filter_eq (p : Nat → Bool) (ls : List Nat) : (ls.filter p).isEmpty = !ls.any p := by
  rw [Bool.eq_iff_iff]
  simp

/-- A gathered VOTE that pushes (R161). -/
theorem State.voteEff_push (s : State) (o : Ops) (hm : bits o.mod.toNat 1 0 ≠ 3)
    (h : Gathered s (.vote o) (s.ru (s.active (.vote o)) o.s1.toNat)) :
    s.voteEff o (s.active (.vote o)) = s.pushEff (s.active (.vote o))
      (votePush s o (s.ru (s.active (.vote o)) o.s1.toNat)) := by
  have hlt : bits o.mod.toNat 1 0 < 4 := Nat.mod_lt _ (by decide)
  unfold State.voteEff
  rw [s.waveOp_gathered _ _ _ h]
  simp only [s.takers_eq_here, filter_beq_self, isEmpty_filter_eq, Bool.not_not]
  have : bits o.mod.toNat 1 0 = 0 ∨ bits o.mod.toNat 1 0 = 1 ∨ bits o.mod.toNat 1 0 = 2 := by omega
  rcases this with e | e | e <;>
    · simp only [e]
      exact congrArg (s.pushEff _) (funext fun l => by simp only [votePush, e])

/-- A gathered VOTE that writes its members' mask (R161). -/
theorem State.voteEff_mask (s : State) (o : Ops) (hm : bits o.mod.toNat 1 0 = 3)
    (h : Gathered s (.vote o) (s.ru (s.active (.vote o)) o.s1.toNat)) :
    s.voteEff o (s.active (.vote o)) = s.laneEff o.dst.toNat (s.active (.vote o)) fun l =>
      (maskOf ((here s (.vote o) (s.ru (s.active (.vote o)) o.s1.toNat) l).filter fun j =>
        (s.cur.lane j).pred (bits o.s2.toNat 2 0))).toNat := by
  unfold State.voteEff
  rw [s.waveOp_gathered _ _ _ h]
  simp only [s.takers_eq_here, hm]

/-- A gathered SHFL (R162). -/
theorem State.shflEff_gathered (s : State) (o : Ops)
    (h : Gathered s (.shfl o) (s.ru (s.active (.shfl o)) o.s1.toNat)) :
    s.shflEff o (s.active (.shfl o)) = s.laneEff o.dst.toNat (s.active (.shfl o)) fun l =>
      (shuffleFrom (bits o.mod.toNat 1 0) s.part l (s.rd (widthOf o) l o.s2.toNat)).elim (s.rd (widthOf o) l o.s0.toNat)
        fun j => if j ∈ here s (.shfl o) (s.ru (s.active (.shfl o)) o.s1.toNat) l then s.rd (widthOf o) j o.s0.toNat
          else 0 := by
  unfold State.shflEff
  rw [s.waveOp_gathered _ _ _ h]
  refine congrArg (s.laneEff o.dst.toNat _) (funext fun l => ?_)
  simp only [s.takers_eq_here, shflSource_eq_shuffleFrom, List.contains_eq_mem, decide_eq_true_eq]
  cases shuffleFrom (bits o.mod.toNat 1 0) s.part l (s.rd (widthOf o) l o.s2.toNat) <;> rfl

/-- A gathered WRED (R163, R164). -/
theorem State.wredEff_gathered (s : State) (o : Ops)
    (h : Gathered s (.wred o) (s.ru (s.active (.wred o)) o.s1.toNat)) :
    s.wredEff o (s.active (.wred o)) = s.floatEff o.dst.toNat (s.active (.wred o)) fun l =>
      redResult (bits o.s2.toNat 3 0) (widthOf o) (unsOf o) (satOf o) false
        (s.tileVals o (s.active (.wred o)) (s.ru (s.active (.wred o)) o.s1.toNat) l (bits o.s2.toNat 3 0) (widthOf o)) := by
  unfold State.wredEff
  rw [s.waveOp_gathered _ _ _ h]

/-- A gathered WSCAN (R163, R164): the result of the values at the positions before the lane's, its own among them
unless the scan is exclusive. -/
theorem State.wscanEff_gathered (s : State) (o : Ops)
    (h : Gathered s (.wscan o) (s.ru (s.active (.wscan o)) o.s1.toNat)) :
    s.wscanEff o (s.active (.wscan o)) = s.floatEff o.dst.toNat (s.active (.wscan o)) fun l =>
      let vs := (s.tileVals o (s.active (.wscan o)) (s.ru (s.active (.wscan o)) o.s1.toNat) l (bits o.s2.toNat 3 0)
        (widthOf o)).take (if bit o.s2.toNat 4 then l - l / s.part * s.part else l - l / s.part * s.part + 1)
      if vs = [] then (redIdentity (bits o.s2.toNat 3 0) (widthOf o) (unsOf o), 0)
      else redResult (bits o.s2.toNat 3 0) (widthOf o) (unsOf o) (satOf o) true vs := by
  unfold State.wscanEff
  rw [s.waveOp_gathered _ _ _ h]
  simp only [List.isEmpty_iff, tileOf]

/-- Every wave operation with a result for a lane name is the issue of a write of it with the result's flags. -/
theorem exec_waveTable (s : State) (i : Instr) (m d : Nat) (f : Nat → Nat × Flags) (hm : waveMask s i = some m)
    (ht : waveTable s i m = some (d, f)) (hg : Gathered s i m) :
    ∃ g, exec i s = .next (s.issue i g) ∧ (g s (s.active i) = s.floatEff d (s.active i) f ∨
      (∀ l, (f l).2 = 0) ∧ g s (s.active i) = s.laneEff d (s.active i) fun l => (f l).1) := by
  unfold waveTable at ht
  split at ht
  case h_1 o =>
    cases hm
    cases ht
    refine ⟨_, rfl, .inr ⟨fun l => ?_, (s.shflEff_gathered o hg).trans (congrArg _ (funext fun l => ?_))⟩⟩
    all_goals
      dsimp only
      cases shuffleFrom (bits o.mod.toNat 1 0) s.part l (s.rd (widthOf o) l o.s2.toNat) <;> rfl
  case h_2 o =>
    cases hm
    split at ht <;> cases ht
    next hmode => exact ⟨_, rfl, .inr ⟨fun l => rfl, s.voteEff_mask o hmode hg⟩⟩
  case h_3 o =>
    cases hm
    cases ht
    refine ⟨_, rfl, .inl ((s.wredEff_gathered o hg).trans ?_)⟩
    simp only [s.tileVals_eq]
  case h_4 o =>
    cases hm
    cases ht
    refine ⟨_, rfl, .inl ((s.wscanEff_gathered o hg).trans ?_)⟩
    simp only [s.tileVals_eq]
  case h_5 => cases ht

end Sys2Proof.Machine

namespace Sys2Proof.Proofs

open Sys2Proof.Machine Sys2Proof.Claims

/-- Settles O16: once its members are gathered, a wave operation writes or pushes each active lane's result. -/
theorem waveOperationResults : Obligations.WaveOperationResults := by
  unfold Obligations.WaveOperationResults
  refine ⟨fun s i m d f hm ht h hg => ?_, fun s o hmode h hg hroom => ?_⟩
  · obtain ⟨g, he, hfloat | ⟨hflags, hlane⟩⟩ := exec_waveTable s i m d f hm ht hg
    · exact ⟨_, he, s.issue_floatEff i d f g h hfloat⟩
    · exact ⟨_, he, s.issue_laneEff_noFlags i d f h g hflags hlane⟩
  · exact ⟨_, rfl, s.issue_pushEff _ _ _ h hroom (s.voteEff_push o hmode hg)⟩

/-- Settles O17: a wave operation waits for a member elsewhere, and else traps for the first active lane that its own
mask leaves out. -/
theorem memberWaitsAndSelfExclusion : Obligations.MemberWaitsAndSelfExclusion := by
  unfold Obligations.MemberWaitsAndSelfExclusion
  intro s i m hm h
  obtain ⟨g, name, f, he, hg, rfl⟩ := exec_waveMask s i m hm
  refine ⟨fun elsewhere => ?_, fun together l self => ?_⟩
  · rw [he, s.issue_ready i g h, hg, s.waveOp_of_scattered _ name f elsewhere]
    rfl
  · rw [s.waveOp_of_together _ name f together, self] at hg
    rw [he, s.issue_trap i g _ _ _ h hg (by decide)]

end Sys2Proof.Proofs
end

section
/-! Proofs: traps that waited, and waits that cannot end (R158, R171, R176, R324). -/

namespace Sys2Proof.Machine

/-- A raised trap that is not yet delivered awaits its delivery before any that was raised after it (R193). -/
theorem Wave.awaiting_of_pend (w : Wave) (x : Trap) (h : w.pend = some x) : w.awaiting = some x := by
  rw [Wave.awaiting, h, Option.some_or]

/-- Some lane set of a deadlocked wave waits for members (R158); the first such is at the lowest PC. -/
theorem State.deadlocked_waits (s : State) (k : Nat) (h : s.deadlocked k = true) :
    ∃ pc w, (s.waits k).find? (fun x => x.2.isMembers) = some (pc, w) := by
  simp only [State.deadlocked, Bool.and_eq_true] at h
  obtain ⟨⟨⟨_, waits⟩, _⟩, _⟩ := h
  obtain ⟨⟨pc, w⟩, found⟩ := Option.isSome_iff_exists.mp (List.find?_isSome.mpr (List.any_eq_true.mp waits))
  exact ⟨pc, w, found⟩

end Sys2Proof.Machine

namespace Sys2Proof.Proofs

open Sys2Proof.Machine Sys2Proof.Claims

/-- Settles O38: each event of a wait without an end raises its trap under the condition of its rule, and a trap that
waited is taken. -/
theorem waitsWithoutAnEndTrap : Obligations.WaitsWithoutAnEndTrap := by
  unfold Obligations.WaitsWithoutAnEndTrap
  intro s
  refine ⟨fun k x hpend hdeliverable hfree => ?_, fun k hdead => ?_, fun b k horphaned hk => ?_, fun b name horphan => ?_⟩
  · show execTrapDelivery k s = _
    rw [execTrapDelivery, (s.wave k).awaiting_of_pend x hpend]
    simp [hdeliverable, hfree]
  · obtain ⟨pc, w, hfind⟩ := s.deadlocked_waits k hdead
    refine ⟨pc, w, hfind, ?_⟩
    show execMemberWaitDeadlock k s = _
    rw [execMemberWaitDeadlock, if_pos hdead, hfind]
  · show execTransferOrphaned b s = _
    rw [execTransferOrphaned, hk]
    exact congrArg Host.Outcome.next (if_pos horphaned)
  · exact congrArg Host.Outcome.next (if_pos horphan)

end Sys2Proof.Proofs
end

section
/-! Proofs: sorting by a strict order, and the order in which a core's waves are granted (R144). -/

namespace Sys2Proof.Machine

/-! ## Sorting -/

/-- A strict order that sorts: of two elements one does not come after the other, and not coming before is
transitive. -/
structure Sorts {α : Type} (lt : α → α → Bool) : Prop where
  asymm : ∀ a b, lt a b = true → lt b a = false
  trans : ∀ a b c, lt b a = false → lt c b = false → lt c a = false

theorem insertBy_perm {α : Type} (lt : α → α → Bool) (x : α) (ys : List α) : (insertBy lt x ys).Perm (x :: ys) := by
  induction ys with
  | nil => exact .refl _
  | cons y ys ih =>
    unfold insertBy
    split
    · exact .refl _
    · exact (ih.cons y).trans (.swap x y ys)

theorem insertBy_sorted {α : Type} {lt : α → α → Bool} (hlt : Sorts lt) (x : α) (ys : List α)
    (h : ys.Pairwise fun a b => lt b a = false) : (insertBy lt x ys).Pairwise fun a b => lt b a = false := by
  induction ys with
  | nil => exact List.pairwise_singleton _ x
  | cons y ys ih =>
    obtain ⟨hy, hys⟩ := List.pairwise_cons.mp h
    unfold insertBy
    split
    next hxy =>
      have before_y := hlt.asymm x y hxy
      refine List.pairwise_cons.mpr ⟨fun b hb => ?_, h⟩
      rcases List.mem_cons.mp hb with rfl | hb
      · exact before_y
      · exact hlt.trans x y b before_y (hy b hb)
    next hxy =>
      refine List.pairwise_cons.mpr ⟨fun b hb => ?_, ih hys⟩
      rcases List.mem_cons.mp ((insertBy_perm lt x ys).mem_iff.mp hb) with rfl | hb
      · exact Bool.not_eq_true _ ▸ hxy
      · exact hy b hb

theorem mem_sortBy {α : Type} (lt : α → α → Bool) (xs : List α) (x : α) : x ∈ sortBy lt xs ↔ x ∈ xs := by
  have key (ys : List α) : x ∈ xs.foldl (fun t x => insertBy lt x t) ys ↔ x ∈ ys ∨ x ∈ xs := by
    induction xs generalizing ys with
    | nil => simp
    | cons y xs ih =>
      rw [List.foldl_cons, ih, (insertBy_perm lt y ys).mem_iff, List.mem_cons, List.mem_cons, or_assoc, or_left_comm]
  exact (key []).trans (by simp)

theorem sortBy_sorted {α : Type} {lt : α → α → Bool} (hlt : Sorts lt) (xs : List α) :
    (sortBy lt xs).Pairwise fun a b => lt b a = false := by
  have key (ys : List α) (h : ys.Pairwise fun a b => lt b a = false) :
      (xs.foldl (fun t x => insertBy lt x t) ys).Pairwise fun a b => lt b a = false := by
    induction xs generalizing ys with
    | nil => exact h
    | cons y xs ih => exact ih _ (insertBy_sorted hlt y ys h)
  exact key [] .nil

/-! ## What the waves of a core offer -/

/-- Trap mode, age and slot order a core's waves (R144). -/
theorem State.before_sorts (s : State) : Sorts s.before where
  asymm a b h := by
    simp only [State.before, bne_iff_ne, ne_eq] at h ⊢
    grind
  trans a b c hab hbc := by
    simp only [State.before, bne_iff_ne, ne_eq] at hab hbc ⊢
    grind

theorem State.offer_eq_some (s : State) (k : Nat) (o : Offer) : s.offer k = some o ↔
    s.runs k = true ∧ s.readySets k ≠ [] ∧
      o = ⟨k, s.readySets k, (s.wave k).ordered ((s.readySets k).filter fun c => !(s.wave k).resting c)⟩ := by
  unfold State.offer
  split
  next h => by_cases e : s.readySets k = [] <;> simp [h, e, @eq_comm Offer]
  next h => simp [h]

theorem State.offer_wave {s : State} {k : Nat} {o : Offer} (h : s.offer k = some o) : o.wave = k := by
  obtain ⟨-, -, rfl⟩ := (s.offer_eq_some k o).mp h
  rfl

theorem State.offer_order {s : State} {k : Nat} {o : Offer} (h : s.offer k = some o) :
    o.order = (s.wave k).ordered ((s.readySets k).filter fun c => !(s.wave k).resting c) := by
  obtain ⟨-, -, rfl⟩ := (s.offer_eq_some k o).mp h
  rfl

theorem State.mem_offers (s : State) (core : Nat) (o : Offer) : o ∈ s.offers core ↔
    s.offer o.wave = some o ∧ ∃ p ∈ s.waves, p.1 = o.wave ∧ s.coreOf p.2 = core := by
  simp only [State.offers, List.mem_filterMap, mem_sortBy, List.mem_map, List.mem_filter, beq_iff_eq]
  constructor
  · rintro ⟨_, ⟨p, ⟨hp, here⟩, rfl⟩, offered⟩
    have wave := State.offer_wave offered
    exact ⟨wave ▸ offered, p, hp, wave.symm, here⟩
  · rintro ⟨offered, p, hp, wave, here⟩
    exact ⟨o.wave, ⟨p, ⟨hp, here⟩, wave⟩, offered⟩

/-- No wave's offer stands behind one that its wave goes before. -/
theorem State.offers_sorted (s : State) (core : Nat) :
    (s.offers core).Pairwise fun a b => s.before b.wave a.wave = false := by
  refine (sortBy_sorted s.before_sorts _).filterMap _ fun a b hab x hx y hy => ?_
  rw [s.offer_wave hx, s.offer_wave hy]
  exact hab

theorem Tab.mem_of_get_ne {α : Type} {d : α} {t : Tab α} {k : Nat} (h : t.get d k ≠ d) : (k, t.get d k) ∈ t := by
  induction t with
  | nil => exact absurd rfl h
  | cons p t ih =>
    obtain ⟨j, v⟩ := p
    unfold Tab.get at h ⊢
    split at h
    · exact absurd rfl h
    next hlt =>
      rw [if_neg hlt]
      split at h
      next e =>
        rw [if_pos e, e]
        exact List.mem_cons_self
      next hne =>
        rw [if_neg hne]
        exact List.mem_cons_of_mem _ (ih h)

theorem State.runs_used {s : State} {k : Nat} (h : s.runs k = true) : (s.wave k).used = true := by
  simp only [State.runs, Bool.and_eq_true] at h
  exact h.1.1.1.1

theorem State.runs_mem {s : State} {k : Nat} (h : s.runs k = true) : (k, s.wave k) ∈ s.waves :=
  Tab.mem_of_get_ne fun e => by
    have := s.runs_used h
    rw [State.wave, e] at this
    exact Bool.noConfusion this

/-! ## The first granted wave -/

theorem State.pipeFree_unclaimed (s : State) (k : Nat) (x : Pipe)
    (h : x = .v → (s.wave k).trapm = true ∨ s.withheld (s.coreOf (s.wave k)) = false) : s.pipeFree k [] [] x = true := by
  cases x <;> simp_all [State.pipeFree]

theorem State.granted_taken (s : State) (o : Offer) (os : List Offer) (cl : List Pipe) (n : Nat) (c : Cand)
    (hc : o.order.head? = some c) (hfree : s.pipeFree o.wave cl [] c.pipe = true) :
    s.granted (o :: os) cl (n + 1) = o :: s.granted os (c.pipe :: cl) n := by
  obtain ⟨cs, e⟩ := List.head?_eq_some_iff.mp hc
  simp only [State.granted, e, hfree, if_true]

theorem State.granted_skipped (s : State) (o : Offer) (os : List Offer) (cl : List Pipe) (n : Nat)
    (h : ∀ c, o.order.head? = some c → s.pipeFree o.wave cl [] c.pipe = false) :
    s.granted (o :: os) cl (n + 1) = s.granted os cl (n + 1) := by
  cases e : o.order with
  | nil => simp only [State.granted, e]
  | cons c cs => simp only [State.granted, e, h c (by rw [e]; rfl), Bool.false_eq_true, if_false]

/-- Where some wave offers a candidate whose pipe is free, the first granted wave is it or stands before it. -/
theorem State.granted_first (s : State) (o : Offer) (c : Cand) (hc : o.order.head? = some c)
    (hfree : s.pipeFree o.wave [] [] c.pipe = true) (os : List Offer) (n : Nat) (ho : o ∈ os) :
    ∃ pre o' post rest, os = pre ++ o' :: post ∧ o ∈ o' :: post ∧ s.granted os [] (n + 1) = o' :: rest ∧
      o'.order ≠ [] := by
  induction os with
  | nil => cases ho
  | cons x os ih =>
    by_cases hx : ∃ d, x.order.head? = some d ∧ s.pipeFree x.wave [] [] d.pipe = true
    · obtain ⟨d, hd, free⟩ := hx
      exact ⟨[], x, os, _, rfl, ho, s.granted_taken x os [] n d hd free, fun e => by rw [e] at hd; cases hd⟩
    · have other : o ≠ x := fun e => hx ⟨c, e ▸ hc, e ▸ hfree⟩
      obtain ⟨pre, o', post, rest, rfl, later, first, offers⟩ := ih ((List.mem_cons.mp ho).resolve_left other)
      have skipped := s.granted_skipped x (pre ++ o' :: post) [] n fun d hd =>
        Bool.eq_false_iff.mpr fun free => hx ⟨d, hd, free⟩
      exact ⟨x :: pre, o', post, rest, rfl, later, skipped.trans first, offers⟩

/-- The turns of a granted wave that has a candidate are its candidates'. -/
theorem State.turnsOf_cons (s : State) (o : Offer) (cl : List Pipe) (h : o.order ≠ []) :
    ∃ t ts, (s.turnsOf o cl).1 = t :: ts ∧ t.wave = o.wave ∧ ∃ d ∈ o.order, t.lanes = d.lanes := by
  unfold State.turnsOf
  split
  next e => exact absurd e h
  next c cs e =>
    rw [e]
    dsimp only
    split
    · exact ⟨_, _, rfl, rfl, c, List.mem_cons_self, rfl⟩
    next d hd =>
      split
      · exact ⟨_, _, rfl, rfl, c, List.mem_cons_self, rfl⟩
      · exact ⟨_, _, rfl, rfl, d, List.mem_cons_of_mem _ (List.mem_of_find?_eq_some hd), rfl⟩

theorem State.grant_first (s : State) (os : List Offer) (o : Offer) (rest : List Offer)
    (h : s.granted os [] 2 = o :: rest) (ho : o.order ≠ []) :
    (s.grant os).iss.granted = true ∧ (s.grant os).iss.wave = o.wave ∧ ∃ d ∈ o.order, (s.grant os).iss.lanes = d.lanes := by
  have turns (cl : List Pipe) : ∃ t ts, s.turns (o :: rest) cl = t :: ts ∧ t.wave = o.wave ∧
      ∃ d ∈ o.order, t.lanes = d.lanes := by
    obtain ⟨t, ts, e, hw, hd⟩ := s.turnsOf_cons o cl ho
    exact ⟨t, _, by rw [State.turns, e]; rfl, hw, hd⟩
  unfold State.grant
  dsimp only
  rw [h]
  split
  next e =>
    obtain ⟨t, ts, e', -⟩ := turns ((o :: rest).filterMap fun o => o.order.head?.map (·.pipe))
    rw [e] at e'
    cases e'
  next t ts e =>
    obtain ⟨t', ts', e', hw, hd⟩ := turns ((o :: rest).filterMap fun o => o.order.head?.map (·.pipe))
    rw [e] at e'
    cases e'
    exact ⟨rfl, hw, hd⟩

end Sys2Proof.Machine
end

section
/-! Proofs: what a core's issue of a cycle leaves of memory, threads and what pipes ask (R144, R146, R147, R237). -/

namespace Sys2Proof.Machine

open Sys2Proof.Claims

/-- Two waves have one place and mode, and their threads one architectural state. -/
structure AlikeWaves (v w : Wave) : Prop where
  trapm : w.trapm = v.trapm
  block : w.block = v.block
  control : w.control = v.control
  threads : ∀ l, (w.lane l).arch = (v.lane l).arch

theorem alikeWaves_refl (w : Wave) : AlikeWaves w w := ⟨rfl, rfl, rfl, fun _ => rfl⟩

theorem AlikeWaves.trans {u v w : Wave} (h : AlikeWaves u v) (g : AlikeWaves v w) : AlikeWaves u w :=
  ⟨g.trapm.trans h.trapm, g.block.trans h.block, g.control.trans h.control, fun l => (g.threads l).trans (h.threads l)⟩

theorem Wave.onLanes_alike (w : Wave) (ls : List Nat) (f : Lane → Lane) (hf : ∀ t, (f t).arch = t.arch) :
    AlikeWaves w (w.onLanes ls f) where
  trapm := w.onLanes_trapm ls f
  block := w.onLanes_block ls f
  control := w.onLanes_control ls f
  threads := w.lane_onLanes_keep Lane.arch ls f hf

/-- Memory, the waves' threads, places and modes, and what throttling withholds are as before. -/
structure KeepsThreads (s t : State) : Prop where
  mem : t.mem = s.mem
  blocks : t.blocks = s.blocks
  throttle : t.power.throttle = s.power.throttle
  starved : t.starved = s.starved
  waves : ∀ k, AlikeWaves (s.wave k) (t.wave k)

theorem keepsThreads_refl (s : State) : KeepsThreads s s := ⟨rfl, rfl, rfl, rfl, fun _ => alikeWaves_refl _⟩

theorem KeepsThreads.trans {s t u : State} (h : KeepsThreads s t) (g : KeepsThreads t u) : KeepsThreads s u :=
  ⟨g.mem.trans h.mem, g.blocks.trans h.blocks, g.throttle.trans h.throttle, g.starved.trans h.starved,
    fun k => (h.waves k).trans (g.waves k)⟩

theorem KeepsThreads.sameThreads {s t : State} (h : KeepsThreads s t) : SameThreads s t := fun k => (h.waves k).threads

theorem keepsThreads_foldl {α : Type} (f : State → α → State) (h : ∀ s a, KeepsThreads s (f s a)) (as : List α)
    (s : State) : KeepsThreads s (as.foldl f s) := by
  induction as generalizing s with
  | nil => exact keepsThreads_refl s
  | cons a as ih => exact (h s a).trans (ih _)

theorem State.setWave_keepsThreads (s : State) (k : Nat) (w : Wave) (h : AlikeWaves (s.wave k) w) :
    KeepsThreads s (s.setWave k w) := by
  refine ⟨rfl, rfl, rfl, rfl, fun j => ?_⟩
  rw [State.wave_setWave]
  split
  next e => exact e ▸ h
  next => exact alikeWaves_refl _

theorem State.onWave_keepsThreads (s : State) (k : Nat) (f : Wave → Wave) (h : AlikeWaves (s.wave k) (f (s.wave k))) :
    KeepsThreads s (s.onWave k f) := s.setWave_keepsThreads k _ h

/-! ## The parts of a core's issue -/

theorem State.acquire_keepsThreads (s : State) (k scope : Nat) : KeepsThreads s (s.acquire k scope) := by
  unfold State.acquire
  exact s.setWave_keepsThreads k _ ⟨rfl, rfl, rfl, fun _ => rfl⟩

theorem State.begin_keepsThreads (s : State) (k : Nat) : KeepsThreads s (s.begin k) := by
  unfold State.begin
  split
  · exact keepsThreads_refl s
  · exact (s.acquire_keepsThreads k 3).trans (State.onWave_keepsThreads _ k _ ⟨rfl, rfl, rfl, fun _ => rfl⟩)

theorem State.beginCore_keepsThreads (s : State) (core : Nat) : KeepsThreads s (s.beginCore core) :=
  keepsThreads_foldl (fun (s : State) (p : Nat × Wave) => s.begin p.1) (fun s p => s.begin_keepsThreads p.1) _ s

theorem State.passHeld_keepsThreads (s : State) (o : Offer) : KeepsThreads s (s.passHeld o) := by
  unfold State.passHeld
  split
  · exact s.onWave_keepsThreads _ _ (Wave.onLanes_alike _ _ _ fun _ => rfl)
  · exact keepsThreads_refl s

theorem State.restedCore_keepsThreads (s : State) (core : Nat) : KeepsThreads s (s.restedCore core) := by
  refine ⟨rfl, rfl, rfl, rfl, fun k => ?_⟩
  have waves : (s.restedCore core).waves =
      s.waves.map fun p => (p.1, if s.coreOf p.2 == core then p.2.rested else p.2) :=
    List.map_congr_left fun p _ => by split <;> rfl
  have each (w : Wave) : AlikeWaves w (if s.coreOf w == core then w.rested else w) := by
    split
    · exact w.onLanes_alike _ _ fun _ => rfl
    · exact alikeWaves_refl w
  rw [State.wave, State.wave, waves]
  exact Tab.get_map_rel (R := AlikeWaves) (g := fun w => if s.coreOf w == core then w.rested else w)
    (alikeWaves_refl _) each s.waves k

theorem Wave.clearHolds_alike (w : Wave) : AlikeWaves w w.clearHolds :=
  w.onLanes_alike _ (fun t => { t with held := false }) fun _ => rfl

theorem State.opportune_keepsThreads (s : State) (ts : List Turn) (o : Offer) : KeepsThreads s (s.opportune ts o) := by
  refine State.onWave_keepsThreads s o.wave (fun _ => _) ?_
  obtain ⟨trapm, block, control, threads⟩ := (s.wave o.wave).clearHolds_alike.trans
    (Wave.onLanes_alike _ ((o.ready.flatMap (·.lanes)).filter fun l =>
      !((ts.filter fun t => t.wave == o.wave).flatMap (·.lanes)).contains l) (fun t => { t with passed := t.passed + 1 })
      fun _ => rfl)
  exact ⟨trapm, block, control, threads⟩

theorem State.countFetch_keepsThreads (s : State) (k : Nat) (pc : BitVec 64) : KeepsThreads s (s.countFetch k pc) := by
  have counted (pa : Nat) : KeepsThreads s (s.countRead pa 16) := by
    unfold State.countRead State.countErrors
    split
    · exact keepsThreads_refl s
    · split
      · exact keepsThreads_refl s
      · exact ⟨rfl, rfl, rfl, rfl, fun _ => alikeWaves_refl _⟩
  unfold State.countFetch
  split
  · exact keepsThreads_refl s
  · split
    · split
      · exact keepsThreads_refl s
      · exact counted _
    · exact keepsThreads_refl s

theorem State.fills_keepsThreads (s : State) (w : Wave) (vas : List Nat) : KeepsThreads s (s.fills w vas) := by
  refine keepsThreads_foldl _ (fun s va => ?_) vas s
  split
  · exact ⟨rfl, rfl, rfl, rfl, fun _ => alikeWaves_refl _⟩
  · exact keepsThreads_refl s

theorem State.enter_keepsThreads (s : State) (t : Turn) : KeepsThreads s (s.enter t) := by
  unfold State.enter
  dsimp only
  split
  · exact keepsThreads_refl s
  · refine KeepsThreads.trans ?_ ((State.fills_keepsThreads ..).trans
      (State.onWave_keepsThreads _ _ _ (Wave.onLanes_alike _ _ _ fun _ => rfl)))
    split
    · exact s.countFetch_keepsThreads ..
    · exact keepsThreads_refl s

theorem State.grant_keepsThreads (s : State) (os : List Offer) : KeepsThreads s (s.grant os) := by
  unfold State.grant
  dsimp only
  split
  · exact keepsThreads_refl s
  next t ts _ =>
    have entered := (keepsThreads_foldl (State.opportune · (t :: ts)) (fun s o => s.opportune_keepsThreads _ o)
      (s.granted os [] 2) s).trans (keepsThreads_foldl State.enter State.enter_keepsThreads (t :: ts) _)
    exact ⟨entered.mem, entered.blocks, entered.throttle, entered.starved, entered.waves⟩

/-- The state in which a core's cycle is granted: held waves passed over, lane sets that yielded rested. -/
def State.beforeGrant (s : State) (core : Nat) : State := ((s.offers core).foldl State.passHeld s).restedCore core

theorem State.beforeGrant_keepsThreads (s : State) (core : Nat) : KeepsThreads s (s.beforeGrant core) :=
  (keepsThreads_foldl State.passHeld State.passHeld_keepsThreads _ s).trans (State.restedCore_keepsThreads ..)

theorem State.grantCore_eq (s : State) (core : Nat) : s.grantCore core =
    ((s.beginCore core).beforeGrant core).grant ((s.beginCore core).offers core) := rfl

theorem State.grantCore_keepsThreads (s : State) (core : Nat) : KeepsThreads s (s.grantCore core) :=
  (s.beginCore_keepsThreads core).trans ((State.beforeGrant_keepsThreads ..).trans (State.grant_keepsThreads ..))

theorem KeepsThreads.coreOf {s t : State} (h : KeepsThreads s t) (k : Nat) : t.coreOf (t.wave k) = s.coreOf (s.wave k) := by
  unfold State.coreOf State.block
  rw [(h.waves k).control, (h.waves k).block, h.blocks]

theorem KeepsThreads.withheld {s t : State} (h : KeepsThreads s t) (core : Nat) : t.withheld core = s.withheld core := by
  unfold State.withheld
  rw [h.throttle, h.starved]

/-! ## An eligible wave -/

/-- What an eligible wave offers. -/
theorem eligible_offers {s : State} {core k : Nat} {c : Cand} (h : Eligible s core k c) :
    ∃ o ∈ s.offers core, s.offer k = some o ∧ o.order.head? = some c := by
  have ready : s.readySets k ≠ [] := fun e => by
    have first := h.first
    rw [e] at first
    cases first
  have offered := (s.offer_eq_some k _).mpr ⟨h.runs, ready, rfl⟩
  exact ⟨_, (s.mem_offers core _).mpr ⟨offered, (k, s.wave k), State.runs_mem h.runs, rfl, h.here.2⟩, offered, h.first⟩

/-- Its first candidate's pipe is free while none is claimed, then and when the cycle is granted. -/
theorem eligible_pipeFree {s t : State} {core k : Nat} {c : Cand} (h : Eligible s core k c) (hk : KeepsThreads s t) :
    t.pipeFree k [] [] c.pipe = true := by
  refine t.pipeFree_unclaimed k c.pipe fun e => ?_
  rw [(hk.waves k).trapm, hk.coreOf, hk.withheld, h.here.2]
  exact h.pipe e

/-- The first granted wave of a core with an eligible wave is that wave or one that it does not go before. -/
theorem eligible_firstGranted {s t : State} {core k : Nat} {c : Cand} (h : Eligible s core k c) (hk : KeepsThreads s t) :
    ∃ o rest, t.granted (s.offers core) [] 2 = o :: rest ∧ o.order ≠ [] ∧ o ∈ s.offers core ∧
      (o.wave = k ∨ s.before k o.wave = false) := by
  obtain ⟨mine, hmem, offered, hc⟩ := eligible_offers h
  have wave := State.offer_wave offered
  obtain ⟨pre, o, post, rest, split, later, granted, candidates⟩ := t.granted_first mine c hc
    (wave ▸ eligible_pipeFree h hk) (s.offers core) 1 hmem
  have sorted := s.offers_sorted core
  rw [split] at sorted
  refine ⟨o, rest, granted, candidates, by rw [split]; simp, ?_⟩
  rcases List.mem_cons.mp later with rfl | later
  · exact .inl wave
  · have behind := (List.pairwise_cons.mp (List.pairwise_append.mp sorted).2.1).1 mine later
    exact .inr (wave ▸ behind)

/-- A wave that goes before the other waves of its core comes behind none of them. -/
theorem eq_of_before_others {s : State} {core k : Nat}
    (firstOf : ∀ p ∈ s.waves, p.1 ≠ k → s.coreOf p.2 = core → s.before k p.1 = true) {p : Nat × Wave}
    (hp : p ∈ s.waves) (here : s.coreOf p.2 = core) (h : p.1 = k ∨ s.before k p.1 = false) : p.1 = k := by
  rcases h with same | behind
  · exact same
  · refine Classical.byContradiction fun other => ?_
    rw [firstOf p hp other here] at behind
    cases behind

/-- A core's issue of a cycle in which a wave of it is eligible: the wave that issues first is it or one that it does not
go before, with a candidate of its own (R144, R146). -/
theorem grantCore_of_eligible (s : State) {core k : Nat} {c : Cand} (h : Eligible (s.beginCore core) core k c) :
    let r := s.beginCore core
    let t := s.grantCore core
    t.iss.granted = true ∧ (∃ p ∈ r.waves, p.1 = t.iss.wave ∧ r.coreOf p.2 = core) ∧
      (t.iss.wave = k ∨ r.before k t.iss.wave = false) ∧
      ∃ d ∈ (r.wave t.iss.wave).ordered ((r.readySets t.iss.wave).filter fun c => !(r.wave t.iss.wave).resting c),
        t.iss.lanes = d.lanes := by
  obtain ⟨o, rest, granted, candidates, hmem, first⟩ := eligible_firstGranted h (State.beforeGrant_keepsThreads _ core)
  obtain ⟨issues, wave, d, hd, lanes⟩ := State.grant_first _ _ o rest granted candidates
  obtain ⟨offered, place⟩ := (State.mem_offers _ core o).mp hmem
  dsimp only
  rw [s.grantCore_eq, wave]
  exact ⟨issues, place, first, d, State.offer_order offered ▸ hd, lanes⟩

/-- An aged first candidate of an eligible wave that goes before the core's others goes ahead (R146, R147). -/
theorem agedFirst_of_eligible (s : State) {core k : Nat} {c : Cand} (h : Eligible s core k c)
    (aged : 64 ≤ (s.wave k).passedOf ((s.wave k).setAt c.pc))
    (firstOf : ∀ p ∈ s.waves, p.1 ≠ k → s.coreOf p.2 = core → s.before k p.1 = true) : s.agedFirst k c.pc = true := by
  obtain ⟨o, rest, granted, -, hmem, first⟩ := eligible_firstGranted h (keepsThreads_refl s)
  obtain ⟨offered, p, hp, own, here⟩ := (s.mem_offers core o).mp hmem
  have mine : o.wave = k := own ▸ eq_of_before_others firstOf hp here (own.symm ▸ first)
  have head : o.order.head? = some c := by rw [State.offer_order offered, mine, h.first]
  rw [State.agedFirst, h.here.2, granted]
  simp [aged, mine, head]

end Sys2Proof.Machine

namespace Sys2Proof.Proofs

open Sys2Proof.Machine Sys2Proof.Claims

/-- Settles O36: of the sorted offers of a core the first whose pipe is free is granted, and what the cycle marks on the
way is no thread's architectural state. -/
theorem grantGoesToTheFirstWave : Obligations.GrantGoesToTheFirstWave := by
  unfold Obligations.GrantGoesToTheFirstWave
  refine ⟨fun s core k c free h => ?_, fun s core k c free begun h aged firstOf => ?_⟩
  · obtain ⟨issues, here, first, offered⟩ := grantCore_of_eligible s h
    have kept := s.grantCore_keepsThreads core
    refine ⟨s.grantCore core, ?_, issues, here, first, offered, kept.mem, kept.sameThreads⟩
    show execIssueGrant core s = _
    simp [execIssueGrant, free]
  · have eligible := begun.symm ▸ h
    obtain ⟨issues, ⟨p, hp, own, here⟩, first, offered⟩ := grantCore_of_eligible s eligible
    rw [begun] at hp here first offered
    have kept := s.grantCore_keepsThreads core
    have wave : (s.grantCore core).iss.wave = k := own ▸ eq_of_before_others firstOf hp here (own.symm ▸ first)
    refine ⟨s.grantCore core, ?_, issues, wave, offered, kept.mem, kept.sameThreads⟩
    show execLaneSetAged k c.pc s = _
    simp [execLaneSetAged, free, agedFirst_of_eligible s h aged firstOf, h.here.2]

end Sys2Proof.Proofs
end

section
/-! Proofs: blocks and gangs end (R142, R198, R375). -/

namespace Sys2Proof.Machine

open Sys2Proof.Claims

/-! ## What leaves gangs, blocks and reports -/

/-- Gangs, blocks and the reports that are due are as before. -/
structure KeepsGangs (s t : State) : Prop where
  gangs : t.gangs = s.gangs
  blocks : t.blocks = s.blocks
  reports : t.reports = s.reports

theorem keepsGangs_refl (s : State) : KeepsGangs s s := ⟨rfl, rfl, rfl⟩

theorem KeepsGangs.trans {s t u : State} (h : KeepsGangs s t) (g : KeepsGangs t u) : KeepsGangs s u :=
  ⟨g.gangs.trans h.gangs, g.blocks.trans h.blocks, g.reports.trans h.reports⟩

theorem KeepsGangs.gang {s t : State} (h : KeepsGangs s t) (g : Nat) : t.gang g = s.gang g :=
  congrArg (fun q : Tab Gang => q.get Gang.absent g) h.gangs

theorem KeepsGangs.block {s t : State} (h : KeepsGangs s t) (b : Nat) : t.block b = s.block b :=
  congrArg (fun q : Tab Block => q.get Block.absent b) h.blocks

theorem keepsGangs_foldl {α : Type} (f : State → α → State) (h : ∀ s a, KeepsGangs s (f s a)) (as : List α) (s : State) :
    KeepsGangs s (as.foldl f s) := by
  induction as generalizing s with
  | nil => exact keepsGangs_refl s
  | cons a as ih => exact (h s a).trans (ih _)

theorem ite_keepsGangs {s t u : State} (c : Prop) [Decidable c] (ht : KeepsGangs s t) (hu : KeepsGangs s u) :
    KeepsGangs s (if c then t else u) := by
  split
  · exact ht
  · exact hu

theorem State.overtake_keepsGangs (s : State) (pa len : Nat) : KeepsGangs s (s.overtake pa len) := by
  unfold State.overtake
  split
  · exact keepsGangs_refl s
  · refine keepsGangs_foldl _ (fun s i => keepsGangs_foldl _ (fun s v => ?_) _ _) _ _
    exact ite_keepsGangs _ ⟨rfl, rfl, rfl⟩ (keepsGangs_refl s)

theorem State.pushBytes_keepsGangs (s : State) (pa : Nat) (bs : List Byte) : KeepsGangs s (s.pushBytes pa bs) := by
  have pushed := keepsGangs_foldl (fun (s : State) (p : Byte × Nat) => s.pushByte (pa + p.2) p.1)
    (fun s p => ⟨rfl, rfl, rfl⟩) bs.zipIdx s
  exact pushed.trans ⟨rfl, rfl, rfl⟩

theorem State.sysWrite_keepsGangs (s : State) (pa : Nat) (bs : List Byte) : KeepsGangs s (s.sysWrite pa bs) := by
  have pushed : KeepsGangs s ((s.pushBytes pa bs).unmark pa bs.length) :=
    (s.pushBytes_keepsGangs pa bs).trans ⟨rfl, rfl, rfl⟩
  exact (pushed.trans (State.overtake_keepsGangs _ pa bs.length)).trans ⟨rfl, rfl, rfl⟩

/-! ### Releases (R237) -/

theorem State.writeLine_keepsGangs (s : State) (v : VLine) : KeepsGangs s (s.writeLine v) := by
  refine KeepsGangs.trans (t := { s with vlines := s.vlines.filter fun x => !(x.cluster == v.cluster && x.line == v.line) })
    ⟨rfl, rfl, rfl⟩ (keepsGangs_foldl _ (fun s off => ?_) _ _)
  exact KeepsGangs.trans (t := { s with mem := s.mem.set (v.line * 128 + off) (v.bytes.get 0 off) }) ⟨rfl, rfl, rfl⟩
    (State.overtake_keepsGangs ..)

theorem State.publishLoose_keepsGangs (s : State) (k scope : Nat) : KeepsGangs s (s.publishLoose k scope) := by
  unfold State.publishLoose
  exact ite_keepsGangs _ ⟨rfl, rfl, rfl⟩ ⟨rfl, rfl, rfl⟩

theorem State.release_keepsGangs (s : State) (k : Nat) : KeepsGangs s (s.release k 3) := by
  have home : KeepsGangs s (s.writeLines (s.clusterOf (s.wave k))) :=
    keepsGangs_foldl State.writeLine State.writeLine_keepsGangs _ s
  unfold State.release
  simp only [Nat.reduceLeDiff, if_true]
  exact (home.trans (State.publishLoose_keepsGangs _ k 3)).trans ⟨rfl, rfl, rfl⟩

/-! ### The executive's and the claim order's writes -/

theorem State.setCell_keepsGangs (s : State) (l : Launch) (c v : Nat) : KeepsGangs s (s.setCell l c v) := by
  unfold State.setCell
  split
  · exact s.sysWrite_keepsGangs _ _
  · exact keepsGangs_refl s

theorem State.unmapPage_keepsGangs (s : State) (root va : Nat) : KeepsGangs s (s.unmapPage root va) := by
  unfold State.unmapPage
  split
  next leaf a _ _ =>
    exact ite_keepsGangs _ ((s.sysWrite_keepsGangs a (leBytes 8 0)).trans ⟨rfl, rfl, rfl⟩) (keepsGangs_refl s)
  next => exact keepsGangs_refl s

/-! ## The steps of a gang's end -/

/-- From `s` to `t` gang `g` becomes `q`, and blocks and reports are as before. -/
structure Regangs (s t : State) (g : Nat) (q : Gang) : Prop where
  gang : t.gang g = q
  blocks : t.blocks = s.blocks
  reports : t.reports = s.reports

theorem KeepsGangs.setGang {s t : State} (h : KeepsGangs s t) (g : Nat) (f : Gang → Gang) :
    Regangs s (t.setGang g (f (t.gang g))) g (f (s.gang g)) :=
  ⟨by rw [State.gang_setGang_same, h.gang], h.blocks, h.reports⟩

theorem Regangs.keeps {s t u : State} {g : Nat} {q : Gang} (h : Regangs s t g q) (k : KeepsGangs t u) : Regangs s u g q :=
  ⟨(k.gang g).trans h.gang, k.blocks.trans h.blocks, k.reports.trans h.reports⟩

theorem Regangs.trans {s t u : State} {g : Nat} {p q : Gang} (h : Regangs s t g p) (k : Regangs t u g q) :
    Regangs s u g q :=
  ⟨k.gang, k.blocks.trans h.blocks, k.reports.trans h.reports⟩

theorem State.unclaim_gang (s : State) (g : Nat) : Regangs s (s.unclaim g) g { s.gang g with grants := [] } := by
  have cleared : KeepsGangs s (((s.gang g).grants.flatMap fun p => s.heldCells (s.launch (s.gang g).launch) p.2).foldl
      (fun r c => r.setCell (s.launch (s.gang g).launch) c 0) s) :=
    keepsGangs_foldl _ (fun r c => r.setCell_keepsGangs _ c 0) _ s
  exact (cleared.setGang g fun q => { q with grants := [] }).keeps ⟨rfl, rfl, rfl⟩

theorem State.unmapStack_gang (s : State) (g : Nat) : Regangs s (s.unmapStack g) g { s.gang g with stack := none } := by
  have unmapped : KeepsGangs s ((((s.gang g).stack.map (s.stackPages g)).getD []).foldl
      (fun r va => r.unmapPage (r.context (s.launch (s.gang g).launch).ctx).root va) s) :=
    keepsGangs_foldl _ (fun r va => r.unmapPage_keepsGangs _ va) _ s
  exact (unmapped.setGang g fun q => { q with stack := none }).keeps ⟨rfl, rfl, rfl⟩

theorem State.divide_foldl_shape (s : State) (ctx : State → Nat) (cs : List Nat) :
    cs.foldl (fun r c => r.divide (ctx r) c) s =
      { s with parts := (cs.foldl (fun r c => r.divide (ctx r) c) s).parts } := by
  induction cs generalizing s with
  | nil => rfl
  | cons c cs ih => rw [List.foldl_cons, ih]; rfl

/-- What the release of a gang's resources leaves of the gang, of reports and of waves (R142). -/
theorem State.freeGang_eq (s : State) (g : Nat) :
    (s.freeGang g).gang g = { s.gang g with blocks := [], scratch := [], bars := [], convs := [] } ∧
      (s.freeGang g).reports = s.reports ∧
      (s.freeGang g).waves = s.waves.filter fun p => !((s.gang g).blocks.flatMap s.wavesOf).contains p.1 := by
  unfold State.freeGang
  dsimp only
  rw [State.divide_foldl_shape _ fun r => (r.launch (r.gang g).launch).ctx]
  exact ⟨State.gang_setGang_same .., rfl, rfl⟩

/-- A gang's request is settled when it retires: a drain's end is reported on its own (R336), any other is closed (log 82). -/
def State.settleRequest (s : State) (g : Nat) : State :=
  if (s.gang g).preempt == .draining then s else s.closeRequest g

/-- The gang retires: its claims return (R198), its stack regions and its resources go (R142). -/
def State.retireGang (s : State) (g : Nat) : State :=
  let t := ((s.unclaim g).unmapStack g).freeGang g
  t.setGang g { t.gang g with retired := true }

theorem State.retireGang_gang (s : State) (g : Nat) : (s.retireGang g).gang g =
    { s.gang g with
      grants := [], stack := none, blocks := [], scratch := [], bars := [], convs := [], retired := true } := by
  unfold State.retireGang
  dsimp only
  rw [State.gang_setGang_same, (State.freeGang_eq _ g).1, (State.unmapStack_gang _ g).gang, (State.unclaim_gang _ g).gang]

theorem State.retireGang_reports (s : State) (g : Nat) : (s.retireGang g).reports = s.reports := by
  unfold State.retireGang
  dsimp only
  rw [State.setGang_reports, (State.freeGang_eq _ g).2.1, (State.unmapStack_gang _ g).reports, (s.unclaim_gang g).reports]

theorem State.wavesOf_of_blocks {s t : State} (h : t.blocks = s.blocks) : t.wavesOf = s.wavesOf :=
  funext fun b => congrArg (fun bs : Tab Block => (bs.get Block.absent b).waves) h

/-- No wave of a block of the gang is left. -/
theorem State.retireGang_waves (s : State) (g k : Nat) (h : k ∈ (s.gang g).blocks.flatMap s.wavesOf) :
    (s.retireGang g).waves.has k = false := by
  have ended := (s.unclaim_gang g).trans (State.unmapStack_gang _ g)
  have left : (s.retireGang g).waves = ((s.unclaim g).unmapStack g).waves.filter fun p =>
      !((s.gang g).blocks.flatMap s.wavesOf).contains p.1 := by
    unfold State.retireGang
    dsimp only
    rw [State.setGang_waves, (State.freeGang_eq _ g).2.2, ended.gang, (s.unclaim_gang g).gang,
      State.wavesOf_of_blocks ended.blocks]
  rw [left, Tab.has, List.any_eq_false]
  intro p hp same
  obtain ⟨-, gone⟩ := List.mem_filter.mp hp
  rw [beq_iff_eq.mp same, List.contains_iff_mem.mpr h] at gone
  cases gone

theorem State.closeRequest_open (s : State) (g : Nat)
    (h : (s.gang g).preempt ∈ [Preempt.asked, .draining, .discarding, .saving]) : s.closeRequest g =
      (s.report g 0 0).setGang g { s.gang g with preempt := .none } := by
  unfold State.closeRequest
  rw [if_pos (List.contains_iff_mem.mpr h)]

/-- Settling a request leaves the gang's blocks, and every block. -/
theorem State.settleRequest_blocks (s : State) (g : Nat) :
    ((s.settleRequest g).gang g).blocks = (s.gang g).blocks ∧ (s.settleRequest g).blocks = s.blocks := by
  unfold State.settleRequest State.closeRequest
  split
  · exact ⟨rfl, rfl⟩
  · split
    · exact ⟨by rw [State.gang_setGang_same], rfl⟩
    · exact ⟨rfl, rfl⟩

/-- A request that is no drain and still stands is closed, and reported with action 0. -/
theorem State.settleRequest_open (s : State) (g : Nat)
    (h : (s.gang g).preempt ∈ [Preempt.asked, .discarding, .saving]) :
    ((s.settleRequest g).gang g).preempt = .none ∧ ∃ x ∈ (s.settleRequest g).reports, x.gang = g ∧ x.action = 0 := by
  have noDrain : ¬ ((s.gang g).preempt == .draining) = true := by
    intro e
    rw [beq_iff_eq.mp e] at h
    revert h
    decide
  have stands : (s.gang g).preempt ∈ [Preempt.asked, .draining, .discarding, .saving] := by
    rw [List.mem_cons] at h ⊢
    exact h.imp_right (List.mem_cons_of_mem _)
  rw [State.settleRequest, if_neg noDrain, s.closeRequest_open g stands]
  exact ⟨by rw [State.gang_setGang_same], _, List.mem_append_right _ List.mem_cons_self, rfl, rfl⟩

/-! ## BLOCK_END -/

/-- A block's end, before its gang's: its waves release at .SYS (R142). -/
def State.endBlock (s : State) (b : Nat) : State :=
  let r := ((s.block b).waves.foldl (fun r k => r.release k 3) s).passKnown (s.block b).gang (s.block b).waves
  r.setBlock b { r.block b with ended := true }

theorem State.endBlock_gang (s : State) (b g : Nat) : (s.endBlock b).gang g = s.gang g := by
  have released : KeepsGangs s ((s.block b).waves.foldl (fun r k => r.release k 3) s) :=
    keepsGangs_foldl (fun r k => r.release k 3) State.release_keepsGangs _ s
  exact released.gang g

theorem execBlockEnd_eq (s : State) (b : Nat) (h : s.blockOver b = true) : exec (.blockEnd b) s =
    .next (let g := (s.block b).gang
      let e := s.endBlock b
      if (e.gang g).blocks.all fun x => (e.block x).ended then (e.settleRequest g).retireGang g else e) :=
  congrArg Host.Outcome.next (if_pos h)

end Sys2Proof.Machine

namespace Sys2Proof.Proofs

open Sys2Proof.Machine Sys2Proof.Claims

/-- Settles O43: a block's end is its waves' release, and with the gang's last block the settling of its request and its
retirement, whose parts keep each other's results. -/
theorem blocksAndGangsEnd : Obligations.BlocksAndGangsEnd := by
  unfold Obligations.BlocksAndGangsEnd
  refine fun s => ⟨fun b hover _ => ?_, fun g used retired placed => ?_⟩
  · have ends := execBlockEnd_eq s b hover
    refine ⟨fun more => ?_, fun last => ?_⟩
    · rw [ends]
      exact congrArg Host.Outcome.next (if_neg (Bool.eq_false_iff.mp more))
    · obtain ⟨blocks, every⟩ := (s.endBlock b).settleRequest_blocks (s.block b).gang
      have gang := State.retireGang_gang ((s.endBlock b).settleRequest (s.block b).gang) (s.block b).gang
      refine ⟨_, ends.trans (congrArg Host.Outcome.next (if_pos last)), ?_, ?_, ?_, fun standing => ?_, fun k hk => ?_⟩
      · rw [gang]
      · rw [gang]
      · rw [gang]
      · obtain ⟨closed, reported⟩ := (s.endBlock b).settleRequest_open (s.block b).gang
          (by rw [s.endBlock_gang]; exact standing)
        exact ⟨by rw [gang]; exact closed, by rw [State.retireGang_reports]; exact reported⟩
      · refine State.retireGang_waves _ _ k ?_
        rw [blocks, State.wavesOf_of_blocks every]
        exact hk
  · show execGangRetired g s = _
    simp [execGangRetired, used, retired, placed]

end Sys2Proof.Proofs
end

section
/-! Proofs: partition tiles and transfer slots (R166, R168, R169). -/

namespace Sys2Proof.Machine

/-- A ready lane set whose effect is a wait. -/
theorem State.issue_wait (s t : State) (i : Instr) (f : State → List Nat → Eff) (w : Wait) (h : s.ready i = true)
    (hf : f s (s.active i) = .wait t w) : s.issue i f = s.hold t w := by
  rw [s.issue_ready i f h, hf]
  rfl

theorem State.setBlock_keepsTurn (s : State) (b : Nat) (v : Block) : KeepsTurn s (s.setBlock b v) :=
  keepsTurn_of_eq rfl rfl rfl

/-- An accepted tile width becomes CR.PART (R166). -/
theorem State.exec_part_accepted (s : State) (o : Ops) (h : s.ready (.part o) = true)
    (hw : partOk s.cur.width o.s2.toNat = true) : Answers (.part o) s fun t =>
      ThreadResult (.part o) s t (s.toNext (.part o) fun _ a => a) fun w => { w with part := o.s2.toNat } := by
  refine ⟨_, rfl, State.issue_wave s (.part o) (fun w => { w with part := o.s2.toNat }) s.iss.raised s.iss.mine _ _ _ h
    ?_ rfl rfl (fun l _ => ?_) fun _ _ => rfl⟩
  · dsimp only
    rw [if_pos hw]
    rfl
  · unfold State.toNext
    rw [ite_self]
    rfl

/-- A tile width that the wave does not accept traps (R166). -/
theorem State.exec_part_refused (s : State) (o : Ops) (h : s.ready (.part o) = true)
    (hw : partOk s.cur.width o.s2.toNat = false) : exec (.part o) s =
      .next (s.trapTurn causeCtlValue (BitVec.ofNat 64 o.s2.toNat) ((s.active (.part o)).headD 0)) :=
  congrArg Host.Outcome.next (s.issue_trap _ _ _ _ _ h (if_neg (Bool.eq_false_iff.mp hw)) (by decide))

/-! ## Transfer slots -/

/-- XMOV.S of an empty slot deposits the active lanes' values there. -/
theorem State.xmovSEff_empty (s : State) (o : Ops) (act : List Nat)
    (he : (s.block s.cur.block).slots.has o.s2.toNat = false) : s.xmovSEff o act =
      .done (s.setBlock s.cur.block { s.block s.cur.block with
        slots := (s.block s.cur.block).slots.put o.s2.toNat
          ⟨widthOf o, act.map fun l => (l, BitVec.ofNat 64 (s.rd (widthOf o) l o.s0.toNat))⟩ }) :=
  if_neg (Bool.eq_false_iff.mp he)

theorem State.xmovSEff_full (s : State) (o : Ops) (act : List Nat)
    (hf : (s.block s.cur.block).slots.has o.s2.toNat = true) : s.xmovSEff o act = .wait s (.xmov true o.s2.toNat) :=
  if_pos hf

/-- XMOV.R of a full slot empties it, and its values leave. -/
theorem State.xmovREff_full (s : State) (o : Ops) (act : List Nat)
    (hf : (s.block s.cur.block).slots.has o.s2.toNat = true) : s.xmovREff o act =
      .done ((s.setBlock s.cur.block { s.block s.cur.block with
        slots := (s.block s.cur.block).slots.del o.s2.toNat }).flyLanes act o.dst.toNat
          (act.map fun l => (l, BitVec.ofNat 64
            ((((((s.block s.cur.block).slots.get ⟨32, []⟩ o.s2.toNat).vals.find? fun p => p.1 == l).map
              fun p => p.2.toNat).getD 0) % 2 ^ widthOf o))) 0) := by
  unfold State.xmovREff
  simp only [hf, Bool.not_true, Bool.false_eq_true, if_false]

theorem State.xmovREff_empty (s : State) (o : Ops) (act : List Nat)
    (he : (s.block s.cur.block).slots.has o.s2.toNat = false) :
    s.xmovREff o act = .wait s (.xmov false o.s2.toNat) := by
  unfold State.xmovREff
  simp only [he, Bool.not_false, if_true]

end Sys2Proof.Machine

namespace Sys2Proof.Proofs

open Sys2Proof.Machine Sys2Proof.Claims

/-- Settles O18: PART by whether the wave accepts its width, each XMOV by whether its slot is full. -/
theorem tilesAndTransferSlots : Obligations.TilesAndTransferSlots := by
  unfold Obligations.TilesAndTransferSlots
  refine ⟨fun s o h => ⟨s.exec_part_accepted o h, s.exec_part_refused o h⟩,
    fun s o h => ⟨fun empty => ?_, fun full => ?_⟩, fun s o h => ⟨fun full => ?_, fun empty => ?_⟩⟩
  · exact s.completes_of_done _ _ _ rfl h (s.xmovSEff_empty o _ empty) (s.setBlock_keepsTurn ..)
  · exact congrArg Host.Outcome.next (s.issue_wait s _ _ _ h (s.xmovSEff_full o _ full))
  · exact s.completes_of_done _ _ _ rfl h (s.xmovREff_full o _ full)
      ((s.setBlock_keepsTurn ..).trans (State.flyLanes_keepsTurn ..))
  · exact congrArg Host.Outcome.next (s.issue_wait s _ _ _ h (s.xmovREff_empty o _ empty))

end Sys2Proof.Proofs
end

section
/-! Proofs: whole-wave instructions (R173). -/

namespace Sys2Proof.Machine

theorem State.whole_together (s : State) (f : Unit → Eff) (h : ∀ l ∈ s.seen.present, l ∈ s.issuing) :
    s.whole f = f () :=
  if_pos (List.all_eq_true.mpr fun l hl => List.contains_iff_mem.mpr (h l hl))

theorem State.whole_apart (s : State) (f : Unit → Eff) (h : ∃ l ∈ s.seen.present, l ∉ s.issuing) :
    s.whole f = .wait s (.members (maskOf s.seen.present)) := by
  obtain ⟨l, present, elsewhere⟩ := h
  exact if_neg fun all => elsewhere (List.contains_iff_mem.mp (List.all_eq_true.mp all l present))

/-- An instruction with a whole wave's effect waits while a lane is elsewhere. -/
theorem State.exec_apart (s : State) (i : Instr) (g : State → List Nat → Eff) (f : Unit → Eff)
    (he : exec i s = .next (s.issue i g)) (hg : g s (s.active i) = s.whole f) (h : s.ready i = true)
    (apart : ∃ l ∈ s.seen.present, l ∉ s.issuing) :
    exec i s = .next (s.hold s (.members (maskOf s.seen.present))) := by
  rw [he, s.issue_wait s i g _ h (hg.trans (s.whole_apart f apart))]

theorem State.rttEff_trapMode (s : State) (o : Ops) (act : List Nat) (hm : s.cur.trapm = true) : s.rttEff o act =
    s.whole fun _ => .jump (s.endTrapMode s.iss.wave) (s.returnPcs s.iss.wave s.issuing (bit o.s2.toNat 0)) false := by
  simp [State.rttEff, hm]

end Sys2Proof.Machine
end

section
/-! Proofs: what an acquire takes in (R237). -/

namespace Sys2Proof.Machine

/-! ## Views that grow -/

theorem le_mergeStep (v : Tab Nat) (p : Nat × Nat) (a : Nat) :
    v.get 0 a ≤ Tab.get 0 (if v.get 0 p.1 < p.2 then v.put p.1 p.2 else v) a := by
  split
  · rw [Tab.get_put]
    split
    · next older e => exact e ▸ Nat.le_of_lt older
    · exact Nat.le_refl _
  · exact Nat.le_refl _

theorem le_mergeStep_self (v : Tab Nat) (a x : Nat) : x ≤ Tab.get 0 (if v.get 0 a < x then v.put a x else v) a := by
  split
  · exact Nat.le_of_eq (Tab.get_put_same ..).symm
  · next newer => exact Nat.le_of_not_lt newer

theorem le_mergeView_left (v u : Tab Nat) (a : Nat) : v.get 0 a ≤ (mergeView v u).get 0 a := by
  unfold mergeView
  induction u generalizing v with
  | nil => exact Nat.le_refl _
  | cons p u ih => exact Nat.le_trans (le_mergeStep v p a) (ih _)

theorem le_mergeView_right (v u : Tab Nat) (a : Nat) : u.get 0 a ≤ (mergeView v u).get 0 a := by
  induction u generalizing v with
  | nil => exact Nat.zero_le _
  | cons p u ih =>
    obtain ⟨k, x⟩ := p
    rw [Tab.get]
    split
    · exact Nat.zero_le _
    · split
      · next e =>
        subst e
        exact Nat.le_trans (le_mergeStep_self v a x) (le_mergeView_left _ u a)
      · exact ih _

theorem le_ite_mergeView (c : Prop) [Decidable c] (v u : Tab Nat) (a : Nat) :
    v.get 0 a ≤ Tab.get 0 (if c then mergeView v u else v) a := by
  split
  · exact le_mergeView_left v u a
  · exact Nat.le_refl _

theorem State.le_takePubs (s : State) (w : Wave) (scope : Nat) (v : Tab Nat) (a : Nat) :
    v.get 0 a ≤ (s.takePubs w scope v).get 0 a := by
  unfold State.takePubs
  induction s.pubs generalizing v with
  | nil => exact Nat.le_refl _
  | cons p ps ih => exact Nat.le_trans (le_ite_mergeView _ v p.bytes a) (ih _)

/-! ## Acquires -/

/-- An acquire takes in at least what is published in the wave's block. -/
theorem State.mergeView_le_acquire (s : State) (k scope a : Nat) :
    (mergeView (s.wave k).view (s.pubBlk.get [] (s.wave k).block)).get 0 a ≤
      ((s.acquire k scope).wave k).view.get 0 a := by
  unfold State.acquire
  rw [State.wave_setWave_same]
  exact Nat.le_trans (le_ite_mergeView _ _ _ a) <| Nat.le_trans (le_ite_mergeView _ _ _ a) <|
    Nat.le_trans (le_ite_mergeView _ _ _ a) (s.le_takePubs ..)

theorem State.acquire_phases (s : State) (k scope : Nat) : ((s.acquire k scope).wave k).phases = (s.wave k).phases := by
  unfold State.acquire
  rw [State.wave_setWave_same]

theorem State.acquire_keepsTurn (s : State) (k scope : Nat) : KeepsTurn s (s.acquire k scope) :=
  s.onWave_keepsTurn k (fun _ => _) rfl

end Sys2Proof.Machine
end

section
/-! Proofs: barriers (R174, R175). -/

namespace Sys2Proof.Machine

/-! ## What a release leaves of the turn and of waits at barriers (R174, R237) -/

/-- The turn is the same, and each wave is in its block with the barrier phases that it waits for. -/
structure KeepsBarriers (s t : State) : Prop extends KeepsTurn s t where
  block : ∀ j, (t.wave j).block = (s.wave j).block
  phases : ∀ j, (t.wave j).phases = (s.wave j).phases

theorem keepsBarriers_refl (s : State) : KeepsBarriers s s := ⟨keepsTurn_refl s, fun _ => rfl, fun _ => rfl⟩

theorem KeepsBarriers.trans {s t u : State} (h : KeepsBarriers s t) (g : KeepsBarriers t u) : KeepsBarriers s u :=
  ⟨h.toKeepsTurn.trans g.toKeepsTurn, fun j => (g.block j).trans (h.block j), fun j => (g.phases j).trans (h.phases j)⟩

/-- An update of other parts of the state. -/
theorem keepsBarriers_of_eq {s t : State} (hi : t.iss = s.iss) (hw : t.waves = s.waves) (hb : t.badNames = s.badNames) :
    KeepsBarriers s t :=
  ⟨keepsTurn_of_eq hi hw hb, fun j => congrArg (fun ws : Tab Wave => (ws.get Wave.absent j).block) hw,
    fun j => congrArg (fun ws : Tab Wave => (ws.get Wave.absent j).phases) hw⟩

theorem keepsBarriers_foldl {α : Type} (f : State → α → State) (h : ∀ s a, KeepsBarriers s (f s a)) (as : List α)
    (s : State) : KeepsBarriers s (as.foldl f s) := by
  induction as generalizing s with
  | nil => exact keepsBarriers_refl s
  | cons a as ih => exact (h s a).trans (ih _)

theorem ite_keepsBarriers {s t u : State} (c : Prop) [Decidable c] (ht : KeepsBarriers s t) (hu : KeepsBarriers s u) :
    KeepsBarriers s (if c then t else u) := by
  split
  · exact ht
  · exact hu

theorem State.onWave_keepsBarriers (s : State) (k : Nat) (f : Wave → Wave)
    (hs : (f (s.wave k)).single = (s.wave k).single) (hb : (f (s.wave k)).block = (s.wave k).block)
    (hp : (f (s.wave k)).phases = (s.wave k).phases) : KeepsBarriers s (s.onWave k f) := by
  refine ⟨s.onWave_keepsTurn k f hs, fun j => ?_, fun j => ?_⟩
  all_goals
    rw [State.wave_onWave]
    split
    next e => simp only [hb, hp, e]
    next => rfl

theorem State.overtake_keepsBarriers (s : State) (pa len : Nat) : KeepsBarriers s (s.overtake pa len) :=
  ⟨s.overtake_keepsTurn pa len, fun j => (congrArg Wave.block ((s.overtake_reordered pa len).waves j) :),
    fun j => (congrArg Wave.phases ((s.overtake_reordered pa len).waves j) :)⟩

theorem State.writeLine_keepsBarriers (s : State) (v : VLine) : KeepsBarriers s (s.writeLine v) := by
  refine KeepsBarriers.trans
    (t := { s with vlines := s.vlines.filter fun x => !(x.cluster == v.cluster && x.line == v.line) })
    (keepsBarriers_of_eq rfl rfl rfl) (keepsBarriers_foldl _ (fun s off => ?_) _ _)
  exact KeepsBarriers.trans (t := { s with mem := s.mem.set (v.line * 128 + off) (v.bytes.get 0 off) })
    (keepsBarriers_of_eq rfl rfl rfl) (State.overtake_keepsBarriers ..)

theorem State.writeLines_keepsBarriers (s : State) (cluster : Nat) : KeepsBarriers s (s.writeLines cluster) :=
  keepsBarriers_foldl State.writeLine State.writeLine_keepsBarriers _ s

theorem State.publishLoose_keepsBarriers (s : State) (k scope : Nat) : KeepsBarriers s (s.publishLoose k scope) := by
  unfold State.publishLoose
  dsimp only
  have published (ps : List Pub) : KeepsBarriers s { s with pubs := ps } := keepsBarriers_of_eq rfl rfl rfl
  refine ite_keepsBarriers _ (s.onWave_keepsBarriers k _ rfl rfl rfl) ?_
  refine (published _).trans (State.onWave_keepsBarriers _ k _ ?_ ?_ ?_) <;> rfl

theorem State.release_keepsBarriers (s : State) (k scope : Nat) : KeepsBarriers s (s.release k scope) := by
  have home : KeepsBarriers s (if 2 ≤ scope then s.writeLines (s.clusterOf (s.wave k)) else s) :=
    ite_keepsBarriers _ (s.writeLines_keepsBarriers _) (keepsBarriers_refl s)
  refine home.trans ((State.publishLoose_keepsBarriers _ k scope).trans ?_)
  unfold State.release
  dsimp only
  split <;> split <;> split <;> exact keepsBarriers_of_eq rfl rfl rfl

/-! ## Arrivals (R174) -/

theorem State.bar_setBar_same (s : State) (b name : Nat) (v : Barrier) : (s.setBar b name v).bar b name = v := by
  unfold State.bar State.setBar
  by_cases h : (s.launch (s.gang (s.block b).gang).launch).kernel.gangScope 3 name = true
  · simp only [h, if_true, State.setGang_get_block, State.gang_setGang_same, State.setGang_get_launch, Tab.get_put_same]
  · simp only [h, Bool.false_eq_true, if_false, State.block_setBlock_same, State.setBlock_get_gang,
      State.setBlock_get_launch, Tab.get_put_same]

theorem State.bar_arrive (s : State) (b name : Nat) : (s.arrive b name).bar b name =
    if (s.bar b name).count + 1 = (s.launch (s.gang (s.block b).gang).launch).kernel.sizeOf 3 name 1
    then ⟨0, !(s.bar b name).phase⟩ else ⟨(s.bar b name).count + 1, (s.bar b name).phase⟩ := by
  unfold State.arrive
  dsimp only
  by_cases last : (s.bar b name).count + 1 = (s.launch (s.gang (s.block b).gang).launch).kernel.sizeOf 3 name 1
  · rw [if_pos last, if_pos last, State.bar_setBar_same]
  · rw [if_neg last, if_neg last, State.bar_setBar_same]

theorem State.setBar_keepsBarriers (s : State) (b name : Nat) (v : Barrier) :
    KeepsBarriers s (s.setBar b name v) := by
  unfold State.setBar
  exact ite_keepsBarriers _ (keepsBarriers_of_eq rfl rfl rfl) (keepsBarriers_of_eq rfl rfl rfl)

theorem State.tellBar_keepsBarriers (s : State) (b name : Nat) (ns : List Nat) :
    KeepsBarriers s (s.tellBar b name ns) :=
  ite_keepsBarriers _ (keepsBarriers_refl s) (keepsBarriers_of_eq rfl rfl rfl)

theorem State.turnBar_keepsBarriers (s : State) (b name : Nat) : KeepsBarriers s (s.turnBar b name) :=
  ite_keepsBarriers _ (keepsBarriers_refl s) (keepsBarriers_of_eq rfl rfl rfl)

theorem State.arrive_keepsBarriers (s : State) (b name : Nat) : KeepsBarriers s (s.arrive b name) :=
  ite_keepsBarriers _ ((s.turnBar_keepsBarriers b name).trans (State.setBar_keepsBarriers ..))
    (s.setBar_keepsBarriers ..)

theorem State.arriveWave_keepsBarriers (s : State) (k name : Nat) : KeepsBarriers s (s.arriveWave k name) :=
  (s.release_keepsBarriers k _).trans ((State.tellBar_keepsBarriers ..).trans (State.arrive_keepsBarriers ..))

/-! ## Passing a wait (R174, R175) -/

theorem State.hear_shape (s : State) (k : Nat) (ns : List Nat) :
    s.hear k ns = { s with waves := (s.hear k ns).waves } := by
  unfold State.hear
  split <;> rfl

theorem State.hear_wave (s : State) (k : Nat) (ns : List Nat) :
    (s.hear k ns).wave k = { s.wave k with heard := ((s.hear k ns).wave k).heard } := by
  unfold State.hear
  split
  · rfl
  · rw [State.wave_onWave_same]

/-- Operations that are over leave nothing but their own entries and tiles. -/
theorem State.settleMats_shape (s : State) (b name : Nat) (phase : Bool) : s.settleMats b name phase =
    { s with mats := (s.settleMats b name phase).mats, blocks := (s.settleMats b name phase).blocks } := by
  unfold State.settleMats
  generalize s.mats = ps
  induction ps generalizing s with
  | nil => rfl
  | cons p ps ih =>
    rw [List.foldl_cons, ih]
    dsimp only
    split
    · split <;> split <;> rfl
    · rfl

/-- A wave that passes the wait on a phase, before its acquire: it waits for the next phase, and has heard what the
arrivals told (R174, R238). -/
def State.takePhase (s : State) (k name : Nat) (ph : Bool) : State :=
  (s.onWave k fun w => { w with phases := w.phases.put name ph, flipped := none }).hear k
    (if (s.wave k).flipped.isSome then [] else s.phaseKnown (s.wave k).block name)

theorem State.passPhase_eq (s : State) (k name : Nat) (ph : Bool) : s.passPhase k name ph =
    ((s.takePhase k name ph).acquire k (s.barScope (s.wave k).block name)).settleMats (s.wave k).block name ph := rfl

theorem State.takePhase_shape (s : State) (k name : Nat) (ph : Bool) :
    s.takePhase k name ph = { s with waves := (s.takePhase k name ph).waves } := State.hear_shape ..

theorem State.takePhase_wave (s : State) (k name : Nat) (ph : Bool) : (s.takePhase k name ph).wave k =
    { s.wave k with
      phases := (s.wave k).phases.put name ph, flipped := none, heard := ((s.takePhase k name ph).wave k).heard } := by
  refine (State.hear_wave ..).trans ?_
  rw [State.wave_onWave_same]
  rfl

theorem State.passPhase_wave (s : State) (k name : Nat) (ph : Bool) : (s.passPhase k name ph).wave k =
    ((s.takePhase k name ph).acquire k (s.barScope (s.wave k).block name)).wave k := by
  rw [State.passPhase_eq, State.settleMats_shape]
  rfl

/-- Passing gives the wave the phase as its own (R174). -/
theorem State.passPhase_phase (s : State) (k name : Nat) (ph : Bool) :
    ((s.passPhase k name ph).wave k).phases.get false name = ph := by
  rw [State.passPhase_wave, State.acquire_phases, State.takePhase_wave]
  exact Tab.get_put_same ..

theorem State.passPhase_mem (s : State) (k name : Nat) (ph : Bool) : (s.passPhase k name ph).mem = s.mem := by
  rw [State.passPhase_eq, State.settleMats_shape]
  exact (congrArg State.mem (s.takePhase_shape k name ph) :)

/-- Passing takes in what is published in the block (R175). -/
theorem State.mergeView_le_passPhase (s : State) (k name : Nat) (ph : Bool) (a : Nat) :
    (mergeView (s.wave k).view (s.pubBlk.get [] (s.wave k).block)).get 0 a ≤
      ((s.passPhase k name ph).wave k).view.get 0 a := by
  have taken := (s.takePhase k name ph).mergeView_le_acquire k (s.barScope (s.wave k).block name) a
  have published : (s.takePhase k name ph).pubBlk = s.pubBlk := (congrArg State.pubBlk (s.takePhase_shape k name ph) :)
  rw [published, State.takePhase_wave] at taken
  rw [State.passPhase_wave]
  exact taken

theorem State.passPhase_keepsTurn (s : State) (k name : Nat) (ph : Bool) : KeepsTurn s (s.passPhase k name ph) := by
  have took : KeepsTurn s (s.takePhase k name ph) :=
    (s.onWave_keepsTurn k _ rfl).trans (State.hear_keepsTurn ..)
  rw [State.passPhase_eq, State.settleMats_shape]
  exact took.trans ((State.acquire_keepsTurn ..).trans (keepsTurn_of_eq rfl rfl rfl))

/-! ## BARA, BARW and BARS (R174) -/

/-- A wait is over where the barrier's phase is not the one the wave waits for. -/
theorem State.barOpen_iff (s : State) (k name : Nat) : s.barOpen k name = true ↔
    (s.bar (s.wave k).block name).phase ≠ (s.wave k).phases.get false name :=
  bne_iff_ne

theorem State.past_wave (s : State) (ps : List Pipe) (k : Nat) : (s.past ps).wave k = s.wave k := by
  unfold State.past
  split <;> rfl

theorem State.past_barOpen_iff (s : State) (ps : List Pipe) (k name : Nat) : (s.past ps).barOpen k name = true ↔
    ((s.past ps).bar (s.wave k).block name).phase ≠ (s.wave k).phases.get false name := by
  rw [State.barOpen_iff, State.past_wave]

/-- The arrival leaves the wave in its block and waiting for the same phase. -/
theorem State.arriveWave_barOpen_iff (s : State) (k name : Nat) : (s.arriveWave k name).barOpen k name = true ↔
    ((s.arriveWave k name).bar (s.wave k).block name).phase ≠ (s.wave k).phases.get false name := by
  rw [State.barOpen_iff, (s.arriveWave_keepsBarriers k name).block, (s.arriveWave_keepsBarriers k name).phases]

theorem State.barwEff_eq (s : State) (o : Ops) (act : List Nat) : s.barwEff o act = s.whole fun _ =>
    if (s.past [.m]).barOpen s.iss.wave o.s0.toNat then
      .done (s.passPhase s.iss.wave o.s0.toNat ((s.past [.m]).bar s.cur.block o.s0.toNat).phase)
    else .wait s (.barrier o.s0.toNat) := rfl

theorem State.barsEff_eq (s : State) (o : Ops) (act : List Nat) : s.barsEff o act = s.whole fun _ =>
    if (s.past [.m]).barOpen s.iss.wave o.s0.toNat &&
        (s.arriveWave s.iss.wave o.s0.toNat).barOpen s.iss.wave o.s0.toNat then
      .done ((s.arriveWave s.iss.wave o.s0.toNat).passBarrier s.iss.wave o.s0.toNat)
    else .wait (s.arriveWave s.iss.wave o.s0.toNat) (.barrier o.s0.toNat) := rfl

theorem State.barwEff_open (s : State) (o : Ops) (act : List Nat) (together : ∀ l ∈ s.seen.present, l ∈ s.issuing)
    (h : (s.past [.m]).barOpen s.iss.wave o.s0.toNat = true) : s.barwEff o act =
      .done (s.passPhase s.iss.wave o.s0.toNat ((s.past [.m]).bar s.cur.block o.s0.toNat).phase) := by
  rw [s.barwEff_eq, s.whole_together _ together]
  exact if_pos h

theorem State.barwEff_shut (s : State) (o : Ops) (act : List Nat) (together : ∀ l ∈ s.seen.present, l ∈ s.issuing)
    (h : ¬ (s.past [.m]).barOpen s.iss.wave o.s0.toNat = true) : s.barwEff o act = .wait s (.barrier o.s0.toNat) := by
  rw [s.barwEff_eq, s.whole_together _ together]
  exact if_neg h

theorem State.barsEff_open (s : State) (o : Ops) (act : List Nat) (together : ∀ l ∈ s.seen.present, l ∈ s.issuing)
    (before : (s.past [.m]).barOpen s.iss.wave o.s0.toNat = true)
    (now : (s.arriveWave s.iss.wave o.s0.toNat).barOpen s.iss.wave o.s0.toNat = true) : s.barsEff o act =
      .done ((s.arriveWave s.iss.wave o.s0.toNat).passBarrier s.iss.wave o.s0.toNat) := by
  rw [s.barsEff_eq, s.whole_together _ together]
  exact if_pos (Bool.and_eq_true_iff.mpr ⟨before, now⟩)

theorem State.barsEff_shut (s : State) (o : Ops) (act : List Nat) (together : ∀ l ∈ s.seen.present, l ∈ s.issuing)
    (h : ¬ ((s.past [.m]).barOpen s.iss.wave o.s0.toNat = true ∧
      (s.arriveWave s.iss.wave o.s0.toNat).barOpen s.iss.wave o.s0.toNat = true)) :
    s.barsEff o act = .wait (s.arriveWave s.iss.wave o.s0.toNat) (.barrier o.s0.toNat) := by
  rw [s.barsEff_eq, s.whole_together _ together]
  exact if_neg fun e => h (Bool.and_eq_true_iff.mp e)

end Sys2Proof.Machine

namespace Sys2Proof.Proofs

open Sys2Proof.Machine Sys2Proof.Claims

/-- Settles O25: an arrival is one update of the barrier; BARW and BARS go by whether the barrier is open; passing is an
acquire after the wave has taken the phase. -/
theorem barriers : Obligations.Barriers := by
  unfold Obligations.Barriers
  refine ⟨State.bar_arrive, fun s o => ?_, fun s k name => ⟨?_, ?_, fun a => ?_, fun a => ?_⟩⟩
  · intro k name b released arrived was q together
    have before : (s.past [.m]).barOpen k name = true ↔ was.phase ≠ q := s.past_barOpen_iff [.m] k name
    have now : (s.arriveWave k name).barOpen k name = true ↔ (arrived.bar b name).phase ≠ q :=
      s.arriveWave_barOpen_iff k name
    have arrives := (s.arriveWave_keepsBarriers k name).toKeepsTurn
    refine ⟨fun h => ?_, fun h => ⟨fun opened => ?_, fun shut => ?_⟩, fun h => ⟨fun opened still => ?_, fun shut => ?_⟩⟩
    · exact s.completes_of_done _ _ _ rfl h (s.whole_together _ together) arrives
    · exact s.completes_of_done _ _ _ rfl h (s.barwEff_open o _ together (before.mpr opened))
        (s.passPhase_keepsTurn ..)
    · exact congrArg Host.Outcome.next
        (s.issue_wait s _ _ _ h (s.barwEff_shut o _ together fun e => before.mp e shut))
    · exact s.completes_of_done _ _ _ rfl h (s.barsEff_open o _ together (before.mpr opened) (now.mpr still))
        (arrives.trans (State.passPhase_keepsTurn ..))
    · have notBoth : ¬ ((s.past [.m]).barOpen k name = true ∧ (s.arriveWave k name).barOpen k name = true) :=
        fun ⟨opened, still⟩ => shut.elim (before.mp opened) (now.mp still)
      exact congrArg Host.Outcome.next (s.issue_wait _ _ _ _ h (s.barsEff_shut o _ together notBoth))
  · exact s.passPhase_phase ..
  · exact s.passPhase_mem ..
  · exact Nat.le_trans (le_mergeView_left ..) (s.mergeView_le_passPhase ..)
  · exact Nat.le_trans (le_mergeView_right ..) (s.mergeView_le_passPhase ..)

end Sys2Proof.Proofs
end

section
/-! Proofs: convergence registers, and whole-wave instructions that wait (R173, R177, R178). -/

namespace Sys2Proof.Machine

theorem State.setConv_keepsTurn (s : State) (b name : Nat) (v : Conv) : KeepsTurn s (s.setConv b name v) := by
  unfold State.setConv
  exact ite_keepsTurn _ (keepsTurn_of_eq rfl rfl rfl) (keepsTurn_of_eq rfl rfl rfl)

theorem State.setConv_mats (s : State) (b name : Nat) (v : Conv) : (s.setConv b name v).mats = s.mats := by
  unfold State.setConv
  dsimp only
  split <;> rfl

/-- A register's update is none of an operation's, nor of the order in which operations are posted. -/
theorem State.mat_setConv (s : State) (b name : Nat) (v : Conv) (x : Nat) : (s.setConv b name v).mat x = s.mat x :=
  congrArg (fun ms : Tab MatOp => ms.get MatOp.absent x) (s.setConv_mats b name v)

theorem State.nextPost_setConv (s : State) (b name : Nat) (v : Conv) : (s.setConv b name v).nextPost = s.nextPost :=
  congrArg (fun ms : Tab MatOp => 1 + (ms.map fun p => p.2.posted.getD 0).foldl max 0) (s.setConv_mats b name v)

/-- An epoch closes: it is empty, and the operation recorded is posted, which may not rely on the bytes `stale` nor on
what others than the signers left unfenced in its blocks' operands (R178, R229). -/
def State.closeEpoch (s : State) (b name : Nat) (op : Option Nat) (stale signed : List Nat) : State :=
  let shut := s.setConv b name .empty
  match op with
  | some x => shut.setMat x { s.mat x with
      posted := some s.nextPost
      stale := stale ++ (((s.mat x).parts.map (·.block)).eraseDups).flatMap fun d =>
        shut.staleBytes d fun j => !signed.contains j }
  | none => shut

theorem State.closeEpoch_keepsTurn (s : State) (b name : Nat) (op : Option Nat) (stale signed : List Nat) :
    KeepsTurn s (s.closeEpoch b name op stale signed) := by
  cases op with
  | some x => exact (s.setConv_keepsTurn b name .empty).trans (keepsTurn_of_eq rfl rfl rfl)
  | none => exact s.setConv_keepsTurn b name .empty

/-- A signature that is not the last (R177). -/
theorem State.sign_open (s : State) (k name : Nat)
    (h : (s.conv (s.wave k).block name).count + 1 ≠ (s.kernelOf (s.wave k)).sizeOf 4 name 1) : s.sign k name none =
      s.setConv (s.wave k).block name { s.conv (s.wave k).block name with
        count := (s.conv (s.wave k).block name).count + 1
        signed := (s.conv (s.wave k).block name).signed ++ [k]
        stale := (s.conv (s.wave k).block name).stale ++ s.staleBytes (s.wave k).block (· == k) } :=
  if_neg fun e => h (beq_iff_eq.mp e)

/-- The last signature (R178). -/
theorem State.sign_last (s : State) (k name : Nat)
    (h : (s.conv (s.wave k).block name).count + 1 = (s.kernelOf (s.wave k)).sizeOf 4 name 1) : s.sign k name none =
      s.closeEpoch (s.wave k).block name (s.conv (s.wave k).block name).op
        ((s.conv (s.wave k).block name).stale ++ s.staleBytes (s.wave k).block (· == k))
        ((s.conv (s.wave k).block name).signed ++ [k]) := by
  refine (if_pos (beq_iff_eq.mpr h)).trans ?_
  unfold State.closeEpoch
  simp only [Option.isSome_none, Bool.false_eq_true, if_false]
  cases (s.conv (s.wave k).block name).op with
  | some x => simp only [State.post, State.mat_setConv, State.nextPost_setConv]
  | none => rfl

theorem State.csignEff_signed (s : State) (o : Ops) (act : List Nat) (together : ∀ l ∈ s.seen.present, l ∈ s.issuing)
    (h : s.iss.wave ∈ (s.conv s.cur.block o.s0.toNat).signed) : s.csignEff o act = .wait s (.epoch o.s0.toNat) :=
  (s.whole_together _ together).trans (if_pos (List.contains_iff_mem.mpr h))

theorem State.csignEff_unsigned (s : State) (o : Ops) (act : List Nat)
    (together : ∀ l ∈ s.seen.present, l ∈ s.issuing) (h : s.iss.wave ∉ (s.conv s.cur.block o.s0.toNat).signed) :
    s.csignEff o act = .done (s.sign s.iss.wave o.s0.toNat none) :=
  (s.whole_together _ together).trans (if_neg fun e => h (List.contains_iff_mem.mp e))

end Sys2Proof.Machine

namespace Sys2Proof.Proofs

open Sys2Proof.Machine Sys2Proof.Claims

/-- Settles O26: CSIGN is a wait or a signature, which leaves the epoch open or closes it; each whole-wave instruction
waits for lanes elsewhere. -/
theorem epochsAndWholeWaves : Obligations.EpochsAndWholeWaves := by
  unfold Obligations.EpochsAndWholeWaves
  refine ⟨fun s o h together => ⟨fun signed => ?_, fun unsigned more => ?_, fun unsigned last => ?_⟩,
    fun s i whole h apart => ?_⟩
  · exact congrArg Host.Outcome.next (s.issue_wait s _ _ _ h (s.csignEff_signed o _ together signed))
  · have done := s.csignEff_unsigned o (s.active (.csign o)) together unsigned
    rw [s.sign_open _ _ more] at done
    exact s.completes_of_done _ _ _ rfl h done (s.setConv_keepsTurn ..)
  · have done := s.csignEff_unsigned o (s.active (.csign o)) together unsigned
    rw [s.sign_last _ _ last] at done
    exact s.completes_of_done _ _ _ rfl h done (s.closeEpoch_keepsTurn ..)
  · split at whole
    case h_1 | h_4 => exact s.exec_apart _ _ _ rfl rfl h apart
    case h_2 => exact s.exec_apart _ _ _ rfl (s.barwEff_eq ..) h apart
    case h_3 => exact s.exec_apart _ _ _ rfl (s.barsEff_eq ..) h apart
    case h_5 => exact s.exec_apart _ _ _ rfl (s.rttEff_trapMode _ _ whole) h apart
    case h_6 => exact whole.elim

end Sys2Proof.Proofs
end

section
/-! Proofs: translation faults (R213, R374, R375): the notice to the scheduler core, the table words that the executive
writes for a service, and the waiters that re-execute. -/

namespace Sys2Proof.Machine

open Sys2Proof.Claims

/-! ## The notice -/

/-- A leaf controller's message touches its command link and the scheduler core's registers alone. -/
theorem State.sendUp_shape (s : State) (cluster : Nat) (m : LinkMsg) : s.sendUp cluster m =
    { s with clinks := (s.sendUp cluster m).clinks, ctls := (s.sendUp cluster m).ctls } := by
  unfold State.sendUp
  dsimp only
  split <;> rfl

theorem State.sendUp_event_held (s : State) (cluster : Nat) (m : LinkMsg) (h : (s.clink cluster).upPermits = 0) :
    ((s.sendUp cluster m).ctl s.sched).event = (s.ctl s.sched).event := by
  simp [State.sendUp, h]

theorem State.sendUp_event_sent (s : State) (cluster : Nat) (m : LinkMsg) (h : (s.clink cluster).upPermits ≠ 0) :
    ((s.sendUp cluster m).ctl s.sched).event = (s.ctl s.sched).event ||| 1 := by
  simp [State.sendUp, State.signalEvent, h]

theorem State.signalEvent_event (s : State) (cc : Nat) (e : BitVec 5) :
    ((s.signalEvent cc e).ctl cc).event = (s.ctl cc).event ||| e := by
  simp [State.signalEvent]

/-- The state with other notices. -/
def State.withNotices (s : State) (ns : List (Nat × Nat)) : State := { s with notices := ns }

/-- The link by which the notice of a context's page goes: that of the cluster of a wave of the context. -/
def State.noticeLink (s : State) (ctx : Nat) : Nat :=
  ((s.waves.find? fun q => s.ctxOf q.2 == ctx && q.2.used).map fun q => s.clusterOf q.2).getD 0 % 64

/-- A page's notice has left for the scheduler core. -/
def State.noticeSent (s : State) (ctx : Nat) (va : BitVec 64) : State :=
  (s.withNotices (s.notices ++ [(ctx, pageOf va.toNat)])).sendUp (s.noticeLink ctx) (.faultNotice ctx va)

theorem exec_faultNotice_due (s : State) (ctx : Nat) (va : BitVec 64) (waited : (ctx, pageOf va.toNat) ∈ s.faulting)
    (fresh : (ctx, pageOf va.toNat) ∉ s.notices) :
    exec (.faultNotice ctx va) s = .next ((s.noticeSent ctx va).signalEvent s.sched 8) := by
  have due : (s.faulting.contains (ctx, pageOf va.toNat) && !s.notices.contains (ctx, pageOf va.toNat)) = true := by
    simp [waited, fresh]
  exact congrArg Host.Outcome.next (if_pos (c := (_ && _) = true) due)

theorem State.noticeSent_shape (s : State) (ctx : Nat) (va : BitVec 64) : s.noticeSent ctx va =
    { s with
      notices := s.notices ++ [(ctx, pageOf va.toNat)]
      clinks := (s.noticeSent ctx va).clinks, ctls := (s.noticeSent ctx va).ctls } :=
  State.sendUp_shape ..

theorem State.noticeSent_notices (s : State) (ctx : Nat) (va : BitVec 64) :
    (s.noticeSent ctx va).notices = s.notices ++ [(ctx, pageOf va.toNat)] := by
  rw [State.noticeSent_shape]

theorem State.noticeSent_waves (s : State) (ctx : Nat) (va : BitVec 64) : (s.noticeSent ctx va).waves = s.waves := by
  rw [State.noticeSent_shape]

theorem State.noticeSent_mem (s : State) (ctx : Nat) (va : BitVec 64) : (s.noticeSent ctx va).mem = s.mem := by
  rw [State.noticeSent_shape]

theorem State.noticeSent_event_held (s : State) (ctx : Nat) (va : BitVec 64)
    (h : (s.clink (s.noticeLink ctx)).upPermits = 0) :
    ((s.noticeSent ctx va).ctl s.sched).event = (s.ctl s.sched).event :=
  (s.withNotices _).sendUp_event_held _ _ h

theorem State.noticeSent_event_sent (s : State) (ctx : Nat) (va : BitVec 64)
    (h : (s.clink (s.noticeLink ctx)).upPermits ≠ 0) :
    ((s.noticeSent ctx va).ctl s.sched).event = (s.ctl s.sched).event ||| 1 :=
  (s.withNotices _).sendUp_event_sent _ _ h

/-! ## Writes of table words -/

/-- An `overtake` only gives writes new places in the coherence order: what a `restamp` keeps, it keeps. -/
theorem State.overtake_keep {β : Type} (π : State → β) (h : ∀ s pa n, π (State.restamp s pa n) = π s) (s : State)
    (pa len : Nat) : π (s.overtake pa len) = π s := by
  unfold State.overtake
  split
  · rfl
  · refine State.foldl_keep π _ (fun s i => State.foldl_keep π _ (fun s v => ?_) _ _) _ _
    dsimp only
    split
    · exact h ..
    · rfl

/-- Table words that the executive writes, the first first. -/
def State.writeTable (s : State) (ts : List (Nat × BitVec 64)) : State :=
  ts.foldl (fun r p => r.sysWrite p.1 (leBytes 8 p.2.toNat)) s

theorem State.sysWrite_ctxOf (s : State) (pa : Nat) (bs : List Byte) : (s.sysWrite pa bs).ctxOf = s.ctxOf :=
  (State.overtake_keep State.ctxOf (fun _ _ _ => rfl) ((s.pushBytes pa bs).unmark pa bs.length) pa bs.length).trans
    (State.foldl_keep State.ctxOf (fun s (p : Byte × Nat) => s.pushByte (pa + p.2) p.1) (fun _ _ => rfl) bs.zipIdx s)

theorem State.writeTable_ctxOf (s : State) (ts : List (Nat × BitVec 64)) : (s.writeTable ts).ctxOf = s.ctxOf :=
  State.foldl_keep State.ctxOf (fun s (p : Nat × BitVec 64) => s.sysWrite p.1 (leBytes 8 p.2.toNat))
    (fun s p => s.sysWrite_ctxOf p.1 _) ts s

theorem State.writeTable_waves (s : State) (ts : List (Nat × BitVec 64)) : SameWaves s (s.writeTable ts) := by
  induction ts generalizing s with
  | nil => exact fun k => sameWave_refl _
  | cons p ts ih => exact fun k => SameWave.trans (s.sysWrite_waves p.1 (leBytes 8 p.2.toNat) k) (ih _ k)

theorem State.writeTable_lane (s : State) (ts : List (Nat × BitVec 64)) (k l : Nat) :
    ((s.writeTable ts).wave k).lane l = (s.wave k).lane l := SameWave.lane (s.writeTable_waves ts k) l

theorem State.writeTable_width (s : State) (ts : List (Nat × BitVec 64)) (k : Nat) :
    ((s.writeTable ts).wave k).width = (s.wave k).width := by
  rw [s.writeTable_waves ts k]

theorem State.writeTable_here (s : State) (ts : List (Nat × BitVec 64)) (k : Nat) :
    (s.writeTable ts).ctxOf ((s.writeTable ts).wave k) = s.ctxOf (s.wave k) := by
  rw [State.writeTable_ctxOf, s.writeTable_waves ts k]
  rfl

/-! A write at home neither reads nor writes the notices. -/

theorem State.overtake_withNotices (s : State) (ns : List (Nat × Nat)) (pa len : Nat) :
    (s.withNotices ns).overtake pa len = (s.overtake pa len).withNotices ns := by
  show (if s.vlines.isEmpty then _ else _) = State.withNotices (if s.vlines.isEmpty then _ else _) ns
  split
  · rfl
  · refine List.foldl_hom (State.withNotices · ns) fun s i => List.foldl_hom (State.withNotices · ns) fun s v => ?_
    dsimp only
    rw [apply_ite (State.withNotices · ns)]
    rfl

theorem State.pushBytes_withNotices (s : State) (ns : List (Nat × Nat)) (pa : Nat) (bs : List Byte) :
    (s.withNotices ns).pushBytes pa bs = (s.pushBytes pa bs).withNotices ns :=
  congrArg (fun t : State => { t with stamp := s.stamp + 1 })
    (List.foldl_hom (State.withNotices · ns) fun _ _ => rfl)

theorem State.unmark_withNotices (s : State) (ns : List (Nat × Nat)) (pa len : Nat) :
    (s.withNotices ns).unmark pa len = (s.unmark pa len).withNotices ns := rfl

theorem State.sysWrite_withNotices (s : State) (ns : List (Nat × Nat)) (pa : Nat) (bs : List Byte) :
    (s.withNotices ns).sysWrite pa bs = (s.sysWrite pa bs).withNotices ns := by
  have taken := ((s.pushBytes pa bs).unmark pa bs.length).overtake_withNotices ns pa bs.length
  unfold State.sysWrite State.hostWrite
  rw [State.pushBytes_withNotices, State.unmark_withNotices, taken]
  rfl

theorem State.writeTable_withNotices (s : State) (ns : List (Nat × Nat)) (ts : List (Nat × BitVec 64)) :
    (s.withNotices ns).writeTable ts = (s.writeTable ts).withNotices ns :=
  List.foldl_hom (State.withNotices · ns) fun s p => s.sysWrite_withNotices ns p.1 _

/-! ## The waiters re-execute -/

theorem Wait.serviced_off_page (w : Wait) (page n : Nat) :
    ∀ a ∈ (w.serviced page n).parkedOn, pageOf a.2 ≠ page := by
  intro a h
  cases w with
  | parked as entry =>
    simp only [Wait.serviced] at h
    split at h
    · simpa using (List.mem_filter.mp h).2
    · split at h <;> cases h
  | _ => cases h

theorem Lane.off_page_of_none (t : Lane) (page : Nat) (h : (t.onPage page).isSome = false) :
    ∀ a ∈ t.wait.parkedOn, pageOf a.2 ≠ page := by
  simpa [Lane.onPage] using h

/-- A lane that waits for a page once that is serviced, as the `n`-th service. -/
def Lane.served (t : Lane) (page n : Nat) : Lane := { t with wait := t.wait.serviced page n }

/-- A wave once a page of a context is serviced: its lanes that wait for the page do so no more. -/
def State.replayed (s : State) (ctx page : Nat) (w : Wave) : Wave :=
  if s.ctxOf w == ctx then
    w.onLanes (w.live.filter fun l => ((w.lane l).onPage page).isSome) fun t => t.served page s.time
  else w

theorem State.replay_waves (s : State) (ctx page : Nat) :
    (s.replay ctx page).waves = s.waves.map fun p => (p.1, s.replayed ctx page p.2) := by
  refine List.map_congr_left fun p _ => ?_
  unfold State.replayed
  split <;> rfl

theorem State.replayed_alike (s : State) (ctx page : Nat) (w : Wave) : AlikeWaves w (s.replayed ctx page w) := by
  unfold State.replayed
  split
  · exact w.onLanes_alike _ _ fun _ => rfl
  · exact alikeWaves_refl w

theorem Wave.mem_live (w : Wave) (l : Nat) : l ∈ w.live ↔ l < w.width ∧ (w.lane l).exited = false := by
  simp [Wave.live]

/-- None of the wave's first `n` lanes that has not exited waits for the page. -/
def Wave.OffPage (w : Wave) (n page : Nat) : Prop :=
  ∀ l < n, (w.lane l).exited = false → ∀ a ∈ (w.lane l).wait.parkedOn, pageOf a.2 ≠ page

theorem Wave.absent_offPage (n page : Nat) : Wave.absent.OffPage n page := fun _ _ h => by cases h

theorem State.replayed_offPage (s : State) (ctx page : Nat) (w : Wave) (h : s.ctxOf w = ctx) :
    (s.replayed ctx page w).OffPage w.width page := by
  unfold State.replayed
  rw [if_pos (beq_iff_eq.mpr h)]
  intro l hl live
  rw [w.lane_onLanes_keep Lane.exited _ (fun t => t.served page s.time) fun _ => rfl] at live
  by_cases waits : ((w.lane l).onPage page).isSome
  · rw [Wave.lane_onLanes_mem _ _ _ _ (List.mem_filter.mpr ⟨(w.mem_live l).mpr ⟨hl, live⟩, waits⟩)
      ((List.nodup_range.filter _).filter _)]
    exact Wait.serviced_off_page (w.lane l).wait page s.time
  · rw [Wave.lane_onLanes_ne _ _ _ _ fun e => waits (List.mem_filter.mp e).2]
    exact Lane.off_page_of_none _ _ (by simpa using waits)

theorem State.replay_alike (s : State) (ctx page k : Nat) : AlikeWaves (s.wave k) ((s.replay ctx page).wave k) := by
  unfold State.wave
  rw [State.replay_waves]
  exact Tab.get_map_rel (R := AlikeWaves) (alikeWaves_refl _) (s.replayed_alike ctx page) s.waves k

theorem State.replay_offPage (s : State) (ctx page k : Nat) (h : s.ctxOf (s.wave k) = ctx) :
    ((s.replay ctx page).wave k).OffPage (s.wave k).width page := by
  revert h
  unfold State.wave
  rw [State.replay_waves]
  exact Tab.get_map_rel (R := fun v w => s.ctxOf v = ctx → w.OffPage v.width page) (fun _ => Wave.absent_offPage _ page)
    (s.replayed_offPage ctx page) s.waves k

/-! ## The service -/

/-- The page's notice is off the list. -/
def State.unnoticed (s : State) (ctx page : Nat) : State := s.withNotices (s.notices.filter fun p => p != (ctx, page))

theorem exec_service_mapped (s : State) (ctx : Nat) (va : BitVec 64) (ts : List (Nat × BitVec 64))
    (idle : s.iss.granted = false) (clear : ts.all s.tableWordOk = true) (kept : s.stacksKept (s.writeTable ts) = true) :
    exec (.translationFaultService ctx va (.mapped ts)) s = .next
      (((s.writeTable ts).withNotices (s.unnoticed ctx (pageOf va.toNat)).notices).replay ctx (pageOf va.toNat)) := by
  have written : (s.unnoticed ctx (pageOf va.toNat)).writeTable ts =
      (s.writeTable ts).withNotices (s.unnoticed ctx (pageOf va.toNat)).notices := s.writeTable_withNotices _ ts
  have pass : (ts.all (s.unnoticed ctx (pageOf va.toNat)).tableWordOk &&
      (s.unnoticed ctx (pageOf va.toNat)).stacksKept ((s.unnoticed ctx (pageOf va.toNat)).writeTable ts)) = true := by
    rw [written]
    exact Bool.and_eq_true_iff.mpr ⟨clear, kept⟩
  rw [← written]
  exact congrArg Host.Outcome.next ((if_neg (by simp [idle])).trans (if_pos pass))

end Sys2Proof.Machine

namespace Sys2Proof.Proofs

open Sys2Proof.Machine Sys2Proof.Claims

/-- Settles O40: a notice touches the scheduler core's registers and a command link alone; table words are written as if
the notice stood, and no lane that is not over then waits for the page. -/
theorem translationFaultsAreServed : Obligations.TranslationFaultsAreServed := by
  unfold Obligations.TranslationFaultsAreServed
  refine fun s ctx va => ⟨fun waited fresh => ⟨_, exec_faultNotice_due s ctx va waited fresh, ?_⟩,
    fun idle ts clear kept => ⟨_, exec_service_mapped s ctx va ts idle clear kept, ?_⟩, fun idle => ⟨?_, ?_⟩⟩
  · have event := (s.noticeSent ctx va).signalEvent_event s.sched 8
    refine ⟨s.noticeSent_notices ctx va, ?_, fun permits => ?_, s.noticeSent_waves ctx va, s.noticeSent_mem ctx va⟩
    · rw [event]
      by_cases held : (s.clink (s.noticeLink ctx)).upPermits = 0
      · rw [s.noticeSent_event_held ctx va held]
        ac_rfl
      · rw [s.noticeSent_event_sent ctx va held]
        simp only [BitVec.or_assoc]
        rfl
    · rw [event, s.noticeSent_event_sent ctx va (permits _)]
  · refine ⟨rfl, rfl, fun k l here live a parked hl page => ?_, fun k l => ?_⟩
    · have off := State.replay_offPage ((s.writeTable ts).withNotices (s.unnoticed ctx (pageOf va.toNat)).notices) ctx
        (pageOf va.toNat) k ((s.writeTable_here ts k).trans here)
      exact off l (Nat.lt_of_lt_of_eq hl (s.writeTable_width ts k).symm) (by simpa using live) a parked page
    · rw [← s.writeTable_lane ts k l]
      exact (State.replay_alike _ ctx (pageOf va.toNat) k).threads l
  · exact congrArg Host.Outcome.next (if_neg (by simp [idle]))
  · exact congrArg Host.Outcome.next (if_neg (by simp [idle]))

end Sys2Proof.Proofs
end

section
/-! Proofs: throttling, sensors, the management port, loss of power and soft errors (R216, R332, R333, R407-R411). -/

namespace Sys2Proof.Machine

open Sys2Proof.Claims

/-! ## Throttling (R407) -/

theorem Power.rises_iff (p : Power) : p.rises = true ↔ p.throttle.length ≤ 2 ∧ p.throttle.length < p.excess := by
  simp [Power.rises]

theorem Power.falls_iff (p : Power) : p.falls = true ↔ p.throttle ≠ [] ∧ p.excess = 0 := by
  simp [Power.falls]

/-- The state with so many stages of throttling in force. -/
def State.withStages (s : State) (n : Nat) : State := { s with power := { s.power with throttle := List.range n } }

theorem exec_throttle_on (s : State) (n : Nat) : exec (.throttle n true) s = .next
    (if s.power.throttle.length = n ∧ s.power.rises = true then s.withStages (n + 1) else s) := by
  show Host.Outcome.next (if _ then _ else if _ then _ else _) = _
  simp [State.withStages]

theorem exec_throttle_off (s : State) (n : Nat) : exec (.throttle n false) s = .next
    (if s.power.throttle.length = n + 1 ∧ s.power.falls = true then s.withStages n else s) := by
  show Host.Outcome.next (if _ then _ else if _ then _ else _) = _
  simp [State.withStages]

theorem exec_throttle_rises (s : State) (n : Nat) (two : n ≤ 2) (stages : s.power.throttle = List.range n)
    (more : n < s.power.excess) : exec (.throttle n true) s = .next (s.withStages (n + 1)) := by
  have length : s.power.throttle.length = n := by rw [stages, List.length_range]
  rw [exec_throttle_on, if_pos ⟨length, s.power.rises_iff.mpr ⟨length ▸ two, length ▸ more⟩⟩]

theorem exec_throttle_falls (s : State) (n : Nat) (stages : s.power.throttle = List.range (n + 1))
    (calm : s.power.excess = 0) : exec (.throttle n false) s = .next (s.withStages n) := by
  have length : s.power.throttle.length = n + 1 := by rw [stages, List.length_range]
  have inForce : s.power.throttle ≠ [] := List.ne_nil_of_length_eq_add_one length
  rw [exec_throttle_off, if_pos ⟨length, s.power.falls_iff.mpr ⟨inForce, calm⟩⟩]

theorem exec_throttle_on_idle (s : State) (n : Nat) (h : s.power.excess ≤ s.power.throttle.length) :
    exec (.throttle n true) s = .next s := by
  rw [exec_throttle_on, if_neg fun e => absurd (s.power.rises_iff.mp e.2).2 (Nat.not_lt.mpr h)]

theorem exec_throttle_off_idle (s : State) (n : Nat) (h : s.power.excess ≠ 0) :
    exec (.throttle n false) s = .next s := by
  rw [exec_throttle_off, if_neg fun e => h (s.power.falls_iff.mp e.2).2]

/-! ## Samples (R408) -/

/-- The hotter core die's temperature. -/
def topOf (c : DieTemps) : Nat := max c.die0 c.die1

/-- A sample asks for throttling: 95 °C or more, or above the power limit. -/
def sampleAsks (c : DieTemps) (x : PowerSample) : Prop := 95000 ≤ topOf c ∨ limitAt (topOf c) < x.milliW

/-- Power and thermal state after a sample. -/
def Power.sample (p : Power) (c : DieTemps) (x : PowerSample) (now : Nat) : Power :=
  let asked := decide (95000 ≤ topOf c) || decide (limitAt (topOf c) < x.milliW)
  { p with
    milliC := c.die0, milliC1 := c.die1, milliW := x.milliW, coolant := x.coolant
    cycles := p.counts.get 0 3, sampled := now
    hot := if 105000 ≤ topOf c then p.hot.or (some now) else none
    excess := if asked then p.excess + 1 else 0
    throttle := if asked && p.throttle.isEmpty then [0] else p.throttle }

theorem exec_sensorSample (s : State) (c : DieTemps) (x : PowerSample) :
    exec (.sensorSample c x) s = .next { s with power := s.power.sample c x s.time } := rfl

theorem Power.sample_asked (p : Power) {c : DieTemps} {x : PowerSample} (now : Nat) (h : sampleAsks c x) :
    (p.sample c x now).throttle ≠ [] ∧ (p.sample c x now).excess = p.excess + 1 := by
  have asked : (decide (95000 ≤ topOf c) || decide (limitAt (topOf c) < x.milliW)) = true := by
    simpa [sampleAsks] using h
  simp only [Power.sample, asked, Bool.true_and]
  refine ⟨?_, rfl⟩
  split
  · exact List.cons_ne_nil _ _
  next inForce => simpa using inForce

theorem Power.sample_unasked (p : Power) {c : DieTemps} {x : PowerSample} (now : Nat) (h : ¬ sampleAsks c x) :
    (p.sample c x now).throttle = p.throttle ∧ (p.sample c x now).excess = 0 := by
  have unasked : (decide (95000 ≤ topOf c) || decide (limitAt (topOf c) < x.milliW)) = false := by
    simpa [sampleAsks] using h
  simp [Power.sample, unasked]

theorem Power.sample_hot (p : Power) (c : DieTemps) (x : PowerSample) (now : Nat) :
    (p.sample c x now).hot = if 105000 ≤ topOf c then p.hot.or (some now) else none := by
  simp only [Power.sample]

theorem limitAt_cool (c : Nat) (h : c ≤ 95000) : limitAt c = 2400000 := by
  unfold limitAt
  rw [Nat.sub_eq_zero_of_le h, Nat.mul_zero, Nat.sub_zero]

/-! ## Loss of power, the thermal trip (R408, R410, R411) -/

theorem State.tripDue_iff (s : State) :
    s.tripDue = true ↔ ∃ t0, s.power.hot = some t0 ∧ t0 + 2250000 ≤ s.power.sampled := by
  simp [State.tripDue, Option.any_eq_true]

theorem exec_thermalTrip_due (s : State) (t0 : Nat) (hot : s.power.hot = some t0) (h : t0 + 2250000 ≤ s.power.sampled) :
    exec .thermalTrip s = .next s.powerOff :=
  congrArg Host.Outcome.next (if_pos (s.tripDue_iff.mpr ⟨t0, hot, h⟩))

theorem exec_thermalTrip_idle (s : State) (h : ∀ t0, s.power.hot = some t0 → s.power.sampled < t0 + 2250000) :
    exec .thermalTrip s = .next s :=
  congrArg Host.Outcome.next (if_neg fun e =>
    have ⟨t0, hot, due⟩ := s.tripDue_iff.mp e
    absurd (h t0 hot) (Nat.not_lt.mpr due))

/-! ## Soft errors are counted (R332) -/

theorem State.countErrors_one (s : State) (k : Nat) :
    (s.countErrors k 1).power.counts.get 0 k = s.power.counts.get 0 k + 1 :=
  Tab.get_put_same ..

/-- An uncorrectable error is counted. -/
def State.uncorrected (s : State) : State := s.countErrors 1 1

theorem State.uncorrected_keepsThreads (s : State) : KeepsThreads s s.uncorrected :=
  ⟨rfl, rfl, rfl, rfl, fun _ => alikeWaves_refl _⟩

/-! ## Marked words (R216, R333) -/

/-- A mark that is there already is not made twice. -/
theorem ite_contains_insert {α β : Type} [BEq α] [LawfulBEq α] (f : List α → β) (x : α) (xs : List α) :
    (if xs.contains x then f xs else f (x :: xs)) = f (xs.insert x) := by
  by_cases h : x ∈ xs
  · rw [if_pos (List.contains_iff_mem.mpr h), List.insert_of_mem h]
  · rw [if_neg (mt List.contains_iff_mem.mp h), List.insert_of_not_mem h]

/-- The state with these words of home memory marked, and with these words of other places. -/
def State.withBad (s : State) (as : List Nat) : State := { s with bad := as }
def State.withBadNames (s : State) (es : List ErrPlace) : State := { s with badNames := es }

/-- A word of home memory is marked. -/
def State.markWord (s : State) (a : Nat) : State := s.withBad (s.bad.insert a)

/-- A word of another place is marked. -/
def State.markName (s : State) (e : ErrPlace) : State := s.withBadNames (s.badNames.insert e)

theorem exec_softError_home (s : State) (pa : Nat) :
    exec (.softError (.home pa) false) s = .next (s.uncorrected.markWord (pa / 8 * 8)) :=
  congrArg Host.Outcome.next (ite_contains_insert s.uncorrected.withBad _ _)

theorem exec_softError_name (s : State) (e : ErrPlace) (path : e ≠ .path) (home : ∀ pa, e ≠ .home pa) :
    exec (.softError e false) s = .next (s.uncorrected.markName e) := by
  refine Eq.trans ?_ (congrArg Host.Outcome.next (ite_contains_insert s.uncorrected.withBadNames e _))
  cases e with
  | home pa => exact absurd rfl (home pa)
  | path => exact absurd rfl path
  | _ => rfl

theorem State.sysByte_of_bad (s : State) (pa : Nat) (h : pa / 8 * 8 ∈ s.bad) : s.sysByte pa = 0 :=
  if_pos (List.contains_iff_mem.mpr h)

/-- A marked lane name that nothing else explains reads as zero (R333). -/
theorem State.readLaneOf_marked (s : State) (k l n : Nat) (shut : ((s.wave k).lane l).window false n = none)
    (alive : ((s.wave k).lane l).dead = []) (live : s.omitted (s.wave k) 0 n ((s.wave k).lane l).pc = false)
    (past : (s.wave k).forwards 0 l n = false) (marked : .laneName k l n ∈ s.badNames) : s.readLaneOf k l n = 0 := by
  have zero : s.zeroLane k l n = true := by simp [State.zeroLane, marked, past]
  simp [State.readLaneOf, alive, live, shut, zero]

/-- A write of a whole word of home memory clears its mark (R216). -/
theorem State.sysWrite_unmarks (s : State) (pa : Nat) (bs : List Byte) (h : 8 ≤ bs.length) :
    pa ∉ (s.sysWrite pa bs).bad := by
  have kept : (s.sysWrite pa bs).bad = ((s.pushBytes pa bs).unmark pa bs.length).bad :=
    State.overtake_keep State.bad (fun _ _ _ => rfl) ((s.pushBytes pa bs).unmark pa bs.length) pa bs.length
  rw [kept]
  intro e
  have outside := (List.mem_filter.mp e).2
  simp [h] at outside

/-! ## Words in transit (R332) -/

/-- A result in flight whose word of a lane reads as zero. -/
def Flight.zeroed (f : Flight) (l : Nat) : Flight := { f with vals := f.vals.map fun v => if v.1 = l then (l, 0) else v }

theorem State.noteErr_wave (s : State) (k : Nat) (x : ErrNote) :
    (s.noteErr k x).wave k = { s.wave k with errs := x.apply (s.wave k).errs } := by
  unfold State.noteErr
  dsimp only
  split <;> exact s.wave_onWave_same k fun w => { w with errs := x.apply w.errs }

theorem State.noteErr_keepsThreads (s : State) (k : Nat) (x : ErrNote) : KeepsThreads s (s.noteErr k x) := by
  have noted := s.onWave_keepsThreads k (fun w => { w with errs := x.apply w.errs }) ⟨rfl, rfl, rfl, fun _ => rfl⟩
  unfold State.noteErr
  dsimp only
  split
  · exact noted.trans ⟨rfl, rfl, rfl, rfl, fun _ => alikeWaves_refl _⟩
  · exact noted

/-- Bit 0 of CR.ERRS is set by any word read as zero. -/
theorem bit_errsAfter (e : BitVec 64) (src cls name n : Nat) : bit (errsAfter e src cls name n).toNat 0 = true := by
  simp only [errsAfter, bit, BitVec.toNat_ofNat, beq_iff_eq]
  split <;> omega

/-- The flights of a wave with the word of lane `l` in result `i` zeroed. -/
def State.zeroFlight (s : State) (k i l : Nat) (f : Flight) : State :=
  s.onWave k fun w => { w with flights := w.flights.set i (f.zeroed l) }

theorem State.dropWord_eq (s : State) (k i l : Nat) (f : Flight) (h : (s.wave k).flights[i]? = some f) :
    s.dropWord k i l = (s.zeroFlight k i l f).noteErr k (.read f.src 0 f.name 1) := by
  simp only [State.dropWord, h, beq_iff_eq]
  rfl

theorem State.dropWord_flight (s : State) (k i l : Nat) (f : Flight) (h : (s.wave k).flights[i]? = some f) :
    ((s.dropWord k i l).wave k).flights[i]? = some (f.zeroed l) := by
  have inside : i < (s.wave k).flights.length := (List.getElem?_eq_some_iff.mp h).1
  rw [s.dropWord_eq k i l f h, State.noteErr_wave, State.zeroFlight, State.wave_onWave_same]
  exact List.getElem?_set_self inside

theorem State.dropWord_errs (s : State) (k i l : Nat) (f : Flight) (h : (s.wave k).flights[i]? = some f) :
    bit ((s.dropWord k i l).wave k).errs.toNat 0 = true := by
  rw [s.dropWord_eq k i l f h, State.noteErr_wave]
  exact bit_errsAfter ..

theorem State.dropWord_keepsThreads (s : State) (k i l : Nat) (f : Flight) (h : (s.wave k).flights[i]? = some f) :
    KeepsThreads s (s.dropWord k i l) := by
  rw [s.dropWord_eq k i l f h]
  exact (s.onWave_keepsThreads k _ ⟨rfl, rfl, rfl, fun _ => rfl⟩).trans (State.noteErr_keepsThreads ..)

/-- The word in transit that was picked, if any, is zeroed. -/
def State.dropPicked (s : State) : Option (Nat × Nat × Nat) → State
  | some x => s.dropWord x.1 x.2.1 x.2.2
  | none => s

/-- Which word in transit an uncorrectable error hits: a free choice (log 41). -/
def State.pickedWord (s : State) : Option (Nat × Nat × Nat) :=
  s.wordsInFlight[s.choose (tagMisc 0) s.wordsInFlight.length]?

theorem exec_softError_path (s : State) :
    exec (.softError .path false) s = .next (s.uncorrected.dropPicked s.pickedWord) := rfl

/-- Of one word in transit there is no choice. -/
theorem exec_softError_path_one (s : State) (k i l : Nat) (h : s.wordsInFlight = [(k, i, l)]) :
    exec (.softError .path false) s = .next (s.uncorrected.dropWord k i l) := by
  have picked : s.pickedWord = some (k, i, l) := by simp [State.pickedWord, h, State.choose, Nat.mod_one]
  rw [exec_softError_path, picked, State.dropPicked]

theorem exec_softError_path_none (s : State) (h : s.wordsInFlight = []) :
    exec (.softError .path false) s = .next s.uncorrected := by
  have picked : s.pickedWord = none := by simp [State.pickedWord, h]
  rw [exec_softError_path, picked, State.dropPicked]

end Sys2Proof.Machine

namespace Sys2Proof.Proofs

open Sys2Proof.Machine Sys2Proof.Claims

/-- Settles O60: throttling and the trip by their conditions, a sample by what it asks for, a soft error by its place:
home memory, a named place, or a word in transit. -/
theorem powerSensorsAndErrors : Obligations.PowerSensorsAndErrors := by
  unfold Obligations.PowerSensorsAndErrors
  refine ⟨fun s => ⟨?_, exec_throttle_rises s, exec_throttle_falls s, exec_throttle_on_idle s, exec_throttle_off_idle s,
    fun c x => ⟨_, exec_sensorSample s c x, ?_⟩, limitAt_cool,
    fun booted => ⟨_, congrArg Host.Outcome.next (if_pos booted), rfl, rfl, rfl⟩,
    fun unbooted => congrArg Host.Outcome.next (if_neg (by simp [unbooted])), fun i gone => ?_, exec_thermalTrip_idle s⟩,
    fun s e => rfl, fun s pa => ⟨_, exec_softError_home s pa, ?_⟩,
    fun s e path home => ⟨_, exec_softError_name s e path home, ?_⟩,
    fun s k i l f one flight => ⟨_, exec_softError_path_one s k i l one, ?_⟩, exec_softError_path_none,
    State.readLaneOf_marked, fun s pa bs long _ => s.sysWrite_unmarks pa bs long⟩
  · rintro i (rfl | rfl | rfl | ⟨n, on, rfl⟩ | ⟨c, x, rfl⟩ | ⟨e, ok, rfl⟩) <;> exact ⟨_, rfl⟩
  · have hot := s.power.sample_hot c x s.time
    refine ⟨rfl, rfl, rfl, rfl, rfl, rfl, s.power.sample_asked s.time, s.power.sample_unasked s.time, fun cool => ?_,
      fun warm first => ?_, fun t0 warm since => ?_, rfl, rfl⟩
    · exact hot.trans (if_neg (Nat.not_le.mpr cool))
    · exact hot.trans ((if_pos warm).trans (by rw [first]; rfl))
    · exact hot.trans ((if_pos warm).trans (by rw [since]; rfl))
  · have off : exec i s = .next s.powerOff := by
      obtain rfl | ⟨rfl, t0, hot, long⟩ := gone
      · rfl
      · exact exec_thermalTrip_due s t0 hot long
    exact ⟨_, off, rfl, rfl, rfl, rfl, rfl, rfl, rfl, rfl, rfl⟩
  · have marked : pa / 8 * 8 ∈ (s.uncorrected.markWord (pa / 8 * 8)).bad := List.mem_insert_self
    exact ⟨marked, rfl, rfl, s.countErrors_one 1, State.sysByte_of_bad _ pa marked⟩
  · exact ⟨List.mem_insert_self, rfl, rfl⟩
  · have keeps := s.uncorrected_keepsThreads.trans (s.uncorrected.dropWord_keepsThreads k i l f flight)
    exact ⟨s.uncorrected.dropWord_flight k i l f flight, fun _ => s.uncorrected.dropWord_errs k i l f flight, keeps.mem,
      keeps.sameThreads⟩

end Sys2Proof.Proofs
end

section
/-! Proofs: what a release publishes an acquire takes in (R237). -/

namespace Sys2Proof.Machine

/-! ## Lines that go home before a release (R224, R237) -/

/-- A write that takes a later place in the coherence order is no earlier in any view. -/
theorem le_restampIn (pa : Nat) {n m : Nat} (later : n ≤ m) (t : Tab Nat) (a : Nat) :
    t.get 0 a ≤ (restampIn pa n m t).get 0 a := by
  unfold restampIn
  split
  next found =>
    rw [Tab.get_put]
    split
    next e => rw [e, beq_iff_eq.mp found]; exact later
    next => exact Nat.le_refl _
  next => exact Nat.le_refl _

/-- No wave's view loses a write, and which frames have non-atomic propagation and which gang each block is of are as
before. -/
structure GrowsViews (s t : State) : Prop where
  loose : t.loose = s.loose
  blocks : t.blocks = s.blocks
  view : ∀ j a, (s.wave j).view.get 0 a ≤ (t.wave j).view.get 0 a

theorem growsViews_refl (s : State) : GrowsViews s s := ⟨rfl, rfl, fun _ _ => Nat.le_refl _⟩

theorem GrowsViews.trans {s t u : State} (h : GrowsViews s t) (g : GrowsViews t u) : GrowsViews s u :=
  ⟨g.loose.trans h.loose, g.blocks.trans h.blocks, fun j a => Nat.le_trans (h.view j a) (g.view j a)⟩

theorem growsViews_foldl {α : Type} (f : State → α → State) (h : ∀ s a, GrowsViews s (f s a)) (as : List α)
    (s : State) : GrowsViews s (as.foldl f s) := by
  induction as generalizing s with
  | nil => exact growsViews_refl s
  | cons a as ih => exact (h s a).trans (ih _)

theorem State.restamp_growsViews (s : State) (pa n : Nat) : GrowsViews s (s.restamp pa n) where
  loose := rfl
  blocks := rfl
  view := Tab.get_map_rel (R := fun v w : Wave => ∀ a, v.view.get 0 a ≤ w.view.get 0 a)
    (g := fun w => { w with
      view := restampIn pa n (max s.stamp (n + 1)) w.view, code := restampIn pa n (max s.stamp (n + 1)) w.code })
    (fun _ => Nat.le_refl _) (fun w => le_restampIn pa (by omega) w.view) s.waves

theorem State.overtake_growsViews (s : State) (pa len : Nat) : GrowsViews s (s.overtake pa len) := by
  unfold State.overtake
  split
  · exact growsViews_refl s
  · refine growsViews_foldl _ (fun s i => growsViews_foldl _ (fun s v => ?_) _ _) _ _
    dsimp only
    split
    · exact s.restamp_growsViews _ _
    · exact growsViews_refl s

theorem State.writeLine_growsViews (s : State) (v : VLine) : GrowsViews s (s.writeLine v) := by
  refine GrowsViews.trans
    (t := { s with vlines := s.vlines.filter fun x => !(x.cluster == v.cluster && x.line == v.line) })
    ⟨rfl, rfl, fun _ _ => Nat.le_refl _⟩ (growsViews_foldl _ (fun s off => ?_) _ _)
  exact GrowsViews.trans (t := { s with mem := s.mem.set (v.line * 128 + off) (v.bytes.get 0 off) })
    ⟨rfl, rfl, fun _ _ => Nat.le_refl _⟩ (State.overtake_growsViews ..)

/-- The state that a release publishes from: the cluster's lines have gone home where the scope asks for it. -/
def State.flushedFor (s : State) (k scope : Nat) : State :=
  if 2 ≤ scope then s.writeLines (s.clusterOf (s.wave k)) else s

theorem State.flushedFor_growsViews (s : State) (k scope : Nat) : GrowsViews s (s.flushedFor k scope) := by
  unfold State.flushedFor
  split
  · exact growsViews_foldl State.writeLine State.writeLine_growsViews _ s
  · exact growsViews_refl s

theorem State.flushedFor_keepsBarriers (s : State) (k scope : Nat) : KeepsBarriers s (s.flushedFor k scope) :=
  ite_keepsBarriers _ (s.writeLines_keepsBarriers _) (keepsBarriers_refl s)

/-! ## What a release publishes (R237) -/

/-- The part of a wave's view that is on pages with atomic propagation. -/
def State.strongView (s : State) (k : Nat) : Tab Nat :=
  if s.loose.isEmpty then (s.wave k).view else (s.wave k).view.filter fun p => !s.loose.contains (frameOf p.1)

/-- A selection of a table's entries by their numbers loses no entry at a number that it selects. -/
theorem Tab.get_le_get_filter (q : Nat → Bool) {a : Nat} (selected : q a = true) (t : Tab Nat) :
    t.get 0 a ≤ Tab.get 0 (t.filter fun p => q p.1) a := by
  induction t with
  | nil => exact Nat.le_refl _
  | cons p t ih =>
    obtain ⟨k, x⟩ := p
    rw [Tab.get]
    split
    · exact Nat.zero_le _
    next notBelow =>
      split
      next e =>
        subst e
        simp [selected, Tab.get]
      next other =>
        by_cases kept : q k = true
        · simpa [kept, Tab.get, notBelow, other] using ih
        · simpa [kept] using ih

theorem State.view_le_strongView (s : State) (k : Nat) {a : Nat} (atomic : frameOf a ∉ s.loose) :
    (s.wave k).view.get 0 a ≤ (s.strongView k).get 0 a := by
  unfold State.strongView
  split
  · exact Nat.le_refl _
  · exact Tab.get_le_get_filter (fun x => !s.loose.contains (frameOf x)) (by simpa using atomic) _

/-- Publishing what is on pages with non-atomic propagation changes the waves and the list of such publications only. -/
theorem State.publishLoose_shape (s : State) (k scope : Nat) : s.publishLoose k scope =
    { s with waves := (s.publishLoose k scope).waves, pubs := (s.publishLoose k scope).pubs } := by
  unfold State.publishLoose
  dsimp only
  split <;> rfl

/-- What a release does once the lines are home: the strong view goes to the block and, as the scope reaches, to the
gang, the device and the system. -/
def State.publishView (s : State) (k scope : Nat) : State :=
  let b := (s.wave k).block
  let g := s.gangOf (s.wave k)
  let v := s.strongView k
  { s with
    waves := (s.publishLoose k scope).waves
    pubs := (s.publishLoose k scope).pubs
    pubBlk := s.pubBlk.put b (mergeView (s.pubBlk.get [] b) v)
    pubGang := if 1 ≤ scope then s.pubGang.put g (mergeView (s.pubGang.get [] g) v) else s.pubGang
    pubDev := if 2 ≤ scope then mergeView s.pubDev v else s.pubDev
    pubSys := if 3 ≤ scope then mergeView s.pubSys v else s.pubSys }

theorem State.release_eq (s : State) (k scope : Nat) :
    s.release k scope = (s.flushedFor k scope).publishView k scope := by
  unfold State.release State.flushedFor
  generalize (if 2 ≤ scope then s.writeLines (s.clusterOf (s.wave k)) else s) = h
  unfold State.publishView
  dsimp only
  rw [h.publishLoose_shape k scope]
  split <;> split <;> split <;> rfl

theorem State.flushedFor_gangOf (s : State) (k scope : Nat) (w : Wave) :
    (s.flushedFor k scope).gangOf w = s.gangOf w :=
  congrArg (fun bs : Tab Block => (bs.get Block.absent w.block).gang) (s.flushedFor_growsViews k scope).blocks

theorem State.release_gangOf (s : State) (k scope : Nat) (w : Wave) : (s.release k scope).gangOf w = s.gangOf w := by
  rw [State.release_eq]
  exact s.flushedFor_gangOf k scope w

section
variable {s : State} {a : Nat} (atomic : frameOf a ∉ s.loose) (k : Nat) {scope : Nat}
include atomic

/-- The lines that go home first take nothing from what a wave has to publish. -/
theorem State.view_le_strongView_flushedFor :
    (s.wave k).view.get 0 a ≤ ((s.flushedFor k scope).strongView k).get 0 a := by
  have grows := s.flushedFor_growsViews k scope
  exact Nat.le_trans (grows.view k a) (State.view_le_strongView _ k (grows.loose ▸ atomic))

theorem State.view_le_release_pubBlk :
    (s.wave k).view.get 0 a ≤ Tab.get 0 ((s.release k scope).pubBlk.get [] (s.wave k).block) a := by
  rw [State.release_eq, ← (s.flushedFor_keepsBarriers k scope).block k, State.publishView, Tab.get_put_same]
  exact Nat.le_trans (State.view_le_strongView_flushedFor atomic k) (le_mergeView_right ..)

theorem State.view_le_release_pubGang (h1 : 1 ≤ scope) :
    (s.wave k).view.get 0 a ≤ Tab.get 0 ((s.release k scope).pubGang.get [] (s.gangOf (s.wave k))) a := by
  have gang : s.gangOf (s.wave k) = (s.flushedFor k scope).gangOf ((s.flushedFor k scope).wave k) := by
    rw [State.flushedFor_gangOf, State.gangOf, State.gangOf, (s.flushedFor_keepsBarriers k scope).block k]
  rw [State.release_eq, gang, State.publishView, if_pos h1, Tab.get_put_same]
  exact Nat.le_trans (State.view_le_strongView_flushedFor atomic k) (le_mergeView_right ..)

theorem State.view_le_release_pubDev (h2 : 2 ≤ scope) :
    (s.wave k).view.get 0 a ≤ (s.release k scope).pubDev.get 0 a := by
  rw [State.release_eq, State.publishView, if_pos h2]
  exact Nat.le_trans (State.view_le_strongView_flushedFor atomic k) (le_mergeView_right ..)

end

/-! ## What an acquire takes in (R237) -/

theorem State.pubBlk_le_acquire (s : State) (j scope a : Nat) :
    Tab.get 0 (s.pubBlk.get [] (s.wave j).block) a ≤ ((s.acquire j scope).wave j).view.get 0 a :=
  Nat.le_trans (le_mergeView_right ..) (s.mergeView_le_acquire j scope a)

theorem State.pubGang_le_acquire (s : State) (j : Nat) {scope : Nat} (h1 : 1 ≤ scope) (a : Nat) :
    Tab.get 0 (s.pubGang.get [] (s.gangOf (s.wave j))) a ≤ ((s.acquire j scope).wave j).view.get 0 a := by
  unfold State.acquire
  rw [State.wave_setWave_same]
  dsimp only
  rw [if_pos h1]
  exact Nat.le_trans (le_mergeView_right ..) <| Nat.le_trans (le_ite_mergeView _ _ _ a) <|
    Nat.le_trans (le_ite_mergeView _ _ _ a) (s.le_takePubs ..)

theorem State.pubDev_le_acquire (s : State) (j : Nat) {scope : Nat} (h2 : 2 ≤ scope) (a : Nat) :
    s.pubDev.get 0 a ≤ ((s.acquire j scope).wave j).view.get 0 a := by
  unfold State.acquire
  rw [State.wave_setWave_same]
  dsimp only
  rw [if_pos h2]
  exact Nat.le_trans (le_mergeView_right ..) <| Nat.le_trans (le_ite_mergeView _ _ _ a) (s.le_takePubs ..)

end Sys2Proof.Machine

namespace Sys2Proof.Proofs

open Sys2Proof.Machine Sys2Proof.Claims

/-- Settles O23, by the publication that the releasing and the acquiring wave share: the block's, the gang's or the
device's. -/
theorem releaseThenAcquireIsSeen : Obligations.ReleaseThenAcquireIsSeen := by
  unfold Obligations.ReleaseThenAcquireIsSeen
  intro s k j scope a atomic shared
  have block : ((s.release k scope).wave j).block = (s.wave j).block := (s.release_keepsBarriers k scope).block j
  obtain sameBlock | ⟨fromGang, sameGang⟩ | fromDev := shared
  · have published := State.view_le_release_pubBlk atomic k (scope := scope)
    rw [← sameBlock, ← block] at published
    exact Nat.le_trans published (State.pubBlk_le_acquire _ j scope a)
  · have gang : (s.release k scope).gangOf ((s.release k scope).wave j) = s.gangOf (s.wave k) := by
      rw [State.release_gangOf, State.gangOf, block]
      exact sameGang
    have published := State.view_le_release_pubGang atomic k fromGang
    rw [← gang] at published
    exact Nat.le_trans published (State.pubGang_le_acquire _ j fromGang a)
  · exact Nat.le_trans (State.view_le_release_pubDev atomic k fromDev) (State.pubDev_le_acquire _ j fromDev a)

end Sys2Proof.Proofs
end

section
/-! Proofs: what an engine operation's end leaves as it was: its arrival changes barriers and publications alone, its
token the wave's name and marks (R174, R237, R238, R250, R333). -/

namespace Sys2Proof.Machine

open Sys2Proof.Claims

/-! ## Arrivals and publications (R174, R237, R238) -/

theorem State.tellBar_shape (s : State) (b name : Nat) (ns : List Nat) :
    s.tellBar b name ns = { s with barKnown := (s.tellBar b name ns).barKnown } := by
  unfold State.tellBar
  split <;> rfl

theorem State.turnBar_shape (s : State) (b name : Nat) :
    s.turnBar b name = { s with barKnown := (s.turnBar b name).barKnown } := by
  unfold State.turnBar
  split <;> rfl

theorem State.setBar_shape (s : State) (b name : Nat) (v : Barrier) :
    s.setBar b name v = { s with gangs := (s.setBar b name v).gangs, blocks := (s.setBar b name v).blocks } := by
  unfold State.setBar
  dsimp only
  split <;> rfl

theorem State.arrive_shape (s : State) (b name : Nat) : s.arrive b name = { s with
    gangs := (s.arrive b name).gangs, blocks := (s.arrive b name).blocks, barKnown := (s.arrive b name).barKnown } := by
  unfold State.arrive
  dsimp only
  split
  · rw [State.setBar_shape, State.turnBar_shape]
  · rw [State.setBar_shape]

theorem State.publish_shape (s : State) (b scope name : Nat) (ws : Tab Nat) : s.publish b scope name ws = { s with
    pubBlk := (s.publish b scope name ws).pubBlk, pubGang := (s.publish b scope name ws).pubGang
    pubs := (s.publish b scope name ws).pubs, barKnown := (s.publish b scope name ws).barKnown } := by
  unfold State.publish
  dsimp only
  split
  · split <;> rfl
  · rw [State.tellBar_shape]
    split <;> rfl

/-- An engine operation's arrival changes barriers and publications alone. -/
theorem State.engineArrive_shape (s : State) (b : Nat) (ctl : BitVec 64) (ws : Tab Nat) (told : List Nat) :
    s.engineArrive b ctl ws told = { s with
      gangs := (s.engineArrive b ctl ws told).gangs, blocks := (s.engineArrive b ctl ws told).blocks
      pubBlk := (s.engineArrive b ctl ws told).pubBlk, pubGang := (s.engineArrive b ctl ws told).pubGang
      pubs := (s.engineArrive b ctl ws told).pubs, barKnown := (s.engineArrive b ctl ws told).barKnown } := by
  unfold State.engineArrive
  split
  · rw [State.arrive_shape, State.tellBar_shape, State.publish_shape]
  · rfl

/-! ## Writes that enter views (R234) -/

theorem State.seeWrites_shape (s : State) (b : Nat) (ws : Tab Nat) :
    s.seeWrites b ws = { s with waves := (s.seeWrites b ws).waves } := by
  unfold State.seeWrites
  generalize s.wavesOf b = ks
  induction ks generalizing s with
  | nil => rfl
  | cons k ks ih => rw [List.foldl_cons, ih]; rfl

/-- Only the views of waves take in writes. -/
theorem State.seeWrites_wave (s : State) (b : Nat) (ws : Tab Nat) (j : Nat) :
    (s.seeWrites b ws).wave j = { s.wave j with view := ((s.seeWrites b ws).wave j).view } := by
  unfold State.seeWrites
  generalize s.wavesOf b = ks
  induction ks generalizing s with
  | nil => rfl
  | cons k ks ih =>
    rw [List.foldl_cons, ih, State.wave_onWave]
    split
    · next e => rw [e]
    · rfl

/-! ## Tokens (R250, R333) -/

theorem State.unmarkNames_shape (s : State) (p : ErrPlace → Bool) :
    s.unmarkNames p = { s with badNames := (s.unmarkNames p).badNames } := by
  unfold State.unmarkNames
  split <;> rfl

theorem State.writeToken_shape (s : State) (k : Nat) (kind : EngineKind) (op name : Nat) (v : BitVec 64) :
    s.writeToken k kind op name v = { s with
      waves := (s.writeToken k kind op name v).waves, badNames := (s.writeToken k kind op name v).badNames } := by
  unfold State.writeToken
  dsimp only
  split
  · rw [State.unmarkNames_shape]; rfl
  · rfl

/-- A token that is still due is written into its name. -/
theorem State.writeToken_unif (s : State) {k : Nat} {kind : EngineKind} {op : Nat} (name : Nat) (v : BitVec 64)
    (due : tokenDue s k kind op) : ((s.writeToken k kind op name v).wave k).unif.get 0 name = v := by
  obtain ⟨running, open_⟩ := due
  unfold State.writeToken
  simp only [running, open_, Bool.not_false, Bool.and_self, if_true, State.wave_onWave_same]
  exact Tab.get_put_same ..

theorem State.writeToken_keepsTurn (s : State) (k : Nat) (kind : EngineKind) (op name : Nat) (v : BitVec 64) :
    KeepsTurn s (s.writeToken k kind op name v) := by
  unfold State.writeToken
  dsimp only
  split
  · exact (s.unmarkNames_keepsTurn _).trans (State.onWave_keepsTurn _ k _ (Wave.onLanes_single ..))
  · exact s.onWave_keepsTurn k _ (Wave.onLanes_single ..)

end Sys2Proof.Machine
end

section
/-! Proofs: copies move their rows and end (R250, R251, R253-R258, R365, R390). -/

namespace Sys2Proof.Machine

open Sys2Proof.Claims

/-! ## What the movement leaves of a copy -/

/-- Copy `d` is `c` further on: the command is the same, and only its progress differs. -/
def CopyOp.Progress (c d : CopyOp) : Prop :=
  d = { c with rows := d.rows, xv := d.xv, xi := d.xi, bad := d.bad, writes := d.writes, hits := d.hits }

theorem CopyOp.progress_refl (c : CopyOp) : c.Progress c := rfl

theorem CopyOp.Progress.trans {c d e : CopyOp} (h : c.Progress d) (g : d.Progress e) : c.Progress e :=
  Eq.trans g (congrArg (fun x : CopyOp =>
    { x with rows := e.rows, xv := e.xv, xi := e.xi, bad := e.bad, writes := e.writes, hits := e.hits }) h)

theorem CopyOp.Progress.total {c d : CopyOp} (h : c.Progress d) : d.total = c.total := (congrArg CopyOp.total h :)

theorem CopyOp.Progress.cancel {c d : CopyOp} (h : c.Progress d) : d.cancel = c.cancel := (congrArg CopyOp.cancel h :)

/-- Where an end of a row carries the copy on, it is `c` further on. -/
def RowEnd.Continues (c : CopyOp) : RowEnd → Prop
  | .ok _ d => c.Progress d
  | _ => True

theorem RowEnd.Continues.of_progress {c d : CopyOp} {r : RowEnd} (h : c.Progress d) (g : r.Continues d) :
    r.Continues c := by
  cases r with
  | ok s e => exact h.trans g
  | _ => trivial

theorem State.copyElem_continues (s : State) (c : CopyOp) (q x va : Nat) : (s.copyElem c q x va).Continues c := by
  unfold State.copyElem
  dsimp only
  split
  case h_4 =>
    split
    · rfl
    · split
      · trivial
      · rfl
  all_goals trivial

theorem State.copyRow_continues (s : State) (c : CopyOp) (q : Nat) : (s.copyRow c q).Continues c := by
  unfold State.copyRow
  dsimp only
  split
  · exact c.progress_refl
  · split
    · next t d moved =>
      show RowEnd.Continues c (.ok t d)
      rw [← moved]
      refine List.foldlRecOn _ _ (motive := RowEnd.Continues c) c.progress_refl fun r before x _ => ?_
      split
      · exact .of_progress before (State.copyElem_continues ..)
      · exact before
    · next stopped =>
      cases h : List.foldl _ _ _ with
      | ok t d => exact absurd h (stopped t d)
      | _ => trivial

theorem State.copyRows_progress (s : State) (c : CopyOp) (q n : Nat) : c.Progress (s.copyRows c q n).2.1 := by
  induction n generalizing s c q with
  | zero => rfl
  | succ n ih =>
    unfold State.copyRows
    split
    · next t d moved =>
      have row := s.copyRow_continues c q
      rw [moved] at row
      exact CopyOp.Progress.trans row (ih t d (q + 1))
    · rfl

theorem State.moved_progress (s : State) (k before : Nat) (c : CopyOp) : c.Progress (s.moved k before c).2 := by
  unfold State.moved
  split <;> rfl

/-! ## The rows that a copy moves (R251, R253, R256) -/

/-- The row at which a movement ends that nothing stops: a cancelled copy ends after some row that it has begun
(R256). -/
def State.copyGoal (s : State) (k : Nat) (c : CopyOp) : Nat :=
  if c.cancel then c.rows + s.choose (tagMisc k) (c.total - c.rows + 1) else c.total

/-- The rows of a copy move up to row `m`, and the copy settles by what stops them. -/
def State.moveCopy (s : State) (k : Nat) (c : CopyOp) (m : Nat) : State :=
  let r := s.copyRows c c.rows (m - c.rows)
  let t := r.1.moved k c.rows r.2.1
  t.1.settleCopy k m t.2 r.2.2

/-- A copy that waits neither for a page nor for a device moves its rows. -/
theorem exec_copyCompletion (s : State) (k : Nat) (present : s.copies.has k = true)
    (unparked : (s.copy k).parked = none) (here : (s.copy k).away = none) :
    exec (.copyCompletion k) s = .next (s.moveCopy k (s.copy k) (s.copyGoal k (s.copy k))) := by
  have begins : ¬ (!s.copies.has k || (s.copy k).parked.isSome ||
      !((s.copy k).cancel || s.gaveUp (s.copy k).away)) = true := by
    simp [present, unparked, here, State.gaveUp]
  refine congrArg Host.Outcome.next ((if_neg begins).trans ?_)
  generalize s.copy k = c at here
  cases c
  cases here
  rfl

/-- What a copy's movement comes to, once its rows have moved to `(t, d, e)`. -/
theorem exec_copyCompletion_settles (s : State) {k m : Nat} {t : State} {d : CopyOp} {e : Option RowEnd}
    (present : s.copies.has k = true) (unparked : (s.copy k).parked = none) (here : (s.copy k).away = none)
    (goal : s.copyGoal k (s.copy k) = m)
    (moves : s.copyRows (s.copy k) (s.copy k).rows (m - (s.copy k).rows) = (t, d, e)) :
    exec (.copyCompletion k) s = .next
      ((t.moved k (s.copy k).rows d).1.settleCopy k m (t.moved k (s.copy k).rows d).2 e) := by
  rw [exec_copyCompletion s k present unparked here, goal, State.moveCopy, moves]

theorem State.copyRows_moved_progress (s : State) (k : Nat) {c d : CopyOp} {n : Nat} {t : State} {e : Option RowEnd}
    (moves : s.copyRows c c.rows n = (t, d, e)) : c.Progress (t.moved k c.rows d).2 := by
  have rows := s.copyRows_progress c c.rows n
  rw [moves] at rows
  exact rows.trans (t.moved_progress k c.rows d)

/-! ## What stops a movement (R256-R258, R365) -/

theorem State.settleCopy_over (s : State) (k m : Nat) (c : CopyOp) :
    s.settleCopy k m c none = s.endCopy k c (if m < c.total then 1 else 0) 0 m := rfl

theorem State.settleCopy_refused (s : State) (k m : Nat) (c : CopyOp) (err va : Nat) :
    s.settleCopy k m c (some (.refused err va)) = (s.touched c.wave va).endCopy k c 2 err c.rows := rfl

theorem State.settleCopy_fault (s : State) (k m : Nat) {c : CopyOp} (va : Nat) (kept : c.cancel = false) :
    s.settleCopy k m c (some (.fault va)) = s.holdCopy k c va := by
  simp [State.settleCopy, kept]

theorem State.settleCopy_lost (s : State) (k m : Nat) {c : CopyOp} (dev : Nat) (kept : c.cancel = false) :
    s.settleCopy k m c (some (.lost dev)) = s.setCopy k { c with away := some (dev, s.time) } := by
  simp [State.settleCopy, kept]

theorem State.settleCopy_fault_cancelled (s : State) (k m : Nat) {c : CopyOp} (va : Nat) (cancelled : c.cancel = true) :
    s.settleCopy k m c (some (.fault va)) = s.endCopy k c 1 0 c.rows := by
  simp [State.settleCopy, cancelled]

/-! ## Waits of a copy (R257, R258, R365) -/

theorem State.gaveUp_early (s : State) (dev since : Nat) (early : s.time < since + remoteLimit) :
    s.gaveUp (some (dev, since)) = false := by
  rw [State.gaveUp, Option.all_some, decide_eq_false_iff_not, Nat.not_le]
  exact early

/-- A copy waits 2 ms in full for a device without a route (R365). -/
theorem exec_copyCompletion_away (s : State) {k dev since : Nat} (away : (s.copy k).away = some (dev, since))
    (kept : (s.copy k).cancel = false) (early : s.time < since + remoteLimit) :
    exec (.copyCompletion k) s = .next s := by
  have waits : (!s.copies.has k || (s.copy k).parked.isSome ||
      !((s.copy k).cancel || s.gaveUp (s.copy k).away)) = true := by
    simp [kept, away, s.gaveUp_early dev since early]
  exact congrArg Host.Outcome.next (if_pos waits)

theorem exec_copyFaultResume (s : State) {k va : Nat} (parked : (s.copy k).parked = some va)
    (served : ∀ a, s.engineTouch (s.copy k).wave ((s.copy k).kind == 2) va ≠ .fault a)
    (first : s.resumesNow (s.coreOf (s.wave (s.copy k).wave)) (s.copy k).wave (s.copy k).held va = true) :
    exec (.copyFaultResume k) s = .next (s.setCopy k { s.copy k with parked := none, held := false }) := by
  have ready : s.pageReady (s.copy k).wave ((s.copy k).kind == 2) va = true := by
    unfold State.pageReady
    split
    · next a fault => exact absurd fault (served a)
    · rfl
  show execCopyFaultResume k s = _
  unfold execCopyFaultResume
  simp only [parked, ready, first, Bool.and_self, if_true]

theorem exec_copyRefusal (s : State) {k va : Nat} (prot : Bool) (present : s.copies.has k = true)
    (parked : (s.copy k).parked = some va) : exec (.copyRefusal k prot) s =
      .next (s.endCopy k (s.copy k) 2 (if prot then 2 else 1) (s.copy k).rows) := by
  show execCopyRefusal k prot s = _
  unfold execCopyRefusal
  simp only [present, parked, Option.isSome_some, Bool.and_self, if_true]

/-! ## Elements between equal formats (R250, R254) -/

theorem convElem_same (f x : Nat) : convElem f f x = (x, 0) := if_pos (beq_self_eq_true f)

/-- CPY and CPYX between equal formats write the element's bytes as they read them. -/
theorem State.copyElem_in_same (s : State) (c : CopyOp) (q x va : Nat) {pa leaf : Nat} {v : Nat × List Nat}
    (touched : s.engineTouch c.wave (c.kind == 2) va = .ok pa leaf) (same : scratchFmt c.entry c.ctl = tdFmt c.entry)
    (incoming : c.kind ≠ 2)
    (read : (s.touched c.wave va).engineRead c.gone c.wave pa leaf (elemSize (tdFmt c.entry)) = .ok v) :
    s.copyElem c q x va = .ok
      ((s.touched c.wave va).writeScratch c.block c.buf (128 * bits c.ctl.toNat 47 32 +
        imageOff (tdPlain c.entry) (rowBytes c.entry c.ctl) (elemSize (tdFmt c.entry)) q x)
        (leBytes (elemSize (tdFmt c.entry)) v.1) none) (c.noteElem 0 v.2) := by
  have into : ¬ (c.kind == 2) = true := by simpa using incoming
  unfold State.copyElem
  simp only [touched, same, if_neg into, read, convElem_same]

/-- CPYO between equal formats writes the element's bytes as they stand in the image. -/
theorem State.copyElem_out_same (s : State) (c : CopyOp) (q x va : Nat) {pa leaf : Nat}
    (touched : s.engineTouch c.wave (c.kind == 2) va = .ok pa leaf) (same : scratchFmt c.entry c.ctl = tdFmt c.entry)
    (outgoing : c.kind = 2) : ∃ d, s.copyElem c q x va = .ok
      ((s.touched c.wave va).engineWrite c.wave pa leaf (leBytes (elemSize (tdFmt c.entry))
        (ofLe ((List.range (elemSize (tdFmt c.entry))).map fun i => (s.touched c.wave va).scratchEngine c.stale c.block
          c.buf (128 * bits c.ctl.toNat 47 32 + imageOff (tdPlain c.entry) (rowBytes c.entry c.ctl)
            (elemSize (tdFmt c.entry)) q x + i))))).1 d := by
  have out : (c.kind == 2) = true := by simpa using outgoing
  unfold State.copyElem
  simp only [touched, same, if_pos out, convElem_same]
  exact ⟨_, rfl⟩

/-! ## The end of a copy (R250, R251) -/

/-- A copy that ends before its token is written: it is gone, and its writes are in the views of its block's waves. -/
def State.dropCopy (s : State) (k : Nat) (c : CopyOp) : State :=
  { (s.seeWrites c.block c.writes) with copies := s.copies.del k }

theorem State.endCopy_eq (s : State) (k : Nat) (c : CopyOp) (st err m : Nat) : s.endCopy k c st err m =
    ((s.dropCopy k c).writeToken c.wave .copy k c.token (c.tokenWord st err m)).engineArrive c.block c.ctl c.writes
      c.told := rfl

theorem State.dropCopy_tokenDue (s : State) (k : Nat) (c : CopyOp) (due : tokenDue s c.wave .copy k) :
    tokenDue (s.dropCopy k c) c.wave .copy k := by
  unfold tokenDue
  show ((s.seeWrites c.block c.writes).wave c.wave).retired = false ∧
    ((s.seeWrites c.block c.writes).wave c.wave).tokens.any _ = true
  rw [State.seeWrites_wave]
  exact due

theorem State.dropCopy_keepsTurn (s : State) (k : Nat) (c : CopyOp) : KeepsTurn s (s.dropCopy k c) where
  iss := by unfold State.dropCopy; rw [State.seeWrites_shape]
  single j := by
    show ((s.seeWrites c.block c.writes).wave j).single = _
    rw [State.seeWrites_wave]
  unmarked h := by unfold State.dropCopy; rw [State.seeWrites_shape]; exact h

theorem State.endCopy_keepsTurn (s : State) (k : Nat) (c : CopyOp) (st err m : Nat) :
    KeepsTurn s (s.endCopy k c st err m) := by
  rw [State.endCopy_eq, State.engineArrive_shape]
  exact (s.dropCopy_keepsTurn k c).trans ((State.writeToken_keepsTurn ..).trans (keepsTurn_of_eq rfl rfl rfl))

theorem Tab.has_del_same {α : Type} (t : Tab α) (a : Nat) : (t.del a).has a = false := by
  simp [Tab.has, Tab.del]

theorem State.endCopy_copies (s : State) (k : Nat) (c : CopyOp) (st err m : Nat) :
    (s.endCopy k c st err m).copies = s.copies.del k := by
  rw [State.endCopy_eq, State.engineArrive_shape, State.writeToken_shape]
  rfl

theorem State.endCopy_mem (s : State) (k : Nat) (c : CopyOp) (st err m : Nat) :
    (s.endCopy k c st err m).mem = s.mem := by
  rw [State.endCopy_eq, State.engineArrive_shape, State.writeToken_shape]
  exact (congrArg State.mem (s.seeWrites_shape c.block c.writes) :)

theorem State.endCopy_token (s : State) (k : Nat) (c : CopyOp) (st err m : Nat) (due : tokenDue s c.wave .copy k) :
    ((s.endCopy k c st err m).wave c.wave).unif.get 0 c.token = c.tokenWord st err m := by
  rw [State.endCopy_eq, State.engineArrive_shape]
  exact State.writeToken_unif _ c.token _ (s.dropCopy_tokenDue k c due)

end Sys2Proof.Machine

namespace Sys2Proof.Proofs

open Sys2Proof.Machine Sys2Proof.Claims

/-- Settles O45, by what stops a copy's rows: nothing, a page or a device. -/
theorem copiesMoveAndEnd : Obligations.CopiesMoveAndEnd := by
  unfold Obligations.CopiesMoveAndEnd
  refine ⟨fun s k present => ?_, fun s c q x va pa leaf touched same =>
    ⟨fun incoming v read => ⟨_, s.copyElem_in_same c q x va touched same incoming read⟩,
      s.copyElem_out_same c q x va touched same⟩, fun s k c st err m =>
    ⟨?_, s.endCopy_mem k c st err m, s.endCopy_token k c st err m⟩⟩
  · intro c
    refine ⟨fun unparked here kept t d e moves => ?_, fun dev since _ away kept early =>
      exec_copyCompletion_away s away kept early, fun unparked here cancelled => ?_,
      fun va parked => ⟨exec_copyFaultResume s parked, fun prot => exec_copyRefusal s prot present parked⟩⟩
    · intro q
      have goal : s.copyGoal k c = c.total := if_neg (by simp [kept])
      have further : c.Progress q.2 := s.copyRows_moved_progress k moves
      have uncancelled : q.2.cancel = false := further.cancel.trans kept
      rw [exec_copyCompletion_settles s present unparked here goal moves]
      refine ⟨?_, ?_, ?_, ?_⟩
      · rintro rfl
        rw [State.settleCopy_over, further.total, if_neg (Nat.lt_irrefl _)]
      · rintro va rfl
        rw [State.settleCopy_fault _ _ _ va uncancelled]
      · rintro err va rfl
        rw [State.settleCopy_refused]
      · rintro dev rfl
        rw [State.settleCopy_lost _ _ _ dev uncancelled]
    · intro m t d e moves q
      have goal : s.copyGoal k c = m := if_pos cancelled
      have further : c.Progress q.2 := s.copyRows_moved_progress k moves
      rw [exec_copyCompletion_settles s present unparked here goal moves]
      refine ⟨?_, ?_⟩
      · rintro rfl
        rw [State.settleCopy_over, further.total]
      · rintro va rfl
        rw [State.settleCopy_fault_cancelled _ _ _ va (further.cancel.trans cancelled)]
  · show Tab.has _ k = false
    rw [State.endCopy_copies]
    exact Tab.has_del_same ..

end Sys2Proof.Proofs
end

section
/-! Proofs: copy, palp and collective commands whose checks pass are in flight (R246, R250, R252, R256, R289-R295,
R366-R370). -/

namespace Sys2Proof.Machine

open Sys2Proof.Claims

/-! ## Tokens and effects that keep the turn -/

theorem State.flyToken_keepsTurn (s : State) (ls : List Nat) (name : Nat) (kind : EngineKind) (op : Nat) :
    KeepsTurn s (s.flyToken ls name kind op) := by
  unfold State.flyToken
  exact (s.openWindow_keepsTurn ..).trans (State.onWave_keepsTurn _ _ _ rfl)

/-- A command that starts changes engine tables, communicators and gangs, and its token is due. -/
theorem State.starts_keepsTurn {s t : State} (ls : List Nat) (name : Nat) (kind : EngineKind) (op : Nat)
    (iss : t.iss = s.iss) (waves : t.waves = s.waves) (marks : t.badNames = s.badNames) :
    KeepsTurn s (t.flyToken ls name kind op) :=
  (keepsTurn_of_eq iss waves marks).trans (t.flyToken_keepsTurn ..)

theorem State.onCore_core (s : State) (act : List Nat) (f : Unit → Eff) (core : s.cur.priv = false) :
    s.onCore act f = f () :=
  if_neg (by simp [core])

/-! ## Copies (R246, R252, R256) -/

/-- A copy command is the issue of a start of a copy. -/
theorem exec_copyKind (s : State) {i : Instr} {kind : Nat} {e : CopyOps} (h : copyKind i = some (kind, e))
    (core : kind = 1 → s.cur.priv = false) : ∃ f, exec i s = .next (s.issue i f) ∧
      f s (s.active i) = s.startCopy kind e (s.active i) := by
  unfold copyKind at h
  split at h
  case h_1 => cases h; exact ⟨_, rfl, rfl⟩
  case h_2 => cases h; exact ⟨_, rfl, s.onCore_core _ _ (core rfl)⟩
  case h_3 => cases h; exact ⟨_, rfl, rfl⟩
  case h_4 => cases h

theorem State.startCopy_taken (s : State) {i : Instr} {kind : Nat} {e : CopyOps} (h : copyTaken s i kind e) :
    s.startCopy kind e (s.active i) = .done (({ s with nextOp := s.nextOp + 1 }.setCopy s.nextOp
      (copyOf s i kind e)).flyToken (s.active i) e.tok.toNat .copy s.nextOp) := by
  obtain ⟨place, token, usable, canonical, aligned, fits⟩ := h
  simp only [copyOf] at usable canonical aligned fits
  unfold State.startCopy copyOf
  simp only [Nat.not_le.mpr place, token, usable, canonical, aligned, Nat.not_lt.mpr fits, beq_iff_eq, Bool.or_eq_true,
    bne_self_eq_false, Bool.not_true, Bool.false_eq_true, if_false]

/-- CPYC's mark, and the end of a copy that waits for a page, keep the turn (R256). -/
theorem State.cancelled_keepsTurn (s : State) (act : List Nat) (name op : Nat) (c : CopyOp) :
    let t := (s.setCopy op { c with cancel := true }).flyToken act name .copy op
    KeepsTurn s (if c.parked.isSome then t.endCopy op c 1 0 c.rows else t) := by
  intro t
  have marked : KeepsTurn s t := State.starts_keepsTurn _ _ _ _ rfl rfl rfl
  exact ite_keepsTurn _ (marked.trans (t.endCopy_keepsTurn ..)) marked

/-! ## Palp commands (R289-R295) -/

/-- On a core, a palp command is the issue of a start of its operation. -/
theorem exec_palpKind (s : State) {i : Instr} {kind : Nat} {e : PalpOps} (h : palpKind i = some (kind, e))
    (core : s.cur.priv = false) : ∃ f, exec i s = .next (s.issue i f) ∧
      f s (s.active i) = s.startPalp kind e (s.active i) := by
  unfold palpKind at h
  split at h
  case h_6 => cases h
  all_goals
    cases h
    exact ⟨_, rfl, s.onCore_core _ _ core⟩

theorem State.badScratchKeys_of_none (s : State) (hn : s.badNames = []) (b buf off n : Nat) :
    s.badScratchKeys b buf off n = [] := by
  simp [State.badScratchKeys, s.badScratch_of_none hn]

/-- Where no word is marked, none of those that a palp command reads at issue is. -/
theorem State.no_bad_words (s : State) (hn : s.badNames = []) (b buf : Nat) (xs : List (Nat × Nat)) :
    (xs.flatMap fun x => s.scratchPast.badScratchKeys b buf x.1 x.2).eraseDups = [] := by
  have none : (xs.flatMap fun x => s.scratchPast.badScratchKeys b buf x.1 x.2) = [] :=
    List.flatMap_eq_nil_iff.mpr fun _ _ => State.badScratchKeys_of_none _ (s.scratchPast_badNames.trans hn) ..
  rw [none]
  rfl

/-- R290's checks of a control word, as the model makes them. -/
theorem palpCtl_usable {c bar rb : Nat} (high : bits c 55 48 = 0) (low : bits c 15 0 = 0)
    (barrier : if bit c 63 then bits c 61 56 < bar else bits c 61 56 = 0)
    (toGlobal : bit c 62 = true → 128 * bits c 31 16 = 0 ∧ rb = 0) :
    (bits c 55 48 != 0 || bits c 15 0 != 0 || (if bit c 63 then decide (bar ≤ bits c 61 56) else bits c 61 56 != 0) ||
      (bit c 62 && (128 * bits c 31 16 != 0 || rb != 0))) = false := by
  have named : (if bit c 63 then decide (bar ≤ bits c 61 56) else bits c 61 56 != 0) = false := by
    cases b : bit c 63 with
    | false => simpa [b] using barrier
    | true => simpa [b] using barrier
  have area : (bit c 62 && (128 * bits c 31 16 != 0 || rb != 0)) = false :=
    Bool.and_eq_false_imp.mpr fun b => by simp [toGlobal b]
  simp only [high, low, named, area, bne_self_eq_false, Bool.or_self]

theorem State.startPalp_taken (s : State) {i : Instr} {kind : Nat} {e : PalpOps} (hn : s.badNames = [])
    (h : palpTaken s i kind e) :
    s.startPalp kind e (s.active i) = .done (({ s with nextOp := s.nextOp + 1 }.setPalp s.nextOp
      (palpOf s i kind e)).flyToken (s.active i) e.t.toNat .palp s.nextOp) := by
  obtain ⟨noCopy, noPalp, place, high, low, barrier, toGlobal, block, plan, toBuffer, tables, addrs, aligned, raligned,
    fits⟩ := h
  have tablesFit := List.find?_eq_none.mpr fun (x : Nat × Nat) hx =>
    show ¬ (x.1 % 4 != 0 || decide (s.scratchSize s.cur.block e.pb.toNat < x.1 + x.2)) = true by
      simpa using tables x hx
  have canonical := List.find?_eq_none.mpr fun a ha => show ¬ (bits a 63 56 != 0) = true by simpa using addrs a ha
  have noAddress : (!(bit (palpCtl s i e).toNat 62) && word64 (palpBlock s i e) 4 != 0) = false :=
    Bool.and_eq_false_imp.mpr fun b => by simp [toBuffer ((Bool.not_eq_true' _).mp b)]
  have resultAligned : (bit (palpCtl s i e).toNat 62 && word64 (palpBlock s i e) 4 % 16 != 0) = false :=
    Bool.and_eq_false_imp.mpr fun b => by simp [raligned b]
  have resultFits : (!(bit (palpCtl s i e).toNat 62) && decide (s.scratchSize s.cur.block e.rb.toNat <
      128 * bits (palpCtl s i e).toNat 31 16 + (planOf kind (palpBlock s i e)).size)) = false :=
    Bool.and_eq_false_imp.mpr fun b => by simpa using fits ((Bool.not_eq_true' _).mp b)
  unfold State.startPalp
  dsimp only
  simp only [← palpCtl.eq_1, ← palpBlock.eq_1]
  simp only [noCopy, noPalp, Nat.not_le.mpr place, palpCtl_usable high low barrier toGlobal, Nat.not_lt.mpr block, plan,
    noAddress, tablesFit, canonical, aligned, resultAligned, resultFits, s.no_bad_words hn, bne_self_eq_false,
    Bool.or_self, Bool.not_true, Bool.false_eq_true, if_false]
  rfl

/-! ## COLL (R366-R370) -/

theorem State.collEff_taken (s : State) {e : CollOps} {m : Comm} (h : collTaken s e m) :
    let t : State := { s with
      nextOp := s.nextOp + 1
      comms := s.comms.map fun (q : Comm) => if q = m then { q with issued := q.issued + 1 } else q }
    s.collEff e (s.active (.coll e)) = .done (((t.setGang (s.gangOf s.cur)
      { t.gang (s.gangOf s.cur) with coll := true }).setColl s.nextOp (collOf s e m)).flyToken
        (s.active (.coll e)) e.t.toNat .coll s.nextOp) := by
  obtain ⟨place, usable, some_, few, member, source, target⟩ := h
  simp only [collOf] at usable some_ few member source target
  unfold State.collEff collOf State.gangOf
  simp only [Nat.not_le.mpr place, usable, some_, Nat.not_lt.mpr few, member, Nat.not_lt.mpr source,
    Nat.not_lt.mpr target, beq_iff_eq, if_false, Bool.not_true, Bool.false_eq_true, Bool.or_eq_true, or_self,
    decide_eq_true_eq]

end Sys2Proof.Machine

namespace Sys2Proof.Proofs

open Sys2Proof.Machine Sys2Proof.Claims

/-- Settles O30: a command whose checks pass has the start of its operation as its effect, which keeps the turn; so
does CPYC's mark. -/
theorem commandsStartTheirOperations : Obligations.CommandsStartTheirOperations := by
  unfold Obligations.CommandsStartTheirOperations
  refine ⟨fun s i kind e h ready core taken => ?_, fun s e ready => ?_, fun s i kind e h ready core taken => ?_,
    fun s e m ready taken => ?_⟩
  · obtain ⟨f, issued, started⟩ := exec_copyKind s h core
    exact s.completes_of_done i f _ issued ready (started.trans (s.startCopy_taken taken))
      (State.starts_keepsTurn _ _ _ _ rfl rfl rfl)
  · refine s.completes_of_done _ _ _ rfl ready rfl ?_
    split
    · exact State.cancelled_keepsTurn ..
    · exact keepsTurn_refl s
  · obtain ⟨f, issued, started⟩ := exec_palpKind s h core
    exact s.completes_of_done i f _ issued ready
      (started.trans (s.startPalp_taken (s.ready_badNames i ready) taken)) (State.starts_keepsTurn _ _ _ _ rfl rfl rfl)
  · exact s.completes_of_done _ _ _ rfl ready (s.collEff_taken taken) (State.starts_keepsTurn _ _ _ _ rfl rfl rfl)

end Sys2Proof.Proofs
end

section
/-! Proofs: matrix operations are recorded (R264-R267, R281). -/

namespace Sys2Proof.Machine

open Sys2Proof.Claims

/-- A signature changes a convergence register and the order of an operation (R177, R178). -/
theorem State.sign_keepsTurn (s : State) (k name : Nat) (op : Option Nat) : KeepsTurn s (s.sign k name op) := by
  unfold State.sign
  dsimp only
  split
  · have shut := s.setConv_keepsTurn (s.wave k).block name .empty
    split
    · exact shut.trans (keepsTurn_of_eq rfl rfl rfl)
    · exact shut
  · exact s.setConv_keepsTurn ..

theorem State.record1_taken (s : State) {i : Instr} {ganged : Bool} {e : MmaOps} (h : matrixTaken s i ganged e) :
    s.record1 e ganged (s.active i) = .done (({ s with nextOp := s.nextOp + 1 }.setMat s.nextOp
      (matrixOf s i ganged e)).sign s.iss.wave e.cv.toNat (some s.nextOp)) := by
  obtain ⟨places, unsigned, slotA, slotB, canonical, aligned, alignedStride, empty⟩ := h
  have room : (s.matBlocks ganged).any (fun x => decide (16 ≤ s.fifoUsed (s.block x).core)) = false :=
    List.any_eq_false.mpr fun x hx => by simpa using places x hx
  have fresh : (s.conv s.cur.block e.cv.toNat).signed.contains s.iss.wave = false := by simpa using unsigned
  have fitsB : (!mmaStr e && decide (s.scratchSize s.cur.block e.bn.toNat < (e.ib.toNat + 1) * mmaSlotB e)) = false :=
    Bool.and_eq_false_imp.mpr fun str => by simpa using slotB ((Bool.not_eq_true' _).mp str)
  change bits (if mmaStr e then _ else 0) 63 56 = 0 at canonical
  change (if mmaStr e then _ else 0) % mmaWb e = 0 at aligned
  change (if mmaStr e then _ else 0) % mmaWb e = 0 at alignedStride
  unfold State.record1
  simp only [room, fresh, Nat.not_lt.mpr slotA, fitsB, canonical, aligned, alignedStride, empty, bne_self_eq_false,
    Bool.or_self, Option.isSome_none, Bool.false_eq_true, if_false]
  rfl

/-- On a core, with every lane of its wave there, MMA or MMAG is the issue of a recording. -/
theorem exec_matrixForm (s : State) {i : Instr} {ganged : Bool} {e : MmaOps} (h : matrixForm i = some (ganged, e))
    (core : s.cur.priv = false) (together : ∀ l ∈ s.seen.present, l ∈ s.issuing) :
    ∃ f, exec i s = .next (s.issue i f) ∧ f s (s.active i) = s.record1 e ganged (s.active i) := by
  unfold matrixForm at h
  split at h
  case h_1 | h_2 =>
    cases h
    exact ⟨_, rfl, (s.onCore_core _ _ core).trans (s.whole_together _ together)⟩
  case h_3 => cases h

end Sys2Proof.Machine

namespace Sys2Proof.Proofs

open Sys2Proof.Machine Sys2Proof.Claims

/-- Settles O31: an operation whose checks pass has its recording as its effect, which keeps the turn. -/
theorem matrixOperationsAreRecorded : Obligations.MatrixOperationsAreRecorded := by
  unfold Obligations.MatrixOperationsAreRecorded
  intro s i ganged e form ready core together taken
  obtain ⟨f, issued, records⟩ := exec_matrixForm s form core together
  have recorded : KeepsTurn s ({ s with nextOp := s.nextOp + 1 }.setMat s.nextOp (matrixOf s i ganged e)) :=
    keepsTurn_of_eq rfl rfl rfl
  exact s.completes_of_done i f _ issued ready (records.trans (s.record1_taken taken))
    (recorded.trans (State.sign_keepsTurn ..))

end Sys2Proof.Proofs
end

section
/-! Proofs: what reset leaves, and what a step is that no lane set has been granted (R375, R386, R410). -/

namespace Sys2Proof.Machine

open Sys2Proof.Claims

theorem State.reset_inv : DeviceInv State.reset where
  memory := rfl
  throttle := ⟨0, by decide, rfl⟩
  sched := .inl rfl
  permits _ := ⟨rfl, rfl⟩

/-! ## A step without a granted lane set -/

/-- With power and no lane set granted, a step is the first of four kinds that is due. -/
theorem step_ungranted (s : State) (powered : s.power.on = true) (idle : s.iss.granted = false) : step s =
    match s.overdue with
    | some i => exec i s.tick
    | none => match s.orders with
      | i :: rest => exec i { s.tick with orders := rest }
      | [] => match s.agendaDue with
        | some (i, rest) => { s.tick with agenda := rest }.bring i
        | none => match s.tick.auto with
          | some i => exec i s.tick
          | none => .next s.tick := by
  unfold step
  rw [powered, idle]
  rfl

theorem State.agendaDue_of_due {s : State} {due : Nat} {i : Instr} {rest : List (Nat × Instr)}
    (first : s.agenda = (due, i) :: rest) (h : due ≤ s.time) : s.agendaDue = some (i, rest) := by
  unfold State.agendaDue
  rw [first]
  exact if_pos h

theorem State.agendaDue_of_later {s : State}
    (later : ∀ due i rest, s.agenda = (due, i) :: rest → s.time < due) : s.agendaDue = none := by
  unfold State.agendaDue
  split
  · next e rest first => exact if_neg (Nat.not_le.mpr (later e.1 e.2 rest first))
  · rfl

/-- A MOLT that has been held for 500 cycles has the performance of some MOLT overdue (log 49). -/
theorem State.overdue_of_held {s : State} {p : Nat × Wave} (mem : p ∈ s.waves) (used : p.2.used = true)
    (runs : p.2.retired = false) {l : Nat} (live : l ∈ p.2.live) {h : BitVec 64} {n : Nat}
    (held : (p.2.lane l).wait = .molt h n) (long : n + 500 ≤ s.time) : ∃ k, s.overdue = some (.moltPerformed k) := by
  unfold State.overdue
  cases found : s.waves.find? _ with
  | some q => exact ⟨q.1, rfl⟩
  | none =>
    refine absurd (List.find?_eq_none.mp found p mem) (not_not_intro ?_)
    rw [used, runs]
    exact List.any_eq_true.mpr ⟨l, live, by simpa [held] using long⟩

/-! ## A step without power -/

theorem State.bootDue_of_boot {s : State} {ev rest : List (Nat × Instr)} {due : Nat} {img : List Byte}
    (before : ∀ e ∈ ev, Machine.Instr.isBoot e.2 = false) (agenda : s.agenda = ev ++ (due, .boot img) :: rest) :
    s.bootDue = some (.boot img, rest) := by
  have dropped : s.agenda.dropWhile (fun e => !Machine.Instr.isBoot e.2) = (due, .boot img) :: rest := by
    rw [agenda, List.dropWhile_append_of_pos fun e he => by rw [before e he]; rfl]
    rfl
  unfold State.bootDue
  rw [dropped]

theorem State.bootDue_of_none {s : State} (h : ∀ e ∈ s.agenda, Machine.Instr.isBoot e.2 = false) : s.bootDue = none := by
  have dropped : s.agenda.dropWhile (fun e => !Machine.Instr.isBoot e.2) = [] :=
    List.dropWhile_eq_nil_iff.mpr fun e he => by rw [h e he]; rfl
  unfold State.bootDue
  rw [dropped]

theorem step_unpowered (s : State) (off : s.power.on = false) : step s =
    match s.bootDue with
    | some (i, rest) => exec i { s.tick with agenda := rest }
    | none => .fault .poweredOff := by
  unfold step
  rw [off]
  rfl

end Sys2Proof.Machine

namespace Sys2Proof.Proofs

open Sys2Proof.Machine Sys2Proof.Claims

/-- Settles O6: the fields of the state after reset, whose tables are empty. -/
theorem resetLeaves : Obligations.ResetLeaves :=
  ⟨rfl, rfl, rfl, rfl, rfl, rfl, rfl, rfl, rfl, rfl, rfl, rfl, rfl, rfl, rfl, rfl, rfl, rfl,
    fun _ => ⟨rfl, rfl, rfl, rfl, rfl⟩, fun _ => ⟨rfl, rfl⟩, fun _ => rfl, fun _ => rfl, State.reset_inv⟩

/-- Settles O5: the kinds of step in the order in which a step looks for them. -/
theorem stepBringsEvents : Obligations.StepBringsEvents := by
  unfold Obligations.StepBringsEvents
  intro s
  refine ⟨fun powered idle => ⟨fun i overdue => ?_, fun p mem used runs l live h n held long =>
      State.overdue_of_held mem used runs live held long⟩,
    fun powered idle none i rest orders => ?_, fun powered idle none orders => ⟨fun due i rest first h => ?_, fun later => ?_⟩,
    fun off => ⟨fun ev due img rest before agenda => ?_, fun noBoot => ?_⟩⟩
  · rw [step_ungranted s powered idle, overdue]
  · rw [step_ungranted s powered idle, none, orders]
  · rw [step_ungranted s powered idle, none, orders, State.agendaDue_of_due first h]
    refine ⟨fun ls links => ?_, fun links => ?_⟩ <;>
    · show State.bring _ i = _
      rw [State.bring, links]
  · rw [step_ungranted s powered idle, none, orders, State.agendaDue_of_later later]
    exact ⟨fun i auto => by rw [auto], fun auto => by rw [auto]⟩
  · rw [step_unpowered s off, State.bootDue_of_boot before agenda]
  · rw [step_unpowered s off, State.bootDue_of_none noBoot]

end Sys2Proof.Proofs
end

section
/-! Proofs: on a control core, a schedule operation waits behind a MOLT of its wave before it is looked at (R184, R373). -/

namespace Sys2Proof.Machine

/-- SNEXT of a wave that holds a lane set at a MOLT waits to enter the claim order (R184), on whatever core. -/
theorem exec_snext_behind_molt (s : State) (o : Ops) (ready : s.ready (.snext o) = true)
    (molting : s.cur.molting = true) : exec (.snext o) s = .next (s.hold s .order) := by
  have waits : s.snextEff o (s.active (.snext o)) = .wait s .order := if_pos molting
  show Host.Outcome.next (s.issue (.snext o) _) = _
  rw [s.issue_ready _ _ ready, waits]
  rfl

/-! ## A control core's wave, one lane at SNEXT and one held at a MOLT -/

/-- A wave of control core 0 of which two lanes live, the second held at a MOLT. -/
def moltingControlWave : Wave :=
  { probeWave with
    control := some 0
    lanes := [(0, probeLane), (1, { probeLane with pc := 0x10004, wait := .molt 1 0 })] ++
      (List.range' 2 14).map fun l => (l, { probeLane with exited := true }) }

/-- The first lane of that wave has been granted issue. -/
def controlState : State :=
  let s := State.reset.placeCode ⟨0, 0, 0, 0⟩
  { s with iss := .of 1 [0], waves := s.waves.put 1 moltingControlWave, ctls := s.ctls.put 0 { s.ctl 0 with wave := 1 } }

/-- The operands of an SNEXT of rank 1. -/
def snextRankOne : Ops := ⟨false, false, .always, false, false, false, 0, 4, 0, 0, 1⟩

theorem controlState_ready : controlState.ready (.snext snextRankOne) = true := by decide +kernel

/-- The wait behind the MOLT and the trap leave lane 0 differently. -/
theorem controlState_waits :
    (((controlState.hold controlState .order).wave 1).lane 0).wait = .order ∧
    (((controlState.trapTurn causePriv 0 ((controlState.active (.snext snextRankOne)).headD 0)).wave 1).lane 0).wait ≠
      .order := by decide +kernel

end Sys2Proof.Machine

namespace Sys2Proof.Proofs

open Sys2Proof.Machine

/-- Refutes O33: its first part has every schedule operation trap on a control core, but one that is issued while another
lane set of its wave is held at a MOLT waits to enter the claim order before its privilege is looked at (R184): at
`controlState` SNEXT leaves lane 0 waiting, where the statement claims a trap. -/
theorem not_controlCoresAndServices : ¬ Obligations.ControlCoresAndServices := by
  unfold Obligations.ControlCoresAndServices
  rintro ⟨traps, -⟩
  have claimed := traps controlState (.snext snextRankOne) trivial controlState_ready (by decide +kernel)
  rw [exec_snext_behind_molt controlState snextRankOne controlState_ready (by decide +kernel)] at claimed
  have same := congrArg (fun t : State => ((t.wave 1).lane 0).wait) (Host.Outcome.next.inj claimed)
  exact controlState_waits.2 (same.symm.trans controlState_waits.1)

end Sys2Proof.Proofs
end

section
/-! Proofs: accumulator tiles, the epilogue and merges (R274-R280, R308, R309). -/

namespace Sys2Proof.Machine

open Sys2Proof.Claims

/-! ## Folds over writes of images -/

/-- Two folds agree where their steps agree on what an invariant holds of, and keep it. -/
theorem foldl_congr_of_inv {α β : Type} {P : α → Prop} (f g : α → β → α) (bs : List β) (a : α) (start : P a)
    (step : ∀ a, P a → ∀ b ∈ bs, f a b = g a b ∧ P (g a b)) : bs.foldl f a = bs.foldl g a ∧ P (bs.foldl g a) := by
  induction bs generalizing a with
  | nil => exact ⟨rfl, start⟩
  | cons b bs ih =>
    obtain ⟨same, kept⟩ := step a start b (List.mem_cons_self ..)
    rw [List.foldl_cons, List.foldl_cons, same]
    exact ih _ kept fun a h c hc => step a h c (List.mem_cons_of_mem _ hc)

theorem State.unmarkScratch_of_none (s : State) (hn : s.badNames = []) (b buf off len : Nat) :
    s.unmarkScratch b buf off len = s :=
  if_pos (by rw [hn]; rfl)

/-- A row that has been written as another fold writes it, with no word marked, loses no marks. -/
theorem State.unmarkScratch_row {u v : State} (row : u = v ∧ v.badNames = []) (b buf off len : Nat) :
    u.unmarkScratch b buf off len = v ∧ v.badNames = [] := by
  obtain ⟨rfl, none⟩ := row
  exact ⟨u.unmarkScratch_of_none none b buf off len, none⟩

theorem State.blurScratch_keepsTurn (s : State) (b buf off len : Nat) : KeepsTurn s (s.blurScratch b buf off len) :=
  (s.writeScratch_keepsTurn ..).trans (State.setScratch_keepsTurn ..)

/-- What a unit's accesses leave of the turn: only hits that wait for their reports are new (R390). -/
theorem State.watchUnit_keepsTurn (s : State) (k : Nat) (act : List Nat) (rs : List Span) :
    KeepsTurn s (s.watchUnit k act rs) := by
  unfold State.watchUnit State.hitUnit
  dsimp only
  split
  · exact keepsTurn_refl s
  · exact keepsTurn_of_eq rfl rfl rfl

/-! ## ACCZ (R274) -/

theorem killedNames_accz (o : Ops) : killedNames (.accz o) = [] := rfl

theorem State.zeroTile_keepsTurn (s : State) (b t : Nat) : KeepsTurn s (s.zeroTile b t) :=
  ⟨rfl, fun _ => rfl, fun none => by
    show List.filter _ s.badNames = []
    rw [none]
    rfl⟩

theorem State.zeroTile_tile (s : State) (b t n : Nat) : ((s.zeroTile b t).block b).tiles.get .zero n =
    if n = t then { AccTile.zero with dirty := List.range 256 } else (s.block b).tiles.get .zero n := by
  have put : ((s.zeroTile b t).block b).tiles = (s.block b).tiles.put t { AccTile.zero with dirty := List.range 256 } :=
    congrArg Block.tiles (State.block_setBlock_same s b _)
  rw [put, Tab.get_put]

theorem exec_accz (s : State) (o : Ops) (ready : s.ready (.accz o) = true) :
    Completes (.accz o) s (s.zeroTile s.cur.block o.dst.toNat) [] :=
  s.completes_of_done _ _ _ rfl ready rfl (s.zeroTile_keepsTurn ..)

/-- An instruction that completes with no tile ended leaves memory and tiles as its effect has them, and its lanes at
the next instruction. -/
theorem Completes.noKills {i : Instr} {s t : State} (h : Completes i s t []) (none : killedNames i = []) :
    Answers i s fun r => r.mem = t.mem ∧ r.blocks = t.blocks ∧
      ∀ l ∈ s.issuing, ((r.wave s.iss.wave).lane l).pc = s.iss.next := by
  obtain ⟨r, exec, retired⟩ := h
  refine ⟨r, exec, (congrArg State.mem retired.device :), ?_, fun l hl => ?_⟩
  · rw [retired.blocks, endedNames, none, ite_self]
    rfl
  · have lane := retired.lanes l
    rw [if_pos hl] at lane
    exact (congrArg Lane.pc lane :)

/-! ## ACCTEST (R275) -/

theorem State.badTile_of_none (s : State) (hn : s.badNames = []) (b t : Nat) : s.badTile b t = [] := by
  unfold State.badTile
  rw [hn]
  rfl

/-- Where no element is marked, ACCTEST reads the tile without its undefined elements (log 9). -/
theorem State.tileShown_of_none (s : State) (hn : s.badNames = []) (b t : Nat) : s.tileShown b t =
    let v := (s.block b).tiles.get .zero t
    { v with elems := v.undefs.foldl (fun es i => es.del i) v.elems } := by
  unfold State.tileShown
  rw [s.badTile_of_none hn]
  rfl

theorem State.blurUnif_keepsTurn (s : State) (name : Nat) (mask : BitVec 64) : KeepsTurn s (s.blurUnif name mask) :=
  ite_keepsTurn _ (keepsTurn_refl s) (s.onWave_keepsTurn _ _ rfl)

theorem State.flyUnif_keepsTurn (s : State) (ls : List Nat) (name : Nat) (v : BitVec 64) :
    KeepsTurn s (s.flyUnif ls name v) := by
  unfold State.flyUnif
  exact (s.openWindow_keepsTurn ..).trans (State.onWave_keepsTurn _ _ _ rfl)

theorem State.tileVague_of_none (s : State) (hn : s.badNames = []) (b t : Nat) :
    let v := (s.block b).tiles.get .zero t
    let shown : AccTile := { v with elems := v.undefs.foldl (fun es i => es.del i) v.elems }
    s.tileVague b t = if s.tileBusy b t then BitVec.allOnes 64
      else (if v.undefs = [] then 0 else 15#64 &&& ~~~shown.summary) ||| (if v.blur then 0xFFFF0000FFFF0010#64 else 0) := by
  unfold State.tileVague AccTile.vague
  simp only [s.tileShown_of_none hn, List.isEmpty_iff]

theorem exec_acctest (s : State) (o : Ops) (ready : s.ready (.acctest o) = true) :
    let b := s.cur.block
    Completes (.acctest o) s ((s.flyUnif (s.active (.acctest o)) o.dst.toNat (s.tileShown b o.s0.toNat).summary).blurUnif
      o.dst.toNat (s.tileVague b o.s0.toNat)) [] :=
  s.completes_of_done _ _ _ rfl ready rfl ((s.flyUnif_keepsTurn ..).trans (State.blurUnif_keepsTurn ..))

/-! ## EPI (R276-R280) -/

theorem epiPut_keepsTurn (s : State) (i : Instr) (e : EpiOps) (t : State) (r j : Nat) :
    KeepsTurn t (epiPut s i e t r j) :=
  ite_keepsTurn _ (t.blurScratch_keepsTurn ..) (t.writeScratch_keepsTurn ..)

theorem epiWidth_eq (e : EpiOps) : epiWidth e = if e.h.mod == 1#3 then 1 else fmtWidth e.fmt.toNat / 8 := by
  simp only [epiWidth, beq_iff_eq]

/-- EPI's image, written element by element. -/
def State.epiImage (s : State) (i : Instr) (e : EpiOps) : State :=
  (List.range (dimOf e.mc)).foldl (fun t r => (List.range (dimOf e.nc)).foldl (fun t j => epiPut s i e t r j) t) s

theorem State.epiImage_keepsTurn (s : State) (i : Instr) (e : EpiOps) : KeepsTurn s (s.epiImage i e) :=
  keepsTurn_foldl _ (fun _ _ => keepsTurn_foldl _ (fun _ _ => epiPut_keepsTurn ..) _ _) _ s

/-- What EPI reads and writes, as its watchpoints see it (R390). -/
def State.epiSpans (s : State) (i : Instr) (e : EpiOps) : List Span :=
  let start := 128 * bits (epiCtl s i e).toNat 63 48
  [⟨(scratchPtr e.vb.toNat (epiVector s i e).1).toNat, (epiVector s i e).2, false⟩,
   ⟨(scratchPtr e.db.toNat start).toNat, dimOf e.mc * (dimOf e.nc * epiWidth e), true⟩]

theorem getD_map_range (f : Nat → Nat) {n j : Nat} (h : j < n) : ((List.range n).map f).getD j 0 = f j := by
  simp [List.getD, h]

theorem State.epilogue_taken (s : State) {i : Instr} {e : EpiOps} (hn : s.badNames = []) (h : epiTaken s i e) :
    s.epilogue e (s.active i) = .done (((s.epiImage i e).access1 s.iss.wave 3 e.db.toNat).watchUnit s.iss.wave
      (s.active i) (s.epiSpans i e)) := by
  obtain ⟨usable, plain, fits, vector⟩ := h
  rw [epiWidth_eq] at plain fits
  dsimp only [epiCtl, epiVector] at usable plain fits vector
  have vectorFits : ∀ n v size : Nat, (n = 0 ∨ v + n ≤ size) → (decide (0 < n) && decide (size < v + n)) = false := by
    intro n v size hv
    rw [Bool.and_eq_false_imp]
    simp only [decide_eq_true_eq, decide_eq_false_iff_not]
    omega
  have grouped : ∀ (b : Bool) (n : Nat), (b = true ∨ n % 16 = 0) → (!b && n % 16 != 0) = false := by
    intro b n hb
    rcases hb with hb | hb <;> simp [hb]
  unfold State.epilogue State.epiImage State.epiSpans
  rw [epiWidth_eq]
  dsimp only
  refine (if_neg (by rw [usable]; decide)).trans ((if_neg (Bool.eq_false_iff.mp (grouped _ _ plain))).trans
    ((if_neg (Nat.not_lt.mpr fits)).trans ((if_neg (Bool.eq_false_iff.mp (vectorFits _ _ _ vector))).trans ?_)))
  refine congrArg (fun t : State => Eff.done ((t.access1 _ _ _).watchUnit _ _ _)) ?_
  refine (foldl_congr_of_inv (P := fun t : State => t.badNames = []) _ _ _ s hn fun t ht r _ => ?_).1
  refine State.unmarkScratch_row (foldl_congr_of_inv (P := fun t : State => t.badNames = []) _ _ _ t ht
    fun u hu j hj => ⟨?_, (epiPut_keepsTurn s i e u r j).unmarked hu⟩) ..
  have column := List.mem_range.mp hj
  unfold epiPut epiElement epiOpen
  rw [epiWidth_eq]
  simp only [hn, List.contains_nil, Bool.false_eq_true, if_false, getD_map_range _ column]
  rfl

/-! ## TMERGE (R308, R309) -/

/-- What TMERGE writes, head by head. -/
def State.mergeImage (s : State) (o : Ops) : State :=
  ((List.range (bits (mergeCtl s o) 23 20 + 1)).map (mergeOut s o)).foldl
    (fun t w => t.writeScratch s.cur.block o.dst.toNat w.1 w.2 none) s

theorem State.mergeImage_keepsTurn (s : State) (o : Ops) : KeepsTurn s (s.mergeImage o) :=
  keepsTurn_foldl _ (fun _ _ => State.writeScratch_keepsTurn ..) _ s

/-- What TMERGE reads and writes, as its watchpoints see it (R390). -/
def State.mergeSpans (s : State) (o : Ops) : List Span :=
  let c := mergeCtl s o
  let h := bits c 23 20 + 1
  [⟨(scratchPtr o.s0.toNat (128 * bits c 47 32)).toNat, h * bits c 31 24 * mergeRec c, false⟩,
   ⟨(scratchPtr o.dst.toNat (128 * bits c 63 48)).toNat, h * (if bit c 0 then 4 * mergeDim c else mergeRec c), true⟩]

theorem State.merge_taken (s : State) {o : Ops} (hn : s.badNames = []) (h : mergeTaken s o) :
    s.merge o (s.active (.tmerge o)) = .done (((s.mergeImage o).access1 s.iss.wave 3 o.dst.toNat).watchUnit s.iss.wave
      (s.active (.tmerge o)) (s.mergeSpans o)) := by
  obtain ⟨reserved, few, source, target⟩ := h
  dsimp only [mergeCtl, mergeDim, mergeRec] at reserved few source target
  unfold State.merge
  dsimp only
  have legal : (bits (s.readUnif ((s.active (.tmerge o)).headD 0) o.s1.toNat).toNat 15 1 != 0 ||
      decide (192 < bits (s.readUnif ((s.active (.tmerge o)).headD 0) o.s1.toNat).toNat 31 24)) = false := by
    rw [reserved, decide_eq_false (Nat.not_lt.mpr few)]
    rfl
  refine (if_neg (Bool.eq_false_iff.mp legal)).trans ((if_neg (Nat.not_lt.mpr source)).trans
    ((if_neg (Nat.not_lt.mpr target)).trans ?_))
  refine congrArg (fun t : State => Eff.done ((t.access1 _ _ _).watchUnit _ _ _)) ?_
  refine (foldl_congr_of_inv (P := fun t : State => t.badNames = []) _ _ _ s hn fun t ht w _ => ?_).1
  have unmarked := (t.writeScratch_keepsTurn s.cur.block o.dst.toNat w.1 w.2 none).unmarked ht
  exact ⟨State.unmarkScratch_of_none _ unmarked .., unmarked⟩

end Sys2Proof.Machine

namespace Sys2Proof.Proofs

open Sys2Proof.Machine Sys2Proof.Claims

/-- Settles O32: each instruction completes with its effect, which keeps the turn; where no word is marked, the rows and
heads written lose no marks. -/
theorem tilesEpilogueAndMerge : Obligations.TilesEpilogueAndMerge := by
  unfold Obligations.TilesEpilogueAndMerge
  refine ⟨fun s o => ⟨fun ready => ?_, fun ready => ?_⟩, fun s e ready taken => ?_, fun s o ready taken => ?_⟩
  · obtain ⟨t, exec, mem, blocks, pcs⟩ := (exec_accz s o ready).noKills (killedNames_accz o)
    have tile (n : Nat) : (t.block s.cur.block).tiles.get .zero n = _ :=
      (congrArg (fun bs : Tab Block => (bs.get .absent s.cur.block).tiles.get .zero n) blocks).trans
        (s.zeroTile_tile s.cur.block o.dst.toNat n)
    refine ⟨t, exec, ?_⟩
    dsimp only
    rw [tile, if_pos rfl]
    exact ⟨rfl, rfl, rfl, rfl, rfl, mem, fun n other => by rw [tile, if_neg other], pcs⟩
  · have unmarked := s.ready_badNames _ ready
    have completes := exec_acctest s o ready
    dsimp only at completes
    rw [s.tileShown_of_none unmarked, s.tileVague_of_none unmarked] at completes
    exact completes
  · have unmarked := s.ready_badNames _ ready
    exact s.completes_of_done _ _ _ rfl ready (s.epilogue_taken unmarked taken)
      ((s.epiImage_keepsTurn _ e).trans ((State.access1_keepsTurn ..).trans (State.watchUnit_keepsTurn ..)))
  · have unmarked := s.ready_badNames _ ready
    exact s.completes_of_done _ _ _ rfl ready (s.merge_taken unmarked taken)
      ((s.mergeImage_keepsTurn o).trans ((State.access1_keepsTurn ..).trans (State.watchUnit_keepsTurn ..)))

end Sys2Proof.Proofs
end

section
/-! Proofs: matrix operations integrate, wait, go on and complete (R266, R268, R271, R281-R283, R365). -/

namespace Sys2Proof.Machine

open Sys2Proof.Claims

/-! ## What a matrix operation's reads and reports leave (R212, R284, R390) -/

/-- Memory, blocks and marks are as they were, and so is operation `k` but for the watchpoints that it has hit. -/
structure KeepsMat (k : Nat) (s t : State) : Prop where
  mem : t.mem = s.mem
  blocks : t.blocks = s.blocks
  marks : t.badNames = s.badNames
  mat : t.mat k = { s.mat k with hits := (t.mat k).hits }

theorem keepsMat_refl (k : Nat) (s : State) : KeepsMat k s s := ⟨rfl, rfl, rfl, rfl⟩

theorem KeepsMat.trans {k : Nat} {s t u : State} (h : KeepsMat k s t) (g : KeepsMat k t u) : KeepsMat k s u :=
  ⟨g.mem.trans h.mem, g.blocks.trans h.blocks, g.marks.trans h.marks, by
    rw [g.mat]
    exact congrArg (fun m : MatOp => { m with hits := (u.mat k).hits }) h.mat⟩

theorem keepsMat_of_eq {k : Nat} {s t : State} (mem : t.mem = s.mem) (blocks : t.blocks = s.blocks)
    (marks : t.badNames = s.badNames) (mats : t.mats = s.mats) : KeepsMat k s t :=
  ⟨mem, blocks, marks, by
    rw [show t.mat k = s.mat k from congrArg (fun ms : Tab MatOp => Tab.get MatOp.absent ms k) mats]⟩

theorem keepsMat_foldl {k : Nat} {α : Type} (f : State → α → State) (h : ∀ s a, KeepsMat k s (f s a)) (as : List α)
    (s : State) : KeepsMat k s (as.foldl f s) := by
  induction as generalizing s with
  | nil => exact keepsMat_refl k s
  | cons a as ih => exact (h s a).trans (ih _)

theorem ite_keepsMat {k : Nat} {s t u : State} (c : Prop) [Decidable c] (ht : KeepsMat k s t) (hu : KeepsMat k s u) :
    KeepsMat k s (if c then t else u) := by
  split
  · exact ht
  · exact hu

theorem State.fills_keepsMat (s : State) (k : Nat) (w : Wave) (vas : List Nat) : KeepsMat k s (s.fills w vas) := by
  refine keepsMat_foldl _ (fun s va => ?_) vas s
  split
  · exact keepsMat_of_eq rfl rfl rfl rfl
  · exact keepsMat_refl k s

theorem State.touched_keepsMat (s : State) (k j va : Nat) : KeepsMat k s (s.touched j va) :=
  ite_keepsMat _ (keepsMat_refl k s) (s.fills_keepsMat ..)

theorem State.matFill_keepsMat (s : State) (k : Nat) (m : MatOp) (gs : List Nat) : KeepsMat k s (s.matFill m gs) :=
  keepsMat_foldl _ (fun s _ => (s.touched_keepsMat ..).trans (State.touched_keepsMat ..)) _ s

theorem State.hitUnit_shape (s : State) (e : EngineRef) (k : Nat) (pc : BitVec 64) (lanes hits : List Nat)
    (rs : List Span) : (s.hitUnit e k pc lanes hits rs).1 = { s with hits := (s.hitUnit e k pc lanes hits rs).1.hits } := by
  unfold State.hitUnit
  dsimp only
  split <;> rfl

theorem State.matHits_keepsMat (s : State) (k : Nat) (gs : List Nat) : KeepsMat k s (s.matHits k gs) := by
  unfold State.matHits
  dsimp only
  split
  · refine ⟨?_, ?_, ?_, ?_⟩
    · exact (congrArg State.mem (State.hitUnit_shape s ..) :)
    · exact (congrArg State.blocks (State.hitUnit_shape s ..) :)
    · exact (congrArg State.badNames (State.hitUnit_shape s ..) :)
    · rw [State.mat_setMat_same]
  · exact keepsMat_refl k s

theorem State.onMmerr_keepsMat (s : State) (k j : Nat) (f : BitVec 64 → BitVec 64) : KeepsMat k s (s.onMmerr j f) :=
  ite_keepsMat _ (keepsMat_refl k s) (keepsMat_of_eq rfl rfl rfl rfl)

theorem State.matReport_keepsMat (s : State) (k : Nat) (m : MatOp) (d : MatData) (g : Nat) :
    KeepsMat k s (s.matReport m d g) := by
  have log (b : Bool) (s : State) (x : MatElem) (r c : Nat) : KeepsMat k s
      (let s := if x.bad then s.onMmerr m.wave fun e => mmerrElem e m.ops.tl.toNat b r c else s
       if x.pf then s.onMmerr m.wave mmerrPage else s) := by
    have read : KeepsMat k s (if x.bad then s.onMmerr m.wave fun e => mmerrElem e m.ops.tl.toNat b r c else s) :=
      ite_keepsMat _ (s.onMmerr_keepsMat ..) (keepsMat_refl k s)
    exact ite_keepsMat _ (read.trans (State.onMmerr_keepsMat ..)) read
  have rows (b : Bool) (s : State) (xs : List (List MatElem × Nat)) (r c : Nat → Nat → Nat) : KeepsMat k s
      (xs.foldl (fun s y => y.1.zipIdx.foldl (fun s x =>
        let s := if x.1.bad then s.onMmerr m.wave fun e => mmerrElem e m.ops.tl.toNat b (r y.2 x.2) (c y.2 x.2) else s
        if x.1.pf then s.onMmerr m.wave mmerrPage else s) s) s) :=
    keepsMat_foldl _ (fun _ _ => keepsMat_foldl _ (fun _ _ => log ..) _ _) _ _
  have scales (b : Bool) (s : State) (xs : List (MatElem × Nat)) : KeepsMat k s
      (xs.foldl (fun s x =>
        let s := if x.1.bad then s.onMmerr m.wave fun e => mmerrElem e m.ops.tl.toNat b x.2 x.2 else s
        if x.1.pf then s.onMmerr m.wave mmerrPage else s) s) :=
    keepsMat_foldl _ (fun _ _ => log ..) _ _
  have operands := (rows false s d.a.zipIdx (fun i _ => i) (fun _ j => 16 * g + j)).trans
    (rows true _ d.b.zipIdx (fun i _ => 16 * g + i) (fun _ j => j))
  exact ite_keepsMat _ operands (operands.trans ((scales false _ d.sa.zipIdx).trans (scales true _ d.sb.zipIdx)))

/-! ## Parts and tiles -/

theorem State.mat_setPart (s : State) (k n : Nat) (f : MatPart → MatPart) : (s.setPart k n f).mat k =
    { s.mat k with parts := (s.mat k).parts.zipIdx.map fun p => if p.2 == n then f p.1 else p.1 } :=
  State.mat_setMat_same ..

/-- The part that an update names, after it. -/
theorem State.setPart_part (s : State) (k n : Nat) (f : MatPart → MatPart) {p : MatPart}
    (h : (s.mat k).parts[n]? = some p) : ((s.setPart k n f).mat k).parts[n]? = some (f p) := by
  rw [State.mat_setPart]
  simp [h]

theorem State.storeTile_tile (s : State) (b : Nat) (m : MatOp) (old v : AccTile) : ∃ d,
    ((s.storeTile b m old v).block b).tiles.get .zero m.ops.tl.toNat = { v with dirty := d } := by
  unfold State.storeTile
  dsimp only
  exact ⟨_, (congrArg (fun x : Block => Tab.get AccTile.zero x.tiles m.ops.tl.toNat)
    (State.block_setBlock_same ..)).trans (Tab.get_put_same ..)⟩

theorem State.tileFor_of_none (s : State) (hn : s.badNames = []) (b t : Nat) :
    s.tileFor b t = ((s.block b).tiles.get .zero t, 0) := by
  unfold State.tileFor
  rw [s.badTile_of_none hn]
  rfl

/-! ## An integration step (R266, R271) -/

/-- A step's operands as its report sees them. -/
def MatData.group (d : MatData) (n : Nat) : MatData :=
  { d with a := d.a.map fun r => (r.drop (16 * n)).take 16, b := (d.b.drop (16 * n)).take 16 }

/-- Where no element is marked, a step's state. -/
theorem State.matStep_of_none (s : State) (hn : s.badNames = []) (k part : Nat) (p : MatPart) (d : MatData) (n : Nat)
    (e : Int) : s.matStep k part p d n e =
      let m := s.mat k
      let x := (s.block p.block).tiles.get .zero m.ops.tl.toNat
      ((s.matReport m (d.group n) p.steps).storeTile p.block m x
        (integrate x e (m.beside x (m.cells.map fun c => (c, m.groupAt d n c.1 c.2))))).setPart k part
          fun q => { q with steps := q.steps + 1 } := by
  unfold State.matStep
  dsimp only
  rw [s.tileFor_of_none hn]
  rfl

/-- A step leaves the tile integrated, the part one step on and memory alone. -/
theorem State.matStep_result (s : State) (hn : s.badNames = []) {k part : Nat} {p : MatPart} (d : MatData) (e : Int)
    (h : (s.mat k).parts[part]? = some p) :
    let t := s.matStep k part p d 0 e
    let m := s.mat k
    let x := (s.block p.block).tiles.get .zero m.ops.tl.toNat
    (∃ g, (t.block p.block).tiles.get .zero m.ops.tl.toNat = { integrate x e
      (m.beside x (m.cells.map fun c => (c, m.groupAt d 0 c.1 c.2))) with dirty := g }) ∧
    t.mem = s.mem ∧ (t.mat k).parts[part]? = some { p with steps := p.steps + 1 } := by
  rw [s.matStep_of_none hn]
  have report := s.matReport_keepsMat k (s.mat k) (d.group 0) p.steps
  refine ⟨State.storeTile_tile .., report.mem, ?_⟩
  refine State.setPart_part _ k part _ ?_
  show (State.mat (State.matReport s _ _ _) k).parts[part]? = some p
  rw [report.mat]
  exact h

/-- What reads come first leaves the step the same. -/
theorem KeepsMat.step {k : Nat} {s t : State} (keep : KeepsMat k s t) (hn : s.badNames = []) {part : Nat} {p : MatPart}
    (d : MatData) (e : Int) (h : (s.mat k).parts[part]? = some p) :
    let u := t.matStep k part p d 0 e
    let m := s.mat k
    let x := (s.block p.block).tiles.get .zero m.ops.tl.toNat
    let y := (u.block p.block).tiles.get .zero m.ops.tl.toNat
    let z := integrate x e (m.beside x (m.cells.map fun c => (c, m.groupAt d 0 c.1 c.2)))
    y.elems = z.elems ∧ y.exp = z.exp ∧ y.rc = z.rc ∧ u.mem = s.mem ∧
      (u.mat k).parts[part]? = some { p with steps := p.steps + 1 } := by
  have here : (t.mat k).parts[part]? = some p := by rw [keep.mat]; exact h
  have block : t.block p.block = s.block p.block := congrArg (fun bs : Tab Block => Tab.get Block.absent bs p.block) keep.blocks
  obtain ⟨⟨g, tile⟩, mem, steps⟩ := t.matStep_result (keep.marks.trans hn) d e here
  rw [block, keep.mat] at tile
  dsimp only at tile
  dsimp only
  rw [tile]
  exact ⟨rfl, rfl, rfl, mem.trans keep.mem, steps⟩

section
variable {s : State} {k part : Nat} {p : MatPart} (ready : s.partReady k part = true)
  (here : (s.mat k).parts[part]? = some p) (routed : (s.mat k).away = none)

include ready here routed

/-- A part that may work, of a tile with E set, does what its reads allow. -/
theorem exec_matrixIntegrationStep {e : Int}
    (unit : ((s.block p.block).tiles.get .zero (s.mat k).ops.tl.toNat).exp = some e) :
    exec (.matrixIntegrationStep k part) s = .next (match s.matRead (s.mat k) p.block [p.steps] with
      | .error x => s.stopPart k part x
      | .ok d => ((s.matFill (s.mat k) [p.steps]).matHits k [p.steps]).matStep k part p d 0 e) := by
  have routes : s.giveUpMat k = s := by
    unfold State.giveUpMat
    dsimp only
    rw [routed]
  show execMatrixIntegrationStep k part s = _
  unfold execMatrixIntegrationStep
  rw [if_neg (by rw [ready]; decide), routes]
  dsimp only
  rw [here]
  dsimp only
  rw [unit] <;> rfl

end

/-- A part that waits for a page (R282). -/
theorem State.holdPart_result (s : State) {k part : Nat} {p : MatPart} (va : Nat)
    (h : (s.mat k).parts[part]? = some p) : let t := s.holdPart k part va
    (t.mat k).parts[part]? = some { p with parked := some va, held := s.entryFree (s.block p.block).core } ∧
      t.blocks = s.blocks ∧ t.mem = s.mem := by
  have walks : s.countWalks (s.wave (s.mat k).wave) [va] =
      { s with power := (s.countWalks (s.wave (s.mat k).wave) [va]).power } := by
    unfold State.countWalks State.countErrors
    split
    · rfl
    · split <;> rfl
  unfold State.holdPart State.awaitPage
  rw [walks]
  exact ⟨State.setPart_part _ k part _ h, rfl, rfl⟩

/-! ## Replays and refusals (R282, R283) -/

theorem exec_matrixFaultReplay (s : State) {k part va : Nat} {p : MatPart} (here : (s.mat k).parts[part]? = some p)
    (parked : p.parked = some va) (served : ∀ a, s.engineTouch (s.mat k).wave false va ≠ .fault a)
    (first : s.resumesNow (s.block p.block).core (s.mat k).wave p.held va = true) :
    exec (.matrixFaultReplay k part) s = .next (s.freePart k part) := by
  have ready : s.pageReady (s.mat k).wave false va = true := by
    unfold State.pageReady
    split
    · next a fault => exact absurd fault (served a)
    · rfl
  show execMatrixFaultReplay k part s = _
  unfold execMatrixFaultReplay
  simp only [here, parked, ready, first, Bool.and_self, if_true]

/-- The pages refused to an operation, with one more. -/
def State.refusePage (s : State) (k page : Nat) : State :=
  s.setMat k { s.mat k with refused := (s.mat k).refused ++ [page] }

theorem exec_streamedPageRefusal (s : State) {k part va : Nat} {p : MatPart} {v : BitVec 64}
    (here : (s.mat k).parts[part]? = some p) (parked : p.parked = some va) (page : va / 2 ^ 16 = v.toNat / 2 ^ 16) :
    exec (.streamedPageRefusal k part v) s =
      .next (((s.refusePage k (va / 2 ^ 16)).freePart k part).onMmerr (s.mat k).wave mmerrPage) := by
  show execStreamedPageRefusal k part v s = _
  unfold execStreamedPageRefusal State.refusePage
  simp only [here, Option.bind_some, parked, page, beq_self_eq_true, if_true]

theorem State.onMmerr_running (s : State) {j : Nat} (f : BitVec 64 → BitVec 64) (running : (s.wave j).retired = false) :
    ((s.onMmerr j f).wave j).mmerr = f (s.wave j).mmerr := by
  unfold State.onMmerr
  rw [if_neg (by rw [running]; decide), State.wave_onWave_same]

theorem State.onMmerr_mats (s : State) (j : Nat) (f : BitVec 64 → BitVec 64) : (s.onMmerr j f).mats = s.mats := by
  unfold State.onMmerr
  split <;> rfl

/-! ## Completion (R268, R281) -/

/-- A part whose tile was zeroed under the operation leaves the tile's elements undefined (R274). -/
def State.spoilTile (s : State) (p : MatPart) (t : Nat) : State :=
  if p.zeroed then
    s.putTile p.block t { (s.block p.block).tiles.get .zero t with undefs := List.range 4096 }
  else s

/-- A spoilt tile is all that differs: barriers and kernels are as they were. -/
theorem State.spoilTile_frame (s : State) (p : MatPart) (t : Nat) : (s.spoilTile p t).mem = s.mem ∧
    (s.spoilTile p t).gangs = s.gangs ∧ (s.spoilTile p t).launches = s.launches ∧
    ((s.spoilTile p t).block p.block).gang = (s.block p.block).gang ∧
    ((s.spoilTile p t).block p.block).bars = (s.block p.block).bars := by
  unfold State.spoilTile
  split
  · unfold State.putTile
    rw [State.block_setBlock_same]
    exact ⟨rfl, rfl, rfl, rfl, rfl⟩
  · exact ⟨rfl, rfl, rfl, rfl, rfl⟩

/-- The operation is complete, each part knowing the phase in which it arrives. -/
def State.markComplete (s : State) (k : Nat) (m : MatOp) : State :=
  s.setMat k { m with
    complete := true, parts := m.parts.map fun p => { p with phase := (s.bar p.block m.ops.br.toNat).phase } }

/-- An operation of one part that has performed its steps is complete, and arrives at its barrier once. -/
theorem exec_matrixOperationCompletion (s : State) {k : Nat} {p : MatPart} (present : s.mats.has k = true)
    (posted : (s.mat k).posted.isSome = true) (open_ : (s.mat k).complete = false) (one : (s.mat k).parts = [p])
    (finished : mmaK (s.mat k).ops / 16 ≤ p.steps) : exec (.matrixOperationCompletion k) s =
      .next ((((s.spoilTile p (s.mat k).ops.tl.toNat).markComplete k (s.mat k)).tellBar p.block (s.mat k).ops.br.toNat
        (s.mat k).told).arrive p.block (s.mat k).ops.br.toNat) := by
  have some_ : (s.mat k).posted.isNone = false := by
    rw [Option.isNone_eq_false_iff]
    exact posted
  have due : (!s.mats.has k || (s.mat k).posted.isNone || (s.mat k).complete ||
      (s.mat k).parts.any (fun p => decide (p.steps < mmaK (s.mat k).ops / 16))) = false := by
    simp [present, some_, open_, one, finished]
  show execMatrixOperationCompletion k s = _
  unfold execMatrixOperationCompletion
  rw [if_neg (Bool.eq_false_iff.mp due)]
  unfold State.markComplete
  rw [one]
  dsimp only
  rw [List.take_succ_cons, List.take_zero, ite_self]
  rfl

/-- What the completing arrival leaves, in terms of the barrier before it. -/
theorem State.completeArrive_result (s : State) (k : Nat) (p : MatPart) (m : MatOp) (t : Nat) :
    let u := (((s.spoilTile p t).markComplete k m).tellBar p.block m.ops.br.toNat m.told).arrive p.block m.ops.br.toNat
    let v := s.bar p.block m.ops.br.toNat
    let n := (s.launch (s.gang (s.block p.block).gang).launch).kernel.sizeOf 3 m.ops.br.toNat 1
    (u.mat k).complete = true ∧ u.mem = s.mem ∧
      u.bar p.block m.ops.br.toNat = if v.count + 1 = n then ⟨0, !v.phase⟩ else ⟨v.count + 1, v.phase⟩ := by
  obtain ⟨mem, gangs, launches, gang, bars⟩ := s.spoilTile_frame p t
  have kernel : ((s.spoilTile p t).launch ((s.spoilTile p t).gang ((s.spoilTile p t).block p.block).gang).launch).kernel =
      (s.launch (s.gang (s.block p.block).gang).launch).kernel := by
    rw [gang]
    unfold State.launch State.gang
    rw [gangs, launches]
  have bar : (s.spoilTile p t).bar p.block m.ops.br.toNat = s.bar p.block m.ops.br.toNat := by
    unfold State.bar
    rw [kernel, gang, bars]
    unfold State.gang
    rw [gangs]
  dsimp only
  refine ⟨?_, ?_, ?_⟩
  · rw [State.arrive_shape, State.tellBar_shape]
    show (State.mat (State.markComplete _ k m) k).complete = true
    unfold State.markComplete
    rw [State.mat_setMat_same]
  · rw [State.arrive_shape, State.tellBar_shape]
    exact mem
  · rw [State.bar_arrive, State.tellBar_shape]
    show (if (State.bar (s.spoilTile p t) _ _).count + 1 = _ then _ else _) = _
    rw [← bar, ← kernel]
    rfl

end Sys2Proof.Machine

namespace Sys2Proof.Proofs

open Sys2Proof.Machine Sys2Proof.Claims

/-- Settles O46: an integration step by what its reads come to, a replay and a refusal by the page, a completion by the
one arrival of the operation's part. -/
theorem matrixOperationsProceed : Obligations.MatrixOperationsProceed := by
  unfold Obligations.MatrixOperationsProceed
  refine ⟨fun s k part p e ready here => ?_, fun s k part p va here parked => ⟨fun served first => ?_, fun v page => ?_⟩,
    fun s k p present posted open_ one finished => ?_⟩
  · intro m x routed unit
    have step := exec_matrixIntegrationStep ready here routed unit
    refine ⟨fun d unmarked read => ?_, fun va read => ?_, fun dev read => ?_⟩ <;> rw [read] at step
    · exact ⟨_, step, ((s.matFill_keepsMat k _ _).trans (State.matHits_keepsMat ..)).step unmarked d e here⟩
    · exact ⟨_, step, s.holdPart_result va here⟩
    · exact step
  · exact ⟨_, exec_matrixFaultReplay s here parked served first, State.setPart_part _ k part _ here, rfl, rfl⟩
  · refine ⟨_, exec_streamedPageRefusal s here parked page, ?_⟩
    have refused : (s.refusePage k (va / 2 ^ 16)).mat k =
        { s.mat k with refused := (s.mat k).refused ++ [va / 2 ^ 16] } := State.mat_setMat_same ..
    have mat := congrArg (fun ms : Tab MatOp => Tab.get MatOp.absent ms k)
      (((s.refusePage k (va / 2 ^ 16)).freePart k part).onMmerr_mats (s.mat k).wave mmerrPage)
    refine ⟨(congrArg (fun m : MatOp => m.parts[part]?) mat).trans (State.setPart_part _ k part _ ?_),
      (congrArg MatOp.refused mat).trans ?_, fun running => State.onMmerr_running _ _ running⟩
    · rw [refused]
      exact here
    · show (State.mat (State.setPart _ k part _) k).refused = _
      rw [State.mat_setPart, refused]
  · exact ⟨_, exec_matrixOperationCompletion s present posted open_ one finished, s.completeArrive_result ..⟩

end Sys2Proof.Proofs
end

section
/-! Proofs: a palp command waits, ends with an error, or writes its results and ends (R293-R295, R303, R306, R333). -/

namespace Sys2Proof.Machine

open Sys2Proof.Claims

/-! ## What stops a command's reads (R295) -/

/-- The pages that stand against a command's reads. -/
def PalpStop.faults (bars : List PalpStop) : List Nat :=
  bars.filterMap fun b => match b with
    | .fault va => some va
    | .err _ => none

theorem State.stopPalp_err (s : State) (k : Nat) (p : PalpOp) {bars : List PalpStop} {e : Nat}
    (first : bars.head? = some (.err e)) : s.stopPalp k p bars = s.endPalp k p 2 e 0 [] := by
  unfold State.stopPalp
  rw [first]

theorem State.stopPalp_fault (s : State) (k : Nat) (p : PalpOp) {bars : List PalpStop} {va : Nat}
    (first : bars.head? = some (.fault va)) : s.stopPalp k p bars = s.holdPalp k p (PalpStop.faults bars) := by
  unfold State.stopPalp
  rw [first]
  rfl

/-- What follows a command's reads: `go` where nothing stands against them, and otherwise what stops it. -/
def State.afterReads (s : State) (k : Nat) (p : PalpOp) (go : State) : State :=
  match s.palpBars p with
  | [] => go
  | bars => s.stopPalp k p bars

section
variable {s : State} {p : PalpOp} (k : Nat) (go : State)

theorem State.afterReads_clear (clear : s.palpBars p = []) : s.afterReads k p go = go := by
  unfold State.afterReads
  rw [clear]

theorem State.afterReads_stop {b : PalpStop} (first : (s.palpBars p).head? = some b) :
    s.afterReads k p go = s.stopPalp k p (s.palpBars p) := by
  unfold State.afterReads
  cases bars : s.palpBars p with
  | nil => rw [bars] at first; cases first
  | cons _ _ => rfl

theorem State.afterReads_err {e : Nat} (first : (s.palpBars p).head? = some (.err e)) :
    s.afterReads k p go = s.endPalp k p 2 e 0 [] :=
  (State.afterReads_stop k go first).trans (s.stopPalp_err k p first)

theorem State.afterReads_fault {va : Nat} (first : (s.palpBars p).head? = some (.fault va)) :
    s.afterReads k p go = s.holdPalp k p (PalpStop.faults (s.palpBars p)) :=
  (State.afterReads_stop k go first).trans (s.stopPalp_fault k p first)

end

section
variable {s : State} {k : Nat} (due : (s.palp k).parked.any (fun va => s.palpFreed (s.palp k) va &&
  s.resumesNow (s.coreOf (s.wave (s.palp k).wave)) (s.palp k).wave ((s.palp k).held != 0) va) = true)

include due

theorem exec_palpPartResume : exec (.palpPartResume k) s = .next
    (let r := s.palpReads k (s.palp k)
     r.1.afterReads k r.2 (r.1.setPalp k { r.2 with parked := [], held := 0 })) := by
  show execPalpPartResume k s = _
  unfold execPalpPartResume
  dsimp only
  rw [due]
  rfl

end

/-! ## A command whose reads are made (R294, R303) -/

theorem State.nearTouched_shape (s : State) (k va : Nat) :
    s.nearTouched k va = { s with tlb := (s.nearTouched k va).tlb } := by
  unfold State.nearTouched
  dsimp only
  split
  · rfl
  · split <;> rfl

theorem State.nearTouched_watching (s : State) (k j va : Nat) : (s.nearTouched k va).watching j = s.watching j := by
  rw [s.nearTouched_shape]
  rfl

theorem State.nearTouched_foldl_watching (s : State) (k j : Nat) (vas : List Nat) :
    (vas.foldl (fun (s : State) va => s.nearTouched k va) s).watching j = s.watching j := by
  induction vas generalizing s with
  | nil => rfl
  | cons va vas ih => exact (ih _).trans (s.nearTouched_watching k j va)

theorem State.palpHits_unwatched (s : State) (k : Nat) (p : PalpOp) (rs : List Span) (quiet : s.watching p.wave = false) :
    s.palpHits k p rs = (s, p) := if_neg (by rw [quiet]; decide)

/-- An NMASSIGN's table is translated before it is read. -/
def State.tableTouched (s : State) (p : PalpOp) : State :=
  if p.kind = 3 then s.nearTouched p.wave (word64 p.par 3) else s

theorem State.tableTouched_watching (s : State) (p : PalpOp) (j : Nat) :
    (s.tableTouched p).watching j = s.watching j := by
  unfold State.tableTouched
  split
  · exact s.nearTouched_watching ..
  · rfl

/-- A command with the marked words that its computation met. -/
def PalpOp.joined (p : PalpOp) (bad : List Nat) : PalpOp := { p with bad := joinKnown p.bad bad }

/-- The pages that a command's results lie on, where they go to global memory. -/
def PalpOp.resultPages (p : PalpOp) (d : PalpDone) : List Nat :=
  if bit p.ctl.toNat 62 then d.writes.map fun w => word64 p.par 4 + w.1 else []

/-- The results are committed, the pages that they lie on translated. -/
def State.commitTouched (s : State) (k : Nat) (p : PalpOp) (d : PalpDone) (ps : List (Nat × Nat × List Byte)) : State :=
  ((p.resultPages d).foldl (fun (s : State) va => s.nearTouched p.wave va) s).commitPalp k p d ps

/-- Where no watchpoint is set, a command with its reads made computes, and is stopped or commits. -/
theorem State.closePalp_eq (s : State) (k : Nat) (p : PalpOp) (quiet : s.watching p.wave = false) :
    s.closePalp k p =
      let u := s.tableTouched p
      let q := p.joined (u.runPalp p).1
      match (u.runPalp p).2 with
      | .error e => u.stopPalp k q [e]
      | .ok d => match u.palpPlaces q d.writes with
        | .error e => u.stopPalp k q [e]
        | .ok places => u.commitTouched k q d places := by
  have touched : (if p.kind == 3 then s.nearTouched p.wave (word64 p.par 3) else s) = s.tableTouched p := by
    simp [State.tableTouched]
  have hits : (if p.kind == 3 then (s.tableTouched p).palpHits k p ((s.tableTouched p).assignSpans p)
      else (s.tableTouched p, p)) = (s.tableTouched p, p) := by
    rw [State.palpHits_unwatched _ k p _ ((s.tableTouched_watching p p.wave).trans quiet), ite_self]
  unfold State.closePalp
  dsimp only
  rw [touched, hits]
  rfl

/-- A command whose computation is stopped. -/
theorem State.closePalp_error (s : State) (k : Nat) (p : PalpOp) (quiet : s.watching p.wave = false) {e : PalpStop}
    (stop : ((s.tableTouched p).runPalp p).2 = .error e) : s.closePalp k p =
      (s.tableTouched p).stopPalp k (p.joined ((s.tableTouched p).runPalp p).1) [e] := by
  rw [s.closePalp_eq k p quiet]
  dsimp only
  rw [stop]

/-- A command that has computed, and whose results have nowhere to go yet. -/
theorem State.closePalp_unplaced (s : State) (k : Nat) (p : PalpOp) (quiet : s.watching p.wave = false) {d : PalpDone}
    (done : ((s.tableTouched p).runPalp p).2 = .ok d) {e : PalpStop}
    (stop : (s.tableTouched p).palpPlaces (p.joined ((s.tableTouched p).runPalp p).1) d.writes = .error e) :
    s.closePalp k p = (s.tableTouched p).stopPalp k (p.joined ((s.tableTouched p).runPalp p).1) [e] := by
  rw [s.closePalp_eq k p quiet]
  dsimp only
  rw [done]
  dsimp only
  rw [stop]

/-- A command that has computed commits its results to their places. -/
theorem State.closePalp_placed (s : State) (k : Nat) (p : PalpOp) (quiet : s.watching p.wave = false) {d : PalpDone}
    (done : ((s.tableTouched p).runPalp p).2 = .ok d) {ps : List (Nat × Nat × List Byte)}
    (placed : (s.tableTouched p).palpPlaces (p.joined ((s.tableTouched p).runPalp p).1) d.writes = .ok ps) :
    s.closePalp k p =
      let u := s.tableTouched p
      let q := p.joined (u.runPalp p).1
      u.commitTouched k q d ps := by
  rw [s.closePalp_eq k p quiet]
  dsimp only
  rw [done]
  dsimp only
  rw [placed]

/-- Where no watchpoint is set, results in a result buffer. -/
theorem State.commitTouched_scratch (s : State) (k : Nat) (p : PalpOp) (d : PalpDone) (ps : List (Nat × Nat × List Byte))
    (quiet : s.watching p.wave = false) (near : bit p.ctl.toNat 62 = false) : s.commitTouched k p d ps =
      let t := s.tableWrites p.wave d.table
      let base := 128 * bits p.ctl.toNat 31 16
      (((d.writes.foldl (fun (u : State) w => u.writeScratch p.block p.buf (base + w.1) w.2 none) t.1).unmarkScratchAll
        p.block p.buf (d.writes.map fun w => (base + w.1, w.2.length))).unmarkAll
        (d.table.map fun w => (w.1, w.2.2.length))).endPalp k p 0 0 d.count t.2 := by
  have pages : p.resultPages d = [] := if_neg (by rw [near]; decide)
  unfold State.commitTouched State.commitPalp
  rw [pages, List.foldl_nil, s.palpHits_unwatched k p _ quiet]
  dsimp only
  rw [near]
  rfl

/-- Where no watchpoint is set, results in global memory. -/
theorem State.commitTouched_global (s : State) (k : Nat) (p : PalpOp) (d : PalpDone) (ps : List (Nat × Nat × List Byte))
    (quiet : s.watching p.wave = false) (far : bit p.ctl.toNat 62 = true) : s.commitTouched k p d ps =
      let v := (d.writes.map fun w => word64 p.par 4 + w.1).foldl (fun (s : State) va => s.nearTouched p.wave va) s
      let t := v.tableWrites p.wave d.table
      let g := t.1.palpWrites p.wave ps
      (g.1.unmarkAll ((d.table ++ ps).map fun w => (w.1, w.2.2.length))).endPalp k p 0 0 d.count (mergeView t.2 g.2) := by
  have pages : p.resultPages d = d.writes.map fun w => word64 p.par 4 + w.1 := if_pos far
  unfold State.commitTouched State.commitPalp
  rw [pages, State.palpHits_unwatched _ k p _ ((s.nearTouched_foldl_watching ..).trans quiet)]
  dsimp only
  rw [far]
  rfl

section
variable {s : State} {k : Nat} (present : s.palps.has k = true) (unparked : (s.palp k).parked = [])
  (first : s.assignWaits (s.palp k) = false)

include present unparked first

/-- A command that waits for nothing runs its parts. -/
theorem exec_palpCompletion : exec (.palpCompletion k) s = .next
    (let r := if (s.palp k).tooFar then (s, s.palp k) else s.palpReads k (s.palp k)
     r.1.afterReads k r.2 (r.1.closePalp k r.2)) := by
  have go : (!s.palps.has k || !(s.palp k).parked.isEmpty || s.assignWaits (s.palp k)) = false := by
    simp [present, unparked, first]
  show Host.Outcome.next (s.finishPalp k) = _
  unfold State.finishPalp
  dsimp only
  rw [go]
  rfl

theorem exec_palpCompletion_tooFar (far : (s.palp k).tooFar = true) :
    exec (.palpCompletion k) s = .next (s.endPalp k (s.palp k) 2 4 0 []) := by
  have bars : s.palpBars (s.palp k) = [.err 4] := if_pos far
  rw [exec_palpCompletion present unparked first, if_pos far]
  exact congrArg _ (State.afterReads_err k _ (by rw [bars]; rfl))

theorem exec_palpCompletion_reads (near : (s.palp k).tooFar = false) : exec (.palpCompletion k) s = .next
    (let r := s.palpReads k (s.palp k)
     r.1.afterReads k r.2 (r.1.closePalp k r.2)) := by
  rw [exec_palpCompletion present unparked first, if_neg (by rw [near]; decide)]

end

/-! ## Waits and ends (R213, R293, R295) -/

theorem State.awaitPage_frame (s : State) (k va : Nat) :
    (s.awaitPage k va).waves = s.waves ∧ (s.awaitPage k va).mem = s.mem := by
  unfold State.awaitPage State.countWalks State.countErrors
  split
  · exact ⟨rfl, rfl⟩
  · split <;> exact ⟨rfl, rfl⟩

theorem State.awaitPages_frame (s : State) (k : Nat) (vas : List Nat) :
    (vas.foldl (fun (s : State) va => s.awaitPage k va) s).waves = s.waves ∧
      (vas.foldl (fun (s : State) va => s.awaitPage k va) s).mem = s.mem := by
  induction vas generalizing s with
  | nil => exact ⟨rfl, rfl⟩
  | cons va vas ih => exact ⟨(ih _).1.trans (s.awaitPage_frame k va).1, (ih _).2.trans (s.awaitPage_frame k va).2⟩

/-- A command that ends before its token is written: it is gone, and its writes are in the views of its block's waves. -/
def State.dropPalp (s : State) (k : Nat) (p : PalpOp) (ws : Tab Nat) : State :=
  { (s.seeWrites p.block ws) with palps := s.palps.del k }

/-- The word of a command's token (R293). -/
def PalpOp.tokenWord (p : PalpOp) (st err count : Nat) : BitVec 64 :=
  BitVec.ofNat 64 (st * 2 ^ 62 + min 255 p.bad.length * 2 ^ 48 + err * 2 ^ 40 + count % 2 ^ 32)

theorem State.endPalp_eq (s : State) (k : Nat) (p : PalpOp) (st err count : Nat) (ws : Tab Nat) :
    s.endPalp k p st err count ws = ((s.dropPalp k p ws).writeToken p.wave .palp k p.token
      (p.tokenWord st err count)).engineArrive p.block p.ctl ws p.told := rfl

theorem State.dropPalp_tokenDue (s : State) (k : Nat) (p : PalpOp) (ws : Tab Nat) (due : tokenDue s p.wave .palp k) :
    tokenDue (s.dropPalp k p ws) p.wave .palp k := by
  unfold tokenDue
  show ((s.seeWrites p.block ws).wave p.wave).retired = false ∧
    ((s.seeWrites p.block ws).wave p.wave).tokens.any _ = true
  rw [State.seeWrites_wave]
  exact due

theorem State.endPalp_palps (s : State) (k : Nat) (p : PalpOp) (st err count : Nat) (ws : Tab Nat) :
    (s.endPalp k p st err count ws).palps = s.palps.del k := by
  rw [State.endPalp_eq, State.engineArrive_shape, State.writeToken_shape]
  rfl

theorem State.endPalp_mem (s : State) (k : Nat) (p : PalpOp) (st err count : Nat) (ws : Tab Nat) :
    (s.endPalp k p st err count ws).mem = s.mem := by
  rw [State.endPalp_eq, State.engineArrive_shape, State.writeToken_shape]
  exact (congrArg State.mem (s.seeWrites_shape p.block ws) :)

theorem State.endPalp_token (s : State) (k : Nat) (p : PalpOp) (st err count : Nat) (ws : Tab Nat)
    (due : tokenDue s p.wave .palp k) :
    ((s.endPalp k p st err count ws).wave p.wave).unif.get 0 p.token = p.tokenWord st err count := by
  rw [State.endPalp_eq, State.engineArrive_shape]
  exact State.writeToken_unif _ p.token _ (s.dropPalp_tokenDue k p ws due)

end Sys2Proof.Machine

namespace Sys2Proof.Proofs

open Sys2Proof.Machine Sys2Proof.Claims

/-- Settles O47: what stands first against a command's reads decides, then what its computation comes to. -/
theorem palpCommandsEnd : Obligations.PalpCommandsEnd := by
  unfold Obligations.PalpCommandsEnd
  refine ⟨fun s k present => ?_, fun s k p vas => ?_, fun s k p st err count ws =>
    ⟨?_, s.endPalp_mem k p st err count ws, s.endPalp_token k p st err count ws⟩⟩
  · intro p r faults
    refine ⟨fun due => ?_, fun unparked first => ⟨exec_palpCompletion_tooFar present unparked first, fun near => ?_⟩⟩
    · have resume := exec_palpPartResume due
      exact ⟨fun clear => resume.trans (congrArg _ (State.afterReads_clear k _ clear)),
        fun e bar => resume.trans (congrArg _ (State.afterReads_err k _ bar)),
        fun va bar => resume.trans (congrArg _ (State.afterReads_fault k _ bar))⟩
    · have run := exec_palpCompletion_reads present unparked first near
      refine ⟨fun e bar => run.trans (congrArg _ (State.afterReads_err k _ bar)),
        fun va bar => run.trans (congrArg _ (State.afterReads_fault k _ bar)), fun clear quiet => ?_⟩
      · intro u x q
        have closes := run.trans (congrArg _ (State.afterReads_clear k _ clear))
        have still : u.watching q.wave = false := (r.1.tableTouched_watching r.2 q.wave).trans quiet
        refine ⟨fun e stop => closes.trans (congrArg _ (r.1.closePalp_error k r.2 quiet stop)),
          fun va stop => closes.trans (congrArg _ (r.1.closePalp_error k r.2 quiet stop)), fun d done => ?_⟩
        refine ⟨fun scratch => ?_, fun far => ⟨fun e stop =>
          closes.trans (congrArg _ (r.1.closePalp_unplaced k r.2 quiet done stop)), fun va stop =>
          closes.trans (congrArg _ (r.1.closePalp_unplaced k r.2 quiet done stop)), fun ps placed => ?_⟩⟩
        · have nowhere : u.palpPlaces q d.writes = .ok [] := if_pos (by rw [scratch]; decide)
          exact closes.trans (congrArg _ ((r.1.closePalp_placed k r.2 quiet done nowhere).trans
            (u.commitTouched_scratch k q d [] still scratch)))
        · exact closes.trans (congrArg _ ((r.1.closePalp_placed k r.2 quiet done placed).trans
            (u.commitTouched_global k q d ps still far)))
  · exact ⟨(congrArg PalpOp.parked (State.palp_setPalp_same ..) :), (congrArg PalpOp.got (State.palp_setPalp_same ..) :),
      State.awaitPages_frame ..⟩
  · rw [State.endPalp_palps]
    exact Tab.has_del_same ..

end Sys2Proof.Proofs
end

section
/-! Proofs: a share change waits for its rebind, which changes no live value (R314, R319-R323). -/

namespace Sys2Proof.Machine

open Sys2Proof.Claims

/-! ## Values that a rebind keeps (R322) -/

/-- Two waves hold the same uniform names, and their threads the same state. -/
structure SameValues (v w : Wave) : Prop where
  unif : w.unif = v.unif
  threads : ∀ l, (w.lane l).arch = (v.lane l).arch

theorem sameValues_refl (w : Wave) : SameValues w w := ⟨rfl, fun _ => rfl⟩

theorem SameValues.trans {u v w : Wave} (h : SameValues u v) (g : SameValues v w) : SameValues u w :=
  ⟨g.unif.trans h.unif, fun l => (g.threads l).trans (h.threads l)⟩

theorem Wave.onLanes_sameValues (w : Wave) (ls : List Nat) (f : Lane → Lane) (hf : ∀ t, (f t).arch = t.arch) :
    SameValues w (w.onLanes ls f) :=
  ⟨(congrArg Wave.unif (w.onLanes_shape ls f) :), w.lane_onLanes_keep Lane.arch ls f hf⟩

theorem Wave.soil_sameValues (w : Wave) (width name : Nat) (ls : List Nat) : SameValues w (w.soil width name ls) :=
  ⟨(congrArg Wave.unif (w.soil_arch width name ls) :), fun l => congrArg Lane.arch (w.soil_lane width name ls l)⟩

/-- Memory is as it was, and every wave holds the same values. -/
structure KeepsValues (s t : State) : Prop where
  mem : t.mem = s.mem
  waves : ∀ k, SameValues (s.wave k) (t.wave k)

theorem keepsValues_of_eq {s t : State} (mem : t.mem = s.mem) (waves : t.waves = s.waves) : KeepsValues s t := by
  refine ⟨mem, fun k => ?_⟩
  rw [show t.wave k = s.wave k from congrArg (fun ws : Tab Wave => Tab.get Wave.absent ws k) waves]
  exact sameValues_refl _

theorem KeepsValues.trans {s t u : State} (h : KeepsValues s t) (g : KeepsValues t u) : KeepsValues s u :=
  ⟨g.mem.trans h.mem, fun k => (h.waves k).trans (g.waves k)⟩

theorem keepsValues_foldl {α : Type} (f : State → α → State) (h : ∀ s a, KeepsValues s (f s a)) (as : List α)
    (s : State) : KeepsValues s (as.foldl f s) := by
  induction as generalizing s with
  | nil => exact keepsValues_of_eq rfl rfl
  | cons a as ih => exact (h s a).trans (ih _)

theorem State.onWave_keepsValues (s : State) (k : Nat) (f : Wave → Wave) (h : SameValues (s.wave k) (f (s.wave k))) :
    KeepsValues s (s.onWave k f) := by
  refine ⟨rfl, fun j => ?_⟩
  rw [State.wave_onWave]
  split
  · next e => exact e ▸ h
  · exact sameValues_refl _

theorem State.setScratch_keepsValues (s : State) (b buf : Nat) (v : Scratch) : KeepsValues s (s.setScratch b buf v) := by
  unfold State.setScratch
  dsimp only
  split <;> exact keepsValues_of_eq rfl rfl

/-- A name that a rebind moves or ends: lanes and uniform names hold what they held. -/
theorem State.moveName_keepsValues (s : State) (b : Nat) (live moved : Bool) (n : NameInfo) :
    KeepsValues s (s.moveName b live moved n) := by
  unfold State.moveName
  dsimp only
  split
  · refine keepsValues_foldl _ (fun s j => s.onWave_keepsValues j _ ?_) _ s
    split
    · exact Wave.onLanes_sameValues _ _ _ fun _ => rfl
    · refine SameValues.trans ?_ (Wave.soil_sameValues ..)
      refine SameValues.trans ?_ (Wave.onLanes_sameValues _ _ _ fun _ => rfl)
      exact Wave.onLanes_sameValues _ _ _ fun _ => rfl
  · refine keepsValues_foldl _ (fun s j => s.onWave_keepsValues j _ ?_) _ s
    split <;> split <;> exact ⟨rfl, fun _ => rfl⟩
  · exact s.setScratch_keepsValues ..
  · split <;> exact keepsValues_of_eq rfl rfl

/-! ## A rebind -/

/-- An update of another block, in a run over blocks that leaves `b` aside. -/
theorem State.setOthers_block (s : State) (b : Nat) (f : State → Nat → Block) (cs : List Nat) :
    (cs.foldl (fun s c => if c == b then s else s.setBlock c (f s c)) s).block b = s.block b := by
  refine State.foldl_keep (fun s => s.block b) _ (fun s c => ?_) cs s
  split
  · rfl
  · next other => exact (State.block_setBlock ..).trans (if_neg fun e => other (beq_iff_eq.mpr e.symm))

theorem State.setOthers_keepsValues (s : State) (b : Nat) (f : State → Nat → Block) (cs : List Nat) :
    KeepsValues s (cs.foldl (fun s c => if c == b then s else s.setBlock c (f s c)) s) := by
  refine keepsValues_foldl _ (fun s c => ?_) cs s
  split <;> exact keepsValues_of_eq rfl rfl

/-- A rebind gives the block its share, and every wave keeps its values. -/
theorem State.rebindTo_result (s : State) (b : Nat) (h : ShareSpec) :
    ((s.rebindTo b h).block b).share = h ∧ KeepsValues s (s.rebindTo b h) := by
  unfold State.rebindTo
  dsimp only
  generalize hm : List.foldl _ s _ = m
  have moves : KeepsValues s m := hm ▸ keepsValues_foldl _ (fun s n => s.moveName_keepsValues ..) _ s
  generalize hu : m.setBlock b _ = u
  have kept : KeepsValues s u := moves.trans (hu ▸ keepsValues_of_eq rfl rfl)
  have own : (u.block b).share = h := by rw [← hu, State.block_setBlock_same]
  rw [State.block_setBlock_same]
  dsimp only
  split
  · exact ⟨own, kept.trans (keepsValues_of_eq rfl rfl)⟩
  · exact ⟨(congrArg Block.share (u.setOthers_block b ..)).trans own,
      (kept.trans (u.setOthers_keepsValues b ..)).trans (keepsValues_of_eq rfl rfl)⟩

end Sys2Proof.Machine

namespace Sys2Proof.Proofs

open Sys2Proof.Machine Sys2Proof.Claims

/-- Settles O42: a change waits by the block's own list, and a rebind marks and moves names but writes no value. -/
theorem sharesAndRebinds : Obligations.SharesAndRebinds := by
  unfold Obligations.SharesAndRebinds
  refine ⟨fun s b => ⟨fun h => ?_, fun h rest waits there => ?_⟩, fun s b h => ?_⟩
  · intro x q k used running unsaving unsaved
    have may : (x.used && !x.ended && q.preempt != .saving && q.preempt != .saved) = true := by
      simp [used, running, unsaving, unsaved]
    exact congrArg _ (if_pos may)
  · show execRebind b s = _
    unfold execRebind
    dsimp only
    rw [waits]
    dsimp only
    rw [there]
    rfl
  · obtain ⟨share, mem, waves⟩ := s.rebindTo_result b h
    exact ⟨share, mem, fun k => ⟨(waves k).unif, (waves k).threads⟩⟩

end Sys2Proof.Proofs
end

section
/-! SUPPORT. What the writes of the executive and the scheduler to memory leave (R237, R363, R372, R380): said once, for
descriptors, signal records and time records. -/

namespace Sys2Proof.Machine

open Sys2Proof.Claims

/-- Nothing differs but memory, the order of its writes and the messages that carry them, and the waves only in the places
that writes have in their views. -/
structure OnlyWrites (s t : State) : Prop where
  rest : t = { s with
    mem := t.mem, hist := t.hist, stamp := t.stamp, waves := t.waves, pubBlk := t.pubBlk, pubGang := t.pubGang
    pubDev := t.pubDev, pubSys := t.pubSys, pubs := t.pubs, carry := t.carry, vlines := t.vlines, bad := t.bad
    glinks := t.glinks, remotes := t.remotes }
  waves : SameWaves s t

theorem onlyWrites_refl (s : State) : OnlyWrites s s := ⟨rfl, fun _ => rfl⟩

theorem OnlyWrites.trans {s t u : State} (h : OnlyWrites s t) (g : OnlyWrites t u) : OnlyWrites s u where
  rest := g.rest.trans (congrArg (fun t : State => { t with
    mem := u.mem, hist := u.hist, stamp := u.stamp, waves := u.waves, pubBlk := u.pubBlk, pubGang := u.pubGang
    pubDev := u.pubDev, pubSys := u.pubSys, pubs := u.pubs, carry := u.carry, vlines := u.vlines, bad := u.bad
    glinks := u.glinks, remotes := u.remotes }) h.rest)
  waves k := SameWave.trans (h.waves k) (g.waves k)

theorem onlyWrites_foldl {α : Type} (f : State → α → State) (h : ∀ s a, OnlyWrites s (f s a)) (as : List α) (s : State) :
    OnlyWrites s (as.foldl f s) := by
  induction as generalizing s with
  | nil => exact onlyWrites_refl s
  | cons a as ih => exact (h s a).trans (ih _)

theorem ite_onlyWrites {s t u : State} (c : Prop) [Decidable c] (ht : OnlyWrites s t) (hu : OnlyWrites s u) :
    OnlyWrites s (if c then t else u) := by
  split
  · exact ht
  · exact hu

section
variable {s t : State} (h : OnlyWrites s t)
include h

theorem OnlyWrites.queues : t.queues = s.queues := (congrArg State.queues h.rest :)
theorem OnlyWrites.gangs : t.gangs = s.gangs := (congrArg State.gangs h.rest :)
theorem OnlyWrites.launches : t.launches = s.launches := (congrArg State.launches h.rest :)
theorem OnlyWrites.blocks : t.blocks = s.blocks := (congrArg State.blocks h.rest :)

theorem OnlyWrites.queue (k : Nat) : t.queue k = s.queue k := congrArg (fun q : Tab Queue => q.get Queue.absent k) h.queues
theorem OnlyWrites.gang (k : Nat) : t.gang k = s.gang k := congrArg (fun q : Tab Gang => q.get Gang.absent k) h.gangs
theorem OnlyWrites.launch (k : Nat) : t.launch k = s.launch k :=
  congrArg (fun q : Tab Launch => q.get Launch.absent k) h.launches

/-- A queue that is set alike. -/
theorem OnlyWrites.setQueue (k : Nat) (q : Queue) : OnlyWrites (s.setQueue k q) (t.setQueue k q) where
  rest := by
    rw [h.rest]
    rfl
  waves := h.waves

end

/-! ## Writes at home and to other devices -/

theorem State.restamp_onlyWrites (s : State) (pa n : Nat) : OnlyWrites s (s.restamp pa n) :=
  ⟨rfl, (s.restamp_reordered pa n).waves⟩

theorem State.overtake_onlyWrites (s : State) (pa len : Nat) : OnlyWrites s (s.overtake pa len) := by
  unfold State.overtake
  refine ite_onlyWrites _ (onlyWrites_refl s) (onlyWrites_foldl _ (fun s i => onlyWrites_foldl _ (fun s v => ?_) _ _) _ _)
  exact ite_onlyWrites _ (State.restamp_onlyWrites ..) (onlyWrites_refl s)

theorem State.pushBytes_onlyWrites (s : State) (pa : Nat) (bs : List Byte) : OnlyWrites s (s.pushBytes pa bs) :=
  (onlyWrites_foldl (fun (s : State) (p : Byte × Nat) => s.pushByte (pa + p.2) p.1) (fun _ _ => ⟨rfl, fun _ => rfl⟩)
    bs.zipIdx s).trans ⟨rfl, fun _ => rfl⟩

theorem State.sysWrite_onlyWrites (s : State) (pa : Nat) (bs : List Byte) : OnlyWrites s (s.sysWrite pa bs) := by
  have unmarked : OnlyWrites s ((s.pushBytes pa bs).unmark pa bs.length) :=
    (s.pushBytes_onlyWrites pa bs).trans ⟨rfl, fun _ => rfl⟩
  have published (t : State) (sys dev : Tab Nat) : OnlyWrites t { t with pubSys := sys, pubDev := dev } :=
    ⟨rfl, fun _ => rfl⟩
  exact (unmarked.trans (State.overtake_onlyWrites ..)).trans (published ..)

theorem State.sendWrite_onlyWrites (s : State) (pa : Nat) (bs : List Byte) : OnlyWrites s (s.sendWrite pa bs) :=
  ⟨rfl, fun _ => rfl⟩

theorem State.ctxPiece_onlyWrites (s : State) (ctx va : Nat) (bs : List Byte) (all : Bool) :
    OnlyWrites s (s.ctxPiece ctx va bs all) := by
  unfold State.ctxPiece
  split
  · exact ite_onlyWrites _ (onlyWrites_refl s) (ite_onlyWrites _ (s.sendWrite_onlyWrites ..)
      (onlyWrites_foldl _ (fun s a => s.sysWrite_onlyWrites a bs) _ s))
  · exact onlyWrites_refl s

theorem State.ctxWrite_onlyWrites (s : State) (ctx va : Nat) (bs : List Byte) : OnlyWrites s (s.ctxWrite ctx va bs) :=
  onlyWrites_foldl (fun (s : State) (p : Nat × List Byte) => s.ctxPiece ctx p.1 p.2 false)
    (fun s p => s.ctxPiece_onlyWrites ctx p.1 p.2 false) _ s

/-! ## The executive's tables -/

/-- The executive's tables: queues, requests, vectors, communicators, code objects and images. -/
def State.desk (s : State) :=
  (s.queues, s.reqs, s.masks, s.msi, s.comms, s.objects, s.images)

/-- Where a gang stands: whether it is placed, its blocks, and its newest image. -/
def Gang.standing (q : Gang) := (q.placed, q.blocks, q.seq, q.base)

/-- The executive's tables are as they were, and every gang stands where it stood. -/
structure KeepsDesk (s t : State) : Prop where
  desk : t.desk = s.desk
  gangs : ∀ g, (t.gang g).standing = (s.gang g).standing

theorem keepsDesk_refl (s : State) : KeepsDesk s s := ⟨rfl, fun _ => rfl⟩

theorem KeepsDesk.trans {s t u : State} (h : KeepsDesk s t) (g : KeepsDesk t u) : KeepsDesk s u :=
  ⟨g.desk.trans h.desk, fun k => (g.gangs k).trans (h.gangs k)⟩

theorem keepsDesk_of_eq {s t : State} (desk : t.desk = s.desk) (gangs : t.gangs = s.gangs) : KeepsDesk s t :=
  ⟨desk, fun g => congrArg (fun gs : Tab Gang => (gs.get Gang.absent g).standing) gangs⟩

theorem keepsDesk_foldl {α : Type} (f : State → α → State) (h : ∀ s a, KeepsDesk s (f s a)) (as : List α) (s : State) :
    KeepsDesk s (as.foldl f s) := by
  induction as generalizing s with
  | nil => exact keepsDesk_refl s
  | cons a as ih => exact (h s a).trans (ih _)

theorem ite_keepsDesk {s t u : State} (c : Prop) [Decidable c] (ht : KeepsDesk s t) (hu : KeepsDesk s u) :
    KeepsDesk s (if c then t else u) := by
  split
  · exact ht
  · exact hu

theorem OnlyWrites.keepsDesk {s t : State} (h : OnlyWrites s t) : KeepsDesk s t :=
  keepsDesk_of_eq (congrArg State.desk h.rest :) h.gangs

section
variable {s t : State} (h : KeepsDesk s t)
include h

theorem KeepsDesk.queues : t.queues = s.queues := congrArg Prod.fst h.desk
theorem KeepsDesk.reqs : t.reqs = s.reqs := congrArg (fun d => d.2.1) h.desk
theorem KeepsDesk.masks : t.masks = s.masks := congrArg (fun d => d.2.2.1) h.desk
theorem KeepsDesk.msi : t.msi = s.msi := congrArg (fun d => d.2.2.2.1) h.desk
theorem KeepsDesk.comms : t.comms = s.comms := congrArg (fun d => d.2.2.2.2.1) h.desk
theorem KeepsDesk.objects : t.objects = s.objects := congrArg (fun d => d.2.2.2.2.2.1) h.desk
theorem KeepsDesk.images : t.images = s.images := congrArg (fun d => d.2.2.2.2.2.2) h.desk

end

/-! ## Pages that the executive maps (R21, R329, R382) -/

/-- Nothing differs but what writes leave, what the executive has put where, and the keys it has given. -/
def OnlyMaps (s t : State) : Prop := OnlyWrites { s with frames := t.frames, nextOp := t.nextOp } t

theorem OnlyWrites.reframe {s t : State} (h : OnlyWrites s t) (fs : List (Nat × Nat × Nat)) (n : Nat) :
    OnlyWrites { s with frames := fs, nextOp := n } { t with frames := fs, nextOp := n } where
  rest := by
    rw [h.rest]
  waves := h.waves

theorem OnlyWrites.onlyMaps {s t : State} (h : OnlyWrites s t) : OnlyMaps s t := by
  have frames : t.frames = s.frames := (congrArg State.frames h.rest :)
  have nextOp : t.nextOp = s.nextOp := (congrArg State.nextOp h.rest :)
  unfold OnlyMaps
  rw [frames, nextOp]
  exact h

theorem OnlyMaps.trans {s t u : State} (h : OnlyMaps s t) (g : OnlyMaps t u) : OnlyMaps s u :=
  (OnlyWrites.reframe h u.frames u.nextOp).trans g

theorem State.keep_onlyMaps (s : State) (kind a size : Nat) : OnlyMaps s (s.keep kind a size) := ⟨rfl, fun _ => rfl⟩

theorem State.clearTable_onlyWrites (s : State) (t : Nat) : OnlyWrites s (s.clearTable t) :=
  onlyWrites_foldl (fun (s : State) i => s.sysWrite (t + 8 * i) (leBytes 8 0)) (fun s _ => s.sysWrite_onlyWrites ..) _ s

theorem State.mapFrom_onlyMaps (s : State) (va leaf tag n level table : Nat) :
    OnlyMaps s (s.mapFrom va leaf tag n level table) ∧ (s.mapFrom va leaf tag n level table).nextOp = s.nextOp := by
  induction n generalizing s level table with
  | zero => exact ⟨(onlyWrites_refl s).onlyMaps, rfl⟩
  | succ n ih =>
    unfold State.mapFrom
    dsimp only
    split
    · have written := s.sysWrite_onlyWrites (table + 8 * levelIndex level va) (leBytes 8 leaf)
      exact ⟨written.onlyMaps, (congrArg State.nextOp written.rest :)⟩
    · split
      · exact ih ..
      · let place := s.site 6 (8 * tag + level) 4096 4096
        have written := ((s.keep 0 place 4096).clearTable_onlyWrites place).trans
          (State.sysWrite_onlyWrites _ (table + 8 * levelIndex level va) (leBytes 8 (place + 1)))
        have before := (s.keep_onlyMaps 0 place 4096).trans written.onlyMaps
        obtain ⟨maps, nextOp⟩ := ih (((s.keep 0 place 4096).clearTable place).sysWrite (table + 8 * levelIndex level va)
          (leBytes 8 (place + 1))) (level + 1) place
        exact ⟨before.trans maps, nextOp.trans (congrArg State.nextOp written.rest :)⟩

theorem State.mapOwn_onlyMaps (s : State) (root va what : Nat) (leaf : Nat → Nat) :
    OnlyMaps s (s.mapOwn root va what leaf) ∧ (s.mapOwn root va what leaf).nextOp = s.nextOp + 1 := by
  have placed (fs : List (Nat × Nat × Nat)) : OnlyMaps s { s with frames := fs, nextOp := s.nextOp + 1 } := ⟨rfl, fun _ => rfl⟩
  obtain ⟨maps, nextOp⟩ := State.mapFrom_onlyMaps
    { (s.keep 1 (s.site what s.nextOp (2 ^ 16) (2 ^ 16)) (2 ^ 16)) with nextOp := s.nextOp + 1 }
    va (leaf (s.site what s.nextOp (2 ^ 16) (2 ^ 16))) s.nextOp 5 0 root
  exact ⟨(placed _).trans maps, nextOp⟩

section
variable {s t : State} (h : OnlyMaps s t)
include h

theorem OnlyMaps.queues : t.queues = s.queues :=
  OnlyWrites.queues (s := { s with frames := t.frames, nextOp := t.nextOp }) h
theorem OnlyMaps.launches : t.launches = s.launches :=
  OnlyWrites.launches (s := { s with frames := t.frames, nextOp := t.nextOp }) h
theorem OnlyMaps.keepsDesk : KeepsDesk s t :=
  (keepsDesk_of_eq (s := s) (t := { s with frames := t.frames, nextOp := t.nextOp }) rfl rfl).trans (OnlyWrites.keepsDesk h)

end

/-! ## Descriptors and signal records (R380, R382, R385) -/

theorem State.putDesc_onlyWrites (s : State) (qid : Nat) : OnlyWrites s (s.putDesc qid) :=
  onlyWrites_foldl _ (fun _ _ => State.ctxWrite_onlyWrites ..) _ s

theorem State.raiseVector_shape (s : State) (v : Nat) :
    s.raiseVector v = { s with vectors := (s.raiseVector v).vectors, msi := (s.raiseVector v).msi } := by
  unfold State.raiseVector
  split
  · rfl
  · split
    · split <;> rfl
    · rfl

/-- A signal record: writes, one signal more in the queue's ring, and its vector. -/
theorem State.signalRecord_writes (s : State) (qid kind reason addr launch : Nat) : ∃ t,
    OnlyWrites (s.setQueue qid { s.queue qid with sigidx := (s.queue qid).sigidx + 1 }) t ∧
      s.signalRecord qid kind reason addr launch = t.raiseVector (s.queue qid).vector :=
  ⟨_, ((State.ctxWrite_onlyWrites ..).setQueue qid _).trans (State.putDesc_onlyWrites ..), rfl⟩

section
variable (s : State) (qid kind reason addr launch : Nat)

theorem State.signalRecord_waves : SameWaves s (s.signalRecord qid kind reason addr launch) := by
  obtain ⟨t, writes, eq⟩ := s.signalRecord_writes qid kind reason addr launch
  rw [eq, State.raiseVector_shape]
  exact writes.waves

theorem State.signalRecord_gangs : (s.signalRecord qid kind reason addr launch).gangs = s.gangs := by
  obtain ⟨t, writes, eq⟩ := s.signalRecord_writes qid kind reason addr launch
  rw [eq, State.raiseVector_shape]
  exact writes.gangs

theorem State.signalRecord_queue (k : Nat) : (s.signalRecord qid kind reason addr launch).queue k =
    if k = qid then { s.queue qid with sigidx := (s.queue qid).sigidx + 1 } else s.queue k := by
  obtain ⟨t, writes, eq⟩ := s.signalRecord_writes qid kind reason addr launch
  rw [eq, State.raiseVector_shape]
  exact (writes.queue k).trans (State.queue_setQueue ..)

end

end Sys2Proof.Machine
end

section
/-! SUPPORT. Lane sets of a wave that were held go on (R324, R350): what becomes of the wave, and that no other wave and no
gang's halt changes, a step trap included (R389). -/

namespace Sys2Proof.Machine

open Sys2Proof.Claims

/-! ## What concerns one wave alone -/

/-- The other waves are as they were, and so are the halts and the records of gangs and the executive's tables. -/
structure KeepsOthers (k : Nat) (s t : State) : Prop extends KeepsDesk s t where
  waves : ∀ j, j ≠ k → SameWave (s.wave j) (t.wave j)
  halts : ∀ g, (t.gang g).halted = (s.gang g).halted ∧ (t.gang g).record = (s.gang g).record

theorem keepsOthers_refl (k : Nat) (s : State) : KeepsOthers k s s :=
  ⟨keepsDesk_refl s, fun _ _ => rfl, fun _ => ⟨rfl, rfl⟩⟩

theorem KeepsOthers.trans {k : Nat} {s t u : State} (h : KeepsOthers k s t) (g : KeepsOthers k t u) :
    KeepsOthers k s u where
  toKeepsDesk := h.toKeepsDesk.trans g.toKeepsDesk
  waves j other := SameWave.trans (h.waves j other) (g.waves j other)
  halts j := ⟨(g.halts j).1.trans (h.halts j).1, (g.halts j).2.trans (h.halts j).2⟩

theorem keepsOthers_of_eq (k : Nat) {s t : State} (desk : t.desk = s.desk) (waves : t.waves = s.waves)
    (gangs : t.gangs = s.gangs) : KeepsOthers k s t := by
  refine ⟨keepsDesk_of_eq desk gangs, fun j _ => ?_, fun g => ?_⟩
  · rw [show t.wave j = s.wave j from congrArg (fun ws : Tab Wave => Tab.get Wave.absent ws j) waves]
    exact sameWave_refl _
  · rw [show t.gang g = s.gang g from congrArg (fun gs : Tab Gang => Tab.get Gang.absent gs g) gangs]
    exact ⟨rfl, rfl⟩

theorem keepsOthers_foldl {k : Nat} {α : Type} (f : State → α → State) (h : ∀ s a, KeepsOthers k s (f s a))
    (as : List α) (s : State) : KeepsOthers k s (as.foldl f s) := by
  induction as generalizing s with
  | nil => exact keepsOthers_refl k s
  | cons a as ih => exact (h s a).trans (ih _)

theorem ite_keepsOthers {k : Nat} {s t u : State} (c : Prop) [Decidable c] (ht : KeepsOthers k s t)
    (hu : KeepsOthers k s u) : KeepsOthers k s (if c then t else u) := by
  split
  · exact ht
  · exact hu

theorem State.onWave_keepsOthers (s : State) (k : Nat) (f : Wave → Wave) : KeepsOthers k s (s.onWave k f) := by
  refine ⟨keepsDesk_of_eq rfl rfl, fun j other => ?_, fun _ => ⟨rfl, rfl⟩⟩
  rw [State.wave_onWave, if_neg other]
  exact sameWave_refl _

/-! ## Traps (R324, R389) -/

theorem State.land_keepsOthers (s : State) (k : Nat) (f : Flight) : KeepsOthers k s (s.land k f) := by
  have raised (s : State) : KeepsOthers k s (s.noteRaised k f.flags) :=
    ite_keepsOthers _ (keepsOthers_of_eq k rfl rfl rfl) (keepsOthers_refl k s)
  have unmarked (p : ErrPlace → Bool) : KeepsOthers k s (s.unmarkNames p) := by
    rw [State.unmarkNames_shape]
    exact keepsOthers_of_eq k rfl rfl rfl
  unfold State.land
  exact ((unmarked _).trans (raised _)).trans (State.onWave_keepsOthers ..)

theorem State.landNth_keepsOthers (s : State) (k n : Nat) : KeepsOthers k s (s.landNth k n) := by
  unfold State.landNth
  split
  · exact (s.land_keepsOthers k _).trans (State.onWave_keepsOthers ..)
  · exact keepsOthers_refl k s

theorem State.landAll_keepsOthers (s : State) (k : Nat) : KeepsOthers k s (s.landAll k) := by
  unfold State.landAll
  generalize List.filter _ _ = fs
  generalize 0 = n
  induction fs generalizing s n with
  | nil => exact keepsOthers_refl k s
  | cons f fs ih => exact (s.landNth_keepsOthers k _).trans (ih _ _)

theorem State.closeWindows_keepsOthers (s : State) (k : Nat) (ls : List Nat) : KeepsOthers k s (s.closeWindows k ls) :=
  s.onWave_keepsOthers ..

theorem State.putRecord_keepsOthers (s : State) (k launch cluster : Nat) (ws : List (BitVec 64)) :
    KeepsOthers k s (s.putRecord launch cluster ws).1 := by
  have kept : (s.putRecord launch cluster ws).1.desk = s.desk ∧ (s.putRecord launch cluster ws).1.gangs = s.gangs := by
    unfold State.putRecord
    dsimp only
    rw [State.sendUp_shape]
    have written := s.sysWrite_onlyWrites ((s.launch launch).ring + 256 * ((s.launch launch).records % 64))
      (ws.flatMap fun w => leBytes 8 w.toNat)
    exact ⟨written.keepsDesk.desk, written.gangs⟩
  refine ⟨keepsDesk_of_eq kept.1 kept.2, fun j _ => s.putRecord_waves launch cluster ws j, fun g => ?_⟩
  rw [show (s.putRecord launch cluster ws).1.gang g = s.gang g from
    congrArg (fun gs : Tab Gang => Tab.get Gang.absent gs g) kept.2]
  exact ⟨rfl, rfl⟩

/-- A step trap halts its wave alone. -/
theorem State.takeTrap_step_keepsOthers (s : State) (k : Nat) (t : Trap) (step : t.cause = causeStep) :
    KeepsOthers k s (s.takeTrap k t) := by
  have received (ls : List Nat) : KeepsOthers k s ((s.landAll k).closeWindows k ls) :=
    (s.landAll_keepsOthers k).trans (State.closeWindows_keepsOthers ..)
  unfold State.takeTrap
  dsimp only
  split
  · exact ((received _).trans (State.onWave_keepsOthers ..)).trans (State.onWave_keepsOthers ..)
  · rw [if_pos (beq_iff_eq.mpr step)]
    exact (((received _).trans (State.onWave_keepsOthers ..)).trans (State.putRecord_keepsOthers ..)).trans
      (State.onWave_keepsOthers ..)

theorem State.raiseTrap_step_keepsOthers (s : State) (k : Nat) (t : Trap) (step : t.cause = causeStep) :
    KeepsOthers k s (s.raiseTrap k t) := by
  unfold State.raiseTrap
  dsimp only
  have raised := s.onWave_keepsOthers k fun w => if (w.pend.isNone && t.lanes.all fun l => match (w.lane l).wait with
      | .molt _ _ => false
      | _ => true) then w.onLanes t.lanes fun x => { x with wait := .none } else w
  refine raised.trans (ite_keepsOthers _ (keepsOthers_refl k _) (ite_keepsOthers _ ?_ (State.onWave_keepsOthers ..)))
  exact State.takeTrap_step_keepsOthers _ k t step

theorem State.stepTrap_keepsOthers (s : State) (k : Nat) (first others : List Nat) :
    KeepsOthers k s (s.stepTrap k first others) :=
  ite_keepsOthers _ (keepsOthers_refl k s) (s.raiseTrap_step_keepsOthers k _ rfl)

theorem State.stepped_keepsOthers (s : State) : KeepsOthers s.iss.wave s s.stepped := by
  unfold State.stepped
  exact ite_keepsOthers _ (keepsOthers_refl _ s) (ite_keepsOthers _ (keepsOthers_of_eq _ rfl rfl rfl)
    (ite_keepsOthers _ (s.stepTrap_keepsOthers ..) (s.stepTrap_keepsOthers ..)))

/-! ## The end of a wait -/

theorem State.commit_keepsOthers (s t : State) (i : Instr) (act : List Nat) (dest : List (Nat × BitVec 64)) (mark : Bool) :
    KeepsOthers s.iss.wave t (s.commit t i act dest mark) := by
  have gang (g : Nat) := (s.commit_gang t i act dest mark g).trans (t.countIr_gang s.iss.wave g)
  refine ⟨⟨(congrArg State.desk (s.commit_shape t i act dest mark) :), fun g => ?_⟩, fun j other => ?_, fun g => ?_⟩
  · rw [gang]
    rfl
  · rw [State.commit_wave, if_neg other]
    exact sameWave_refl _
  · rw [gang]
    exact ⟨rfl, rfl⟩

theorem State.retire_keepsOthers (s t : State) (i : Instr) (act : List Nat) (dest : List (Nat × BitVec 64)) (mark : Bool)
    (same : t.iss.wave = s.iss.wave) : KeepsOthers s.iss.wave t (s.retire t i act dest mark) := by
  have steps := (s.commit t i act dest mark).stepped_keepsOthers
  rw [State.commit_iss, same] at steps
  exact ((State.commit_keepsOthers ..).trans steps).trans (keepsOthers_of_eq _ rfl rfl rfl)

/-- The issue that stands for a wait's end. -/
def State.resuming (s : State) (k : Nat) (ls : List Nat) : State :=
  let pc := ((s.wave k).lane (ls.headD 0)).pc
  let ws := s.wordsOfLane k (ls.headD 0) pc
  { s with iss := { Issue.of k ls with pc := pc, next := nextPc pc ws.length, words := ws } }

theorem State.resuming_issuing (s : State) (k : Nat) (ls : List Nat) :
    (s.resuming k ls).issuing = (s.wave k).live.filter ls.contains := rfl

theorem State.resumeAt_self (s : State) (k : Nat) (ls : List Nat) : s.resumeAt k ls (fun t => t) =
    (s.resuming k ls).retire (s.resuming k ls)
      ((s.resuming k ls).instrAt k (ls.headD 0) ((s.wave k).lane (ls.headD 0)).pc) ls [] false := rfl

theorem State.resumeAt_eq (s : State) (k : Nat) (ls : List Nat) (f : State → State) : s.resumeAt k ls f =
    (s.resuming k ls).retire (f (s.resuming k ls))
      ((s.resuming k ls).instrAt k (ls.headD 0) ((s.wave k).lane (ls.headD 0)).pc) ls [] false := rfl

section
variable {k : Nat} {f : State → State} (keeps : ∀ t, KeepsOthers k t (f t)) (stays : ∀ t, (f t).iss = t.iss)
include keeps stays

theorem State.resumeAt_keepsOthers (s : State) (ls : List Nat) : KeepsOthers k s (s.resumeAt k ls f) := by
  rw [State.resumeAt_eq]
  have ends (i : Instr) :=
    (s.resuming k ls).retire_keepsOthers (f (s.resuming k ls)) i ls [] false (congrArg Issue.wave (stays _))
  exact ((keepsOthers_of_eq k (s := s) (t := s.resuming k ls) rfl rfl rfl).trans (keeps _)).trans (ends _)

theorem State.goOn_keepsOthers (s : State) (ls : List Nat) : KeepsOthers k s (s.goOn k ls f) := by
  unfold State.goOn
  exact ite_keepsOthers _ (s.resumeAt_keepsOthers keeps stays ls) ((keeps s).trans (State.onWave_keepsOthers ..))

end

theorem State.goOnAll_keepsOthers (s : State) (k : Nat) (x : Wait) (f : List Nat → State → State)
    (keeps : ∀ ls t, KeepsOthers k t (f ls t)) (stays : ∀ ls t, (f ls t).iss = t.iss) :
    KeepsOthers k s (s.goOnAll k x f) :=
  keepsOthers_foldl _ (fun s _ => s.goOn_keepsOthers (keeps _) (stays _) _) _ s

/-! ## What becomes of the wave -/

theorem Wave.complete_wait (w : Wave) (i : Instr) (act ls : List Nat) (pc next : BitVec 64) (l : Nat) (distinct : ls.Nodup) :
    ((w.complete i act ls pc next [] false).lane l).wait = if l ∈ ls then .none else (w.lane l).wait := by
  have killed : ((w.kill act (endedNames i act)).lane l).wait = (w.lane l).wait := by
    refine Wave.foldl_keep (fun w => (w.lane l).wait) _ (fun w n => ?_) _ w
    split
    · exact Wave.lane_onLanes_keep Lane.wait w act (fun t => { t with dead := n.2 :: t.dead.filter (· != n.2) })
        (fun _ => rfl) l
    · rfl
    · rfl
  have moved (ls : List Nat) (f : Nat → BitVec 64) (w : Wave) :
      ((ls.foldl (fun w l => w.setLane l ((w.lane l).goto (f l))) w).lane l).wait = (w.lane l).wait := by
    refine Wave.foldl_keep (fun w => (w.lane l).wait) _ (fun w j => ?_) ls w
    rw [Wave.lane_setLane]
    split
    · next e => rw [e]; rfl
    · rfl
  show (Wave.lane (Wave.advance _ ls next [] _) l).wait = _
  unfold Wave.advance
  refine (moved ls (fun _ => next) _).trans ?_
  split
  · next within => rw [Wave.lane_onLanes_mem _ _ _ _ within distinct]
  · next outside => rw [Wave.lane_onLanes_ne _ _ _ _ outside, killed]

/-- A wave some of whose lanes `ls` have gone on: its other lanes stand where they stood. -/
structure Resumed (ls : List Nat) (v w : Wave) : Prop where
  single : w.single = v.single
  trapm : w.trapm = v.trapm
  stopped : w.stopped = v.stopped
  live : w.live = v.live
  lanes : ∀ l, l ∉ ls → (w.lane l).wait = (v.lane l).wait ∧ (w.lane l).arch = (v.lane l).arch

theorem Resumed.trans {ls : List Nat} {u v w : Wave} (h : Resumed ls u v) (g : Resumed ls v w) : Resumed ls u w where
  single := g.single.trans h.single
  trapm := g.trapm.trans h.trapm
  stopped := g.stopped.trans h.stopped
  live := g.live.trans h.live
  lanes l outside := ⟨(g.lanes l outside).1.trans (h.lanes l outside).1, (g.lanes l outside).2.trans (h.lanes l outside).2⟩

theorem Resumed.mono {ls ms : List Nat} {v w : Wave} (h : Resumed ls v w) (within : ∀ l ∈ ls, l ∈ ms) : Resumed ms v w :=
  { h with lanes := fun l outside => h.lanes l fun e => outside (within l e) }

theorem resumed_refl (ls : List Nat) (w : Wave) : Resumed ls w w := ⟨rfl, rfl, rfl, rfl, fun _ _ => ⟨rfl, rfl⟩⟩

theorem Wave.live_of_exited {v w : Wave} (width : w.width = v.width)
    (exited : ∀ l, (w.lane l).exited = (v.lane l).exited) : w.live = v.live := by
  unfold Wave.live
  rw [width]
  exact List.filter_congr fun l _ => by rw [exited]

theorem Wave.complete_resumed (w : Wave) (i : Instr) (act ls : List Nat) (pc next : BitVec 64) (distinct : ls.Nodup) :
    Resumed ls w (w.complete i act ls pc next [] false) := by
  have arch := w.complete_arch i act ls pc next [] false
  have lane := w.complete_lane i act ls pc next [] false
  refine ⟨(congrArg Wave.single arch :), (congrArg Wave.trapm arch :), (congrArg Wave.stopped arch :),
    Wave.live_of_exited (congrArg Wave.width arch :) fun l => ?_, fun l outside => ⟨?_, ?_⟩⟩
  · refine (congrArg Lane.exited (lane l)).trans ?_
    split <;> rfl
  · rw [w.complete_wait i act ls pc next l distinct, if_neg outside]
  · rw [lane l, if_neg outside]

/-- The end of an instruction of a wave that no debugger steps. -/
theorem State.retire_wave (s t : State) (i : Instr) (act : List Nat) (dest : List (Nat × BitVec 64)) (mark : Bool)
    (same : t.iss.wave = s.iss.wave) (alone : (t.wave s.iss.wave).single = false) :
    (s.retire t i act dest mark).wave s.iss.wave =
      (t.wave s.iss.wave).complete i act s.issuing s.iss.pc s.iss.next dest mark := by
  have wave := (s.commit_wave t i act dest mark s.iss.wave).trans (if_pos rfl)
  have unstepped : (s.commit t i act dest mark).stepped = s.commit t i act dest mark := by
    refine State.stepped_of_not_single _ ?_
    unfold State.cur
    rw [State.commit_iss, same, wave]
    exact (congrArg Wave.single (Wave.complete_arch ..) :).trans alone
  unfold State.retire
  rw [unstepped]
  exact wave

theorem Wave.onLanes_resumed (w : Wave) (ls : List Nat) {f : Lane → Lane}
    (keep : ∀ t, (f t).arch = t.arch ∧ (f t).exited = t.exited) : Resumed ls w (w.onLanes ls f) := by
  have exited := w.lane_onLanes_keep Lane.exited ls f fun t => (keep t).2
  refine ⟨(congrArg Wave.single (w.onLanes_shape ls f) :), (congrArg Wave.trapm (w.onLanes_shape ls f) :),
    (congrArg Wave.stopped (w.onLanes_shape ls f) :),
    Wave.live_of_exited (congrArg Wave.width (w.onLanes_shape ls f) :) exited, fun l outside => ?_⟩
  rw [Wave.lane_onLanes_ne _ _ _ _ outside]
  exact ⟨rfl, rfl⟩

section
variable (s : State) (k : Nat) (ls : List Nat) (alone : (s.wave k).single = false)
include alone

/-- Lanes of a wave that no debugger steps go on. -/
theorem State.goOn_resumed : Resumed ls (s.wave k) ((s.goOn k ls fun t => t).wave k) := by
  unfold State.goOn
  split
  · rw [State.resumeAt_self]
    have ends (i : Instr) := (s.resuming k ls).retire_wave (s.resuming k ls) i ls [] false rfl alone
    refine (ends _).symm ▸ (Wave.complete_resumed _ _ _ _ _ _ (State.issuing_nodup _)).mono fun l within => ?_
    rw [State.resuming_issuing] at within
    simpa using (List.mem_filter.mp within).2
  · unfold State.unhold
    rw [State.wave_onWave_same]
    exact Wave.onLanes_resumed _ ls fun t => ⟨rfl, rfl⟩

/-- Outside trap mode none of them waits any more. -/
theorem State.goOn_frees (free : (s.wave k).trapm = false) (within : ∀ l ∈ ls, l ∈ (s.wave k).live) {l : Nat}
    (here : l ∈ ls) : (((s.goOn k ls fun t => t).wave k).lane l).wait = .none := by
  have all : ls.all (s.wave k).present.contains = true := by
    unfold Wave.present
    rw [free]
    simpa using within
  unfold State.goOn
  rw [if_pos all, State.resumeAt_self]
  have ends (i : Instr) := (s.resuming k ls).retire_wave (s.resuming k ls) i ls [] false rfl alone
  refine (congrArg (fun w : Wave => (w.lane l).wait) (ends _)).trans ?_
  refine (Wave.complete_wait _ _ _ _ _ _ l (State.issuing_nodup _)).trans (if_pos ?_)
  rw [State.resuming_issuing]
  exact List.mem_filter.mpr ⟨within l here, by simpa using here⟩

end

/-! ## All lane sets that wait alike -/

/-- The lanes of a wave that wait for one thing. -/
def State.heldAt (s : State) (k : Nat) (x : Wait) : List Nat :=
  (s.wave k).live.filter fun l => ((s.wave k).lane l).wait == x

/-- Lane sets go on by their PCs, as they stood in `s`. -/
def State.goOnAt (s : State) (k : Nat) (held : List Nat) (pcs : List (BitVec 64)) (t : State) : State :=
  pcs.foldl (fun t pc => t.goOn k (held.filter fun l => ((s.wave k).lane l).pc == pc) fun t => t) t

theorem State.goOnAll_eq (s : State) (k : Nat) (x : Wait) : s.goOnAll k x (fun _ t => t) =
    s.goOnAt k (s.heldAt k x) ((s.heldAt k x).map fun l => ((s.wave k).lane l).pc).eraseDups s := rfl

theorem State.goOnAt_resumed (s : State) (k : Nat) (held : List Nat) (pcs : List (BitVec 64)) (t : State)
    (alone : (t.wave k).single = false) : Resumed held (t.wave k) ((s.goOnAt k held pcs t).wave k) := by
  induction pcs generalizing t with
  | nil => exact resumed_refl held _
  | cons pc pcs ih =>
    have first := (t.goOn_resumed k (held.filter fun l => ((s.wave k).lane l).pc == pc) alone).mono fun _ within =>
      (List.mem_filter.mp within).1
    exact first.trans (ih _ (first.single.trans alone))

theorem State.goOnAt_frees (s : State) (k : Nat) (held : List Nat) (pcs : List (BitVec 64)) (t : State)
    (alone : (t.wave k).single = false) (free : (t.wave k).trapm = false) (within : ∀ l ∈ held, l ∈ (t.wave k).live)
    {l : Nat} (here : l ∈ held) (next : ((s.wave k).lane l).pc ∈ pcs ∨ ((t.wave k).lane l).wait = .none) :
    (((s.goOnAt k held pcs t).wave k).lane l).wait = .none := by
  induction pcs generalizing t with
  | nil => exact next.resolve_left List.not_mem_nil
  | cons pc pcs ih =>
    generalize hls : held.filter (fun l => ((s.wave k).lane l).pc == pc) = ls
    have sub : ∀ l ∈ ls, l ∈ held := fun l h => (List.mem_filter.mp (hls ▸ h)).1
    have first := t.goOn_resumed k ls alone
    show (((s.goOnAt k held pcs (t.goOn k _ fun t => t)).wave k).lane l).wait = .none
    rw [hls]
    refine ih _ (first.single.trans alone) (first.trapm.trans free) (fun l h => first.live ▸ within l h) ?_
    by_cases mine : l ∈ ls
    · exact .inr (t.goOn_frees k ls alone free (fun l h => within l (sub l h)) mine)
    · rw [(first.lanes l mine).1]
      refine next.imp_left fun listed => (List.mem_cons.mp listed).resolve_left fun e => mine ?_
      exact hls ▸ List.mem_filter.mpr ⟨here, beq_iff_eq.mpr e⟩

section
variable (s : State) (k : Nat) (x : Wait) (alone : (s.wave k).single = false)
include alone

theorem State.goOnAll_resumed : Resumed (s.heldAt k x) (s.wave k) ((s.goOnAll k x fun _ t => t).wave k) :=
  s.goOnAt_resumed k _ _ s alone

theorem State.goOnAll_frees (free : (s.wave k).trapm = false) {l : Nat} (live : l ∈ (s.wave k).live)
    (waits : ((s.wave k).lane l).wait = x) : (((s.goOnAll k x fun _ t => t).wave k).lane l).wait = .none := by
  have here : l ∈ s.heldAt k x := List.mem_filter.mpr ⟨live, beq_iff_eq.mpr waits⟩
  refine s.goOnAt_frees k _ _ s alone free (fun l h => (List.mem_filter.mp h).1) here (.inl ?_)
  exact List.mem_eraseDups.mpr (List.mem_map_of_mem here)

end

end Sys2Proof.Machine
end

section
/-! Proofs: fault records, debugger resumes, command links, heartbeat and takeover, timers and CR.CLSEND (R325, R329, R350,
R374-R376, R380, R384). -/

namespace Sys2Proof.Machine

open Sys2Proof.Claims

/-! ## A debugger's resume (R350, R384) -/

/-- A wave that goes on, and its lane sets halted at a BRK with it. -/
def State.freeWave (s : State) (k : Nat) : State :=
  (s.onWave k fun w => { w with stopped := false }).goOnAll k .brk fun _ t => t

theorem State.resumeGang_eq (s : State) (g : Nat) : s.resumeGang g = (s.gangWaves g).foldl State.freeWave s := rfl

/-- A wave that nothing has stopped or stepped since, and whose lanes stand where they stood unless halted at a BRK. -/
structure Calmed (v w : Wave) : Prop where
  single : w.single = v.single
  trapm : w.trapm = v.trapm
  live : w.live = v.live
  runs : v.stopped = false → w.stopped = false
  lanes : ∀ l, (v.lane l).wait ≠ .brk → (w.lane l).wait = (v.lane l).wait ∧ (w.lane l).arch = (v.lane l).arch

theorem calmed_of_sameWave {v w : Wave} (h : SameWave v w) : Calmed v w := by
  rw [h]
  exact ⟨rfl, rfl, rfl, id, fun _ _ => ⟨rfl, rfl⟩⟩

theorem Calmed.trans {u v w : Wave} (h : Calmed u v) (g : Calmed v w) : Calmed u w where
  single := g.single.trans h.single
  trapm := g.trapm.trans h.trapm
  live := g.live.trans h.live
  runs stopped := g.runs (h.runs stopped)
  lanes l away := by
    obtain ⟨wait, arch⟩ := h.lanes l away
    obtain ⟨wait', arch'⟩ := g.lanes l (wait.symm ▸ away)
    exact ⟨wait'.trans wait, arch'.trans arch⟩

theorem State.freeWave_keepsOthers (s : State) (k : Nat) : KeepsOthers k s (s.freeWave k) :=
  (s.onWave_keepsOthers k _).trans (State.goOnAll_keepsOthers _ k .brk _
    (fun _ t => keepsOthers_refl k t) fun _ _ => rfl)

section
variable (s : State) (k : Nat) (alone : (s.wave k).single = false)
include alone

theorem State.freeWave_resumed : Resumed ((s.onWave k fun w => { w with stopped := false }).heldAt k .brk)
    { s.wave k with stopped := false } ((s.freeWave k).wave k) := by
  have wave := s.wave_onWave_same k fun w => { w with stopped := false }
  have goes := State.goOnAll_resumed (s.onWave k fun w => { w with stopped := false }) k .brk (by rw [wave]; exact alone)
  rw [wave] at goes
  exact goes

theorem State.freeWave_calmed : Calmed (s.wave k) ((s.freeWave k).wave k) := by
  obtain ⟨single, trapm, stopped, live, lanes⟩ := s.freeWave_resumed k alone
  refine ⟨single, trapm, live, fun _ => stopped, fun l away => lanes l fun held => away ?_⟩
  have waits := beq_iff_eq.mp (List.mem_filter.mp held).2
  rw [State.wave_onWave_same] at waits
  exact waits

theorem State.freeWave_frees (free : (s.wave k).trapm = false) {l : Nat} (live : l ∈ (s.wave k).live)
    (waits : ((s.wave k).lane l).wait = .brk) : (((s.freeWave k).wave k).lane l).wait = .none := by
  refine State.goOnAll_frees (s.onWave k fun w => { w with stopped := false }) k .brk ?_ ?_ ?_ ?_ <;>
    rw [State.wave_onWave_same]
  · exact alone
  · exact free
  · exact live
  · exact waits

/-- What a resume of some waves makes of a wave that no debugger steps. -/
theorem State.freeWaves_wave (ks : List Nat) : Calmed (s.wave k) ((ks.foldl State.freeWave s).wave k) ∧
    (k ∈ ks → ((ks.foldl State.freeWave s).wave k).stopped = false ∧ ((s.wave k).trapm = false →
      ∀ l ∈ (s.wave k).live, ((s.wave k).lane l).wait = .brk →
        (((ks.foldl State.freeWave s).wave k).lane l).wait = .none)) := by
  induction ks generalizing s with
  | nil => exact ⟨calmed_of_sameWave (sameWave_refl _), fun h => absurd h List.not_mem_nil⟩
  | cons j ks ih =>
    rw [List.foldl_cons]
    by_cases this : k = j
    · subst this
      have first := s.freeWave_calmed k alone
      have stopped : ((s.freeWave k).wave k).stopped = false := (s.freeWave_resumed k alone).stopped
      have rest := (ih _ (first.single.trans alone)).1
      refine ⟨first.trans rest, fun _ => ⟨rest.runs stopped, fun free l live waits => ?_⟩⟩
      have freed := s.freeWave_frees k alone free live waits
      rw [(rest.lanes l (by rw [freed]; exact fun e => nomatch e)).1, freed]
    · have same := (s.freeWave_keepsOthers j).waves k this
      have first := calmed_of_sameWave same
      obtain ⟨rest, freed⟩ := ih _ (first.single.trans alone)
      refine ⟨first.trans rest, fun listed => ?_⟩
      obtain ⟨stopped, none⟩ := freed ((List.mem_cons.mp listed).resolve_left this)
      refine ⟨stopped, fun free l live waits => none (first.trapm.trans free) l (first.live.symm ▸ live) ?_⟩
      rw [SameWave.lane same l, waits]

end

theorem State.freeWaves_halts (ks : List Nat) (s : State) (g : Nat) :
    ((ks.foldl State.freeWave s).gang g).halted = (s.gang g).halted ∧
      ((ks.foldl State.freeWave s).gang g).record = (s.gang g).record := by
  induction ks generalizing s with
  | nil => exact ⟨rfl, rfl⟩
  | cons j ks ih =>
    obtain ⟨halted, record⟩ := (s.freeWave_keepsOthers j).halts g
    exact ⟨(ih _).1.trans halted, (ih _).2.trans record⟩

theorem State.gangWaves_unhalted (s : State) (g : Nat) :
    (s.setGang g { s.gang g with halted := false }).gangWaves g = s.gangWaves g := by
  unfold State.gangWaves
  rw [State.gang_setGang_same]
  rfl

theorem exec_debuggerResume_wave (s : State) {g k : Nat} (idle : s.iss.granted = false)
    (mine : s.gangOf (s.wave k) = g) : exec (.debuggerResume g (some k)) s =
      .next (s.onWave k fun w => { w with stopped := false }) :=
  congrArg _ ((if_neg (by rw [idle]; decide)).trans (if_pos (beq_iff_eq.mpr mine)))

theorem exec_debuggerResume_gang (s : State) {g : Nat} (idle : s.iss.granted = false) :
    exec (.debuggerResume g none) s = .next ((s.setGang g { s.gang g with halted := false }).resumeGang g) :=
  congrArg _ (if_neg (by rw [idle]; decide))

/-! ## Fault records (R325, R329) and the scheduler's role (R376) -/

theorem State.signalRecord_gang (s : State) (qid kind reason addr launch g : Nat) :
    (s.signalRecord qid kind reason addr launch).gang g = s.gang g :=
  congrArg (fun gs : Tab Gang => Tab.get Gang.absent gs g) (s.signalRecord_gangs ..)

/-- The oldest record of a gang leaves for its process. -/
def State.sendRecord (s : State) (n g : Nat) : State :=
  (s.setGang g { s.gang g with record := (s.gang g).record.tail }).signalRecord
    (s.launch n).queue 2 0 ((s.launch n).recordVa ((s.gang g).record.headD 0)) (s.launch n).id

section
variable (s : State) (n g : Nat)

theorem State.sendRecord_gang : (s.sendRecord n g).gang g = { s.gang g with record := (s.gang g).record.tail } :=
  (State.signalRecord_gang ..).trans (State.gang_setGang_same ..)

theorem State.sendRecord_queue : (s.sendRecord n g).queue (s.launch n).queue =
    { s.queue (s.launch n).queue with sigidx := (s.queue (s.launch n).queue).sigidx + 1 } :=
  (State.signalRecord_queue ..).trans (if_pos rfl)

theorem State.sendRecord_waves : SameWaves s (s.sendRecord n g) := fun k =>
  State.signalRecord_waves (s.setGang g { s.gang g with record := (s.gang g).record.tail }) _ _ _ _ _ k

end

theorem exec_faultRecordWritten (s : State) {n g : Nat}
    (first : (s.launch n).gangs.find? (fun g => !(s.gang g).record.isEmpty) = some g) :
    exec (.faultRecordWritten n) s = .next (s.sendRecord n g) := by
  show execFaultRecordWritten n s = _
  unfold execFaultRecordWritten
  dsimp only
  rw [first]
  rfl

theorem exec_schedulerTakeover (s : State) (first : s.sched = 0) (late : s.beat + 225000 ≤ s.time) :
    exec .schedulerTakeover s = .next ({ s with sched := 8 }.signalEvent 8 16) := by
  refine congrArg _ (if_pos ?_)
  have silent : beatLimit ≤ s.time - s.beat := by unfold beatLimit; omega
  rw [first, decide_eq_true silent]
  rfl

/-! ## Command links (R375) -/

/-- A link whose oldest message toward the scheduler has left. -/
def CmdLink.popUp (c : CmdLink) : CmdLink :=
  match c.upHeld with
  | m :: ms => { c with up := c.up.drop 1 ++ [m], upHeld := ms }
  | [] => { c with up := c.up.drop 1, upPermits := c.upPermits + 1 }

/-- A link whose oldest message toward its leaf controller has left. -/
def CmdLink.popDown (c : CmdLink) : CmdLink :=
  match c.downHeld with
  | m :: ms => { c with down := c.down.drop 1 ++ [m], downHeld := ms }
  | [] => { c with down := c.down.drop 1, downPermits := c.downPermits + 1 }

section
variable (c : CmdLink) {m : LinkMsg} {ms : List LinkMsg}

theorem CmdLink.popUp_result (oldest : c.up = m :: ms) :
    (c.upHeld = [] → c.popUp.up = ms ∧ c.popUp.upPermits = c.upPermits + 1 ∧ c.popUp.upHeld = []) ∧
      (∀ h hs, c.upHeld = h :: hs → c.popUp.up = ms ++ [h] ∧ c.popUp.upPermits = c.upPermits ∧ c.popUp.upHeld = hs) ∧
      c.popUp.down = c.down ∧ c.popUp.downPermits = c.downPermits := by
  unfold CmdLink.popUp
  cases c.upHeld <;> simp [oldest]

theorem CmdLink.popDown_result (oldest : c.down = m :: ms) :
    (c.downHeld = [] → c.popDown.down = ms ∧ c.popDown.downPermits = c.downPermits + 1 ∧ c.popDown.downHeld = []) ∧
      (∀ h hs, c.downHeld = h :: hs →
        c.popDown.down = ms ++ [h] ∧ c.popDown.downPermits = c.downPermits ∧ c.popDown.downHeld = hs) ∧
      c.popDown.up = c.up ∧ c.popDown.upPermits = c.upPermits := by
  unfold CmdLink.popDown
  cases c.downHeld <;> simp [oldest]

end

theorem State.takeMessage_shape (s : State) (m : LinkMsg) :
    s.takeMessage m = { s with ring := (s.takeMessage m).ring, orders := (s.takeMessage m).orders } := by
  cases m <;> rfl

theorem State.popUp_shape (s : State) (c : Nat) :
    s.popUp c = { s.setClink c (s.clink c).popUp with ctls := (s.popUp c).ctls } := by
  unfold State.popUp CmdLink.popUp
  dsimp only
  cases (s.clink c).upHeld <;> rfl

section
variable {s : State} {c : Nat} {m : LinkMsg} {ms : List LinkMsg}

theorem exec_commandLinkMessage_up (oldest : (s.clink c).up = m :: ms) :
    exec (.commandLinkMessage c true) s = .next ((s.popUp c).takeMessage m) := by
  show execCommandLinkMessage c true s = _
  unfold execCommandLinkMessage
  dsimp only
  rw [if_pos rfl, oldest]
  rfl

theorem exec_commandLinkMessage_down (oldest : (s.clink c).down = m :: ms) :
    exec (.commandLinkMessage c false) s = .next ((s.popDown c).takeMessage m) := by
  show execCommandLinkMessage c false s = _
  unfold execCommandLinkMessage
  dsimp only
  rw [if_neg (by decide), oldest]
  rfl

end

section
variable (s : State) (c : Nat) (m : LinkMsg)

theorem State.popUp_taken : (((s.popUp c).takeMessage m).clink c) = (s.clink c).popUp ∧
    ((s.popUp c).takeMessage m).waves = s.waves := by
  rw [State.takeMessage_shape, State.popUp_shape]
  exact ⟨(State.clink_setClink_same s c (s.clink c).popUp :), rfl⟩

theorem State.popUp_ring (ws : List (BitVec 64)) : ((s.popUp c).takeMessage (.preemptReport ws)).ring = s.ring ++ [ws] := by
  rw [State.popUp_shape]
  rfl

theorem State.popDown_taken : (((s.popDown c).takeMessage m).clink c) = (s.clink c).popDown ∧
    ((s.popDown c).takeMessage m).waves = (s.popDown c).waves := by
  rw [State.takeMessage_shape]
  exact ⟨(State.clink_setClink_same s c (s.clink c).popDown :), rfl⟩

end

/-- Lane sets that wait for a permit look again (R375). -/
def Wave.lookAgain (w : Wave) : Wave := w.wake fun x => x == .clsend

theorem Wave.wake_wait (w : Wave) (x : Wait) (other : x ≠ .none) {l : Nat} (live : l ∈ w.live) :
    ((w.wake fun y => y == x).lane l).wait ≠ x := by
  unfold Wave.wake
  by_cases waits : ((w.lane l).wait == x) = true
  · rw [Wave.lane_onLanes_mem _ _ _ _ (List.mem_filter.mpr ⟨live, waits⟩) ((List.nodup_range.filter _).filter _)]
    exact other.symm
  · rw [Wave.lane_onLanes_ne _ _ _ _ fun h => waits (List.mem_filter.mp h).2]
    exact fun e => waits (beq_iff_eq.mpr e)

theorem State.popDown_wave (s : State) (c k : Nat) :
    (∀ l, (((s.popDown c).wave k).lane l).arch = ((s.wave k).lane l).arch) ∧
      ∀ l ∈ (s.wave k).live, (((s.popDown c).wave k).lane l).wait ≠ .clsend :=
  Tab.get_map_rel (R := fun v w => (∀ l, (w.lane l).arch = (v.lane l).arch) ∧ ∀ l ∈ v.live, (w.lane l).wait ≠ .clsend)
    (g := Wave.lookAgain) ⟨fun _ => rfl, fun _ h => absurd h List.not_mem_nil⟩
    (fun v => ⟨v.wake_lane _, fun _ live => v.wake_wait .clsend (fun e => nomatch e) live⟩) s.waves k

/-! ## Timers and CR.CLSEND (R374, R375) -/

theorem exec_timerExpiry (s : State) (c : Nat) (armed : (s.ctl c).armed = true)
    (due : (s.ctl c).timer.toNat ≤ s.coreTime (256 + c)) : exec (.timerExpiry c) s = .next
      (s.setCtl c { s.ctl c with armed := false, event := (s.ctl c).event ||| 4 }) := by
  show execTimerExpiry c s = _
  unfold execTimerExpiry State.signalEvent
  dsimp only
  rw [if_pos (by rw [armed]; exact decide_eq_true due), State.ctl_setCtl_same]
  unfold State.setCtl
  dsimp only
  rw [Tab.put_put]

theorem exec_clsend (s : State) (c : Nat) (v : BitVec 64) {bs : List Byte} (link : bits v.toNat 63 56 < 64)
    (permit : (s.clink (bits v.toNat 63 56)).downPermits ≠ 0) (named : s.messageBytes (s.ctl c).wave v = some bs) :
    exec (.clsend c v) s = .next (s.setClink (bits v.toNat 63 56) { s.clink (bits v.toNat 63 56) with
      down := (s.clink (bits v.toNat 63 56)).down ++ [.raw bs]
      downPermits := (s.clink (bits v.toNat 63 56)).downPermits - 1 }) := by
  have some_ : ((s.clink (bits v.toNat 63 56)).downPermits == 0) = false := beq_eq_false_iff_ne.mpr permit
  show execClsend c v s = _
  unfold execClsend State.clSend State.sendDown
  dsimp only
  rw [if_neg (Nat.not_le.mpr link), some_, if_neg (by decide), named]
  rfl

end Sys2Proof.Machine

namespace Sys2Proof.Proofs

open Sys2Proof.Machine Sys2Proof.Claims

/-- Settles O54, event by event; a resume by what each wave of the gang makes of it. -/
theorem messagesAndTimers : Obligations.MessagesAndTimers := by
  unfold Obligations.MessagesAndTimers
  refine ⟨⟨fun s n g => ?_, fun s g k idle mine => ?_, fun s g idle => ?_, fun s c m ms => ?_, fun s first => ?_⟩,
    fun s c => ⟨exec_timerExpiry s c, fun v bs => exec_clsend s c v⟩⟩
  · intro l first
    exact ⟨_, exec_faultRecordWritten s first, (congrArg Gang.record (s.sendRecord_gang n g) :),
      (congrArg Gang.halted (s.sendRecord_gang n g) :), (congrArg Queue.sigidx (s.sendRecord_queue n g) :),
      s.sendRecord_waves n g⟩
  · refine ⟨_, exec_debuggerResume_wave s idle mine, ?_, fun j other => ?_, rfl, fun j l => ?_⟩
    · rw [State.wave_onWave_same]
    · rw [State.wave_onWave, if_neg other]
    · rw [State.wave_onWave]
      split
      · next e => rw [e]; rfl
      · rfl
  · refine ⟨_, exec_debuggerResume_gang s idle, ?_, ?_, fun k alone => ?_⟩
    · rw [State.resumeGang_eq, (State.freeWaves_halts ..).1, State.gang_setGang_same]
    · rw [State.resumeGang_eq, (State.freeWaves_halts ..).2, State.gang_setGang_same]
    · obtain ⟨calm, freed⟩ := (s.setGang g { s.gang g with halted := false }).freeWaves_wave k alone
        ((s.setGang g { s.gang g with halted := false }).gangWaves g)
      rw [State.resumeGang_eq]
      exact ⟨fun mine => freed (State.gangWaves_unhalted s g ▸ mine), fun l away => (calm.lanes l away).2⟩
  · intro x
    refine ⟨fun oldest => ⟨_, exec_commandLinkMessage_up oldest, ?_⟩, fun oldest =>
      ⟨_, exec_commandLinkMessage_down oldest, ?_⟩⟩
    · obtain ⟨link, waves⟩ := s.popUp_taken c m
      dsimp only
      rw [link]
      obtain ⟨returned, follows, down, permits⟩ := x.popUp_result oldest
      exact ⟨returned, follows, down, permits, waves, fun ws report => by rw [report]; exact s.popUp_ring c ws⟩
    · obtain ⟨link, waves⟩ := s.popDown_taken c m
      dsimp only
      rw [link]
      obtain ⟨returned, follows, up, permits⟩ := x.popDown_result oldest
      have wave (k : Nat) : ((s.popDown c).takeMessage m).wave k = (s.popDown c).wave k :=
        congrArg (fun ws : Tab Wave => Tab.get Wave.absent ws k) waves
      refine ⟨returned, follows, up, permits, fun i order => by rw [order]; rfl, fun k l => ?_, fun k l live => ?_⟩
      · rw [wave]
        exact (s.popDown_wave c k).1 l
      · rw [wave]
        exact (s.popDown_wave c k).2 l live
  · refine ⟨congrArg _ (if_pos (by rw [first]; rfl)), fun late => ⟨_, exec_schedulerTakeover s first late, rfl, ?_, rfl, rfl, rfl⟩⟩
    exact congrArg CtlCore.event (State.ctl_setCtl_same ..)

end Sys2Proof.Proofs
end

section
/-! Proofs: a table of requests that holds two under one number misleads the executive, which then answers a wave in place
of the host (R383). -/

namespace Sys2Proof.Machine

open Sys2Proof.Claims

/-- A call of a wave none of whose lanes is held any more. -/
def idleCall : Call := ⟨0, [], 0, 4, 5⟩

/-- The host asks, as request 9, to step wave 1, which is stopped. Number 10 stands twice in the table: for the call of wave
2, and for a malformed request of the host. -/
def doubleRequests : State :=
  let s := State.reset.placeCode ⟨0, 0, 0, 0⟩
  { s with
    iss := .none
    waves := (s.waves.put 1 { probeWave with stopped := true }).put 2 { Wave.absent with used := true, service := [idleCall] }
    reqs := [(9, ⟨.host, 0x20800, 0, 0, [12, 1, 0, 0, 1], 0, 0⟩), (10, ⟨.wave 2, 0x20800, 0, 0, [], 0, 5⟩),
      (10, ⟨.host, 0x20800, 0, 0, [], 0, 0⟩)] }

/-- The service calls of wave 2 in an outcome. -/
def callsLeft : Host.Outcome State Fault Refusal → List Call
  | .next t => (t.wave 2).service
  | _ => [idleCall]

theorem doubleRequests_answered :
    callsLeft (exec (.setOrClearStep 9) doubleRequests) = [] ∧ (doubleRequests.wave 2).service = [idleCall] := by
  decide +kernel

theorem doubleRequests_served : served doubleRequests 9 12 := by
  unfold served
  decide +kernel

end Sys2Proof.Machine

namespace Sys2Proof.Proofs

open Sys2Proof.Machine Sys2Proof.Claims

/-- Refutes O56: its clause on SET_OR_CLEAR_STEP has no wave change but the one stepped, in every state. A table is a list,
which the statement does not ask to hold a number once: at `doubleRequests` the executive finds the malformed request of
the host behind request 9, looks it up by its number, and so answers the call of wave 2. -/
theorem not_debuggersAndViews : ¬ Obligations.DebuggersAndViews := by
  unfold Obligations.DebuggersAndViews
  rintro ⟨requests, -⟩
  obtain ⟨-, -, -, -, -, steps, -⟩ := requests doubleRequests 9
  obtain ⟨t, next, -, -, others, -⟩ := steps 1 1 1 doubleRequests_served (by decide +kernel) (by decide +kernel)
    (by decide +kernel) (by decide +kernel) (by decide +kernel) (by decide +kernel) (by decide +kernel)
  have kept : (t.wave 2).service = (doubleRequests.wave 2).service := (congrArg Wave.service (others 2 (by decide)) :)
  obtain ⟨answered, asked⟩ := doubleRequests_answered
  rw [next] at answered
  exact absurd ((answered.symm.trans kept).trans asked) (by decide)

end Sys2Proof.Proofs
end

section
/-! Proofs: requests for pre-emption stand, decide and report; discards and drains end (R334-R337, R340). -/

namespace Sys2Proof.Machine

open Sys2Proof.Claims

/-! ## Requests (R334, R335) -/

/-- What the estimator chooses is among the actions, and allowed. -/
theorem State.estimate_allowed (s : State) (g d : Nat) (allow : BitVec 3) :
    s.estimate g d allow ∈ [Preempt.draining, .discarding, .saving] ∧
      (bit allow.toNat 0 = false → s.estimate g d allow ≠ .draining) ∧
      (bit allow.toNat 1 = false ∨ (s.gang g).coll = true → s.estimate g d allow ≠ .discarding) := by
  unfold State.estimate
  dsimp only
  generalize (if s.gangClaims g == 0 then _ else _ : Bool) = soon
  split
  · next drains =>
    refine ⟨by decide, fun barred => ?_, fun _ => by decide⟩
    rw [barred] at drains
    cases drains
  · split
    · next discards =>
      refine ⟨by decide, fun _ => by decide, fun barred => ?_⟩
      rcases barred with barred | barred <;> simp [barred] at discards
    · exact ⟨by decide, fun _ => by decide, fun _ => by decide⟩

/-- A gang with the same blocks waits alike. -/
theorem State.requestWaits_setGang (s : State) (g : Nat) (q : Gang) (blocks : q.blocks = (s.gang g).blocks) :
    (s.setGang g q).requestWaits g = s.requestWaits g := by
  unfold State.requestWaits State.checkpointing State.gangWaves
  rw [State.gang_setGang_same, blocks]
  rfl

/-- What a standing request comes to: it waits, or an action that its allowance permits is chosen (R334). -/
structure Decided (s : State) (g : Nat) (r : Gang) : Prop where
  waits : s.requestWaits g = true → r.preempt = .asked
  acts : s.requestWaits g = false → r.preempt ∈ [Preempt.draining, .discarding, .saving] ∧
    (bit r.allow.toNat 0 = false → r.preempt ≠ .draining) ∧
    (bit r.allow.toNat 1 = false ∨ r.coll = true → r.preempt ≠ .discarding)

/-- A gang's request considered: nothing but its choice changes. -/
theorem State.consider_result (s : State) (g : Nat) : ∃ p,
    s.consider g = s.setGang g { s.gang g with preempt := p } ∧ Decided s g { s.gang g with preempt := p } := by
  unfold State.consider
  dsimp only
  split
  · next waits => exact ⟨_, rfl, fun _ => rfl, fun acts => absurd (waits.symm.trans acts) (by decide)⟩
  · next acts => exact ⟨_, rfl, fun waits => absurd waits acts, fun _ => s.estimate_allowed g _ _⟩

theorem exec_preemptionRequest_unplaced (s : State) {g d : Nat} {allow : BitVec 3} (used : (s.gang g).used = true)
    (off : (s.gang g).placed = false ∨ (s.gang g).retired = true ∧ (s.gang g).preempt = .none) :
    exec (.preemptionRequest g d allow) s = .next { s with reports := s.reports ++ [⟨g, 0, 0, 0, false⟩] } := by
  have unasked : ((s.gang g).preempt == .none && (s.gang g).placed && !(s.gang g).retired) = false := by
    rcases off with placed | ⟨retired, -⟩
    · simp [placed]
    · simp [retired]
  have reports : ((s.gang g).preempt == .none || !(s.gang g).placed) = true := by
    rcases off with placed | ⟨-, none⟩
    · simp [placed]
    · simp [none]
  show execPreemptionRequest g d allow s = _
  unfold execPreemptionRequest
  dsimp only
  rw [used, unasked, reports]
  rfl

section
variable (s : State) {g d : Nat} (allow : BitVec 3) (used : (s.gang g).used = true) (small : d < 2 ^ 32)
  (placed : (s.gang g).placed = true)
include used small placed

/-- The first request for a placed gang. -/
theorem exec_preemptionRequest_first (none : (s.gang g).preempt = .none) (running : (s.gang g).retired = false) :
    exec (.preemptionRequest g d allow) s = .next
      ((s.setGang g { s.gang g with arrived := s.time, due := s.time + d, allow := allow }).consider g) := by
  show execPreemptionRequest g d allow s = _
  unfold execPreemptionRequest
  dsimp only
  rw [used, none, placed, running, Nat.mod_eq_of_lt small]
  rfl

/-- A further request. -/
theorem exec_preemptionRequest_further (stands : (s.gang g).preempt ≠ .none) :
    exec (.preemptionRequest g d allow) s = .next (s.joinRequest g (s.time + d) allow) := by
  have pending : ((s.gang g).preempt == .none) = false := beq_eq_false_iff_ne.mpr stands
  show execPreemptionRequest g d allow s = _
  unfold execPreemptionRequest
  dsimp only
  rw [used, pending, placed, Nat.mod_eq_of_lt small]
  rfl

end

/-- A gang that is set and considered, its blocks unchanged: what is decided is decided of the state before. -/
theorem State.consider_setGang (s : State) {g : Nat} (q : Gang) (blocks : q.blocks = (s.gang g).blocks) : ∃ p,
    ((s.setGang g q).consider g).gang g = { q with preempt := p } ∧ Decided s g { q with preempt := p } := by
  have same := s.requestWaits_setGang g q blocks
  obtain ⟨p, eq, waits, acts⟩ := (s.setGang g q).consider_result g
  rw [State.gang_setGang_same] at eq waits acts
  refine ⟨p, ?_, fun h => waits (same.trans h), fun h => acts (same.trans h)⟩
  rw [eq, State.gang_setGang_same]

/-- No wave, no block and nothing of memory changes. -/
structure KeepsMachine (s t : State) : Prop where
  waves : t.waves = s.waves
  blocks : t.blocks = s.blocks
  mem : t.mem = s.mem

theorem State.consider_keepsMachine (s : State) (g : Nat) : KeepsMachine s (s.consider g) := by
  obtain ⟨p, eq, -⟩ := s.consider_result g
  rw [eq]
  exact ⟨rfl, rfl, rfl⟩

/-- A further request: the deadline becomes the earlier, the allowance the common part, and what has not become a save
is decided anew (R335). -/
structure Joined (s : State) (g due : Nat) (allow : BitVec 3) (r : Gang) : Prop where
  arrived : r.arrived = (s.gang g).arrived
  due : r.due = min (s.gang g).due due
  allow : r.allow = (s.gang g).allow &&& allow
  coll : r.coll = (s.gang g).coll
  goesOn : (s.gang g).preempt = .saving ∨ (s.gang g).retired = true → r.preempt = (s.gang g).preempt
  anew : (s.gang g).preempt ≠ .saving → (s.gang g).retired = false → Decided s g r

theorem State.joinRequest_result (s : State) (g due : Nat) (allow : BitVec 3) :
    Joined s g due allow ((s.joinRequest g due allow).gang g) ∧ KeepsMachine s (s.joinRequest g due allow) := by
  unfold State.joinRequest
  dsimp only
  split
  · next goesOn =>
    rw [State.gang_setGang_same]
    refine ⟨⟨rfl, rfl, rfl, rfl, fun _ => rfl, fun noSave noEnd => ?_⟩, rfl, rfl, rfl⟩
    rw [noEnd, Bool.or_false] at goesOn
    exact absurd (beq_iff_eq.mp goesOn) noSave
  · next anew =>
    have kept := (s.setGang g { s.gang g with
      due := min (s.gang g).due due, allow := (s.gang g).allow &&& allow }).consider_keepsMachine g
    obtain ⟨p, eq, decided⟩ := s.consider_setGang (g := g)
      { s.gang g with due := min (s.gang g).due due, allow := (s.gang g).allow &&& allow } rfl
    rw [eq]
    refine ⟨⟨rfl, rfl, rfl, rfl, fun ends => absurd ?_ anew, fun _ _ => decided⟩, kept.waves, kept.blocks, kept.mem⟩
    rcases ends with saving | retired
    · rw [saving]; rfl
    · rw [retired, Bool.or_true]

/-! ## Reports (R340) -/

theorem State.sendUp_link (s : State) (c : Nat) (m : LinkMsg) :
    ((s.clink c).upPermits ≠ 0 → ((s.sendUp c m).clink c).up = (s.clink c).up ++ [m]) ∧
      ((s.clink c).upPermits = 0 → ((s.sendUp c m).clink c).up = (s.clink c).up ∧
        ((s.sendUp c m).clink c).upHeld = (s.clink c).upHeld ++ [m]) := by
  unfold State.sendUp
  dsimp only
  split
  · next held =>
    rw [State.clink_setClink_same]
    exact ⟨fun permit => absurd (beq_iff_eq.mp held) permit, fun _ => ⟨rfl, rfl⟩⟩
  · next permit =>
    refine ⟨fun _ => congrArg CmdLink.up (State.clink_setClink_same s c _), fun none => absurd (beq_iff_eq.mpr none) permit⟩

/-! ## Discard (R337) -/

/-- Home memory, its marks and the contexts' tables are as in another state. -/
structure SameHome (s t : State) : Prop where
  mem : t.mem = s.mem
  bad : t.bad = s.bad
  contexts : t.contexts = s.contexts

theorem State.sysWrite_bad (s : State) (pa : Nat) (bs : List Byte) :
    (s.sysWrite pa bs).bad = (s.unmark pa bs.length).bad := by
  have pushed : (s.pushBytes pa bs).bad = s.bad :=
    State.foldl_keep State.bad (fun s (p : Byte × Nat) => s.pushByte (pa + p.2) p.1) (fun _ _ => rfl) bs.zipIdx s
  have kept := State.overtake_keep State.bad (fun _ _ _ => rfl) ((s.pushBytes pa bs).unmark pa bs.length) pa bs.length
  refine kept.trans ?_
  unfold State.unmark
  rw [pushed]

theorem SameHome.sysWrite {s t : State} (h : SameHome s t) (pa : Nat) (bs : List Byte) :
    SameHome (s.sysWrite pa bs) (t.sysWrite pa bs) where
  mem := by rw [State.sysWrite_mem, State.sysWrite_mem, h.mem]
  bad := by
    rw [State.sysWrite_bad, State.sysWrite_bad]
    unfold State.unmark
    rw [h.bad]
  contexts := ((congrArg State.contexts (t.sysWrite_onlyWrites pa bs).rest :).trans h.contexts).trans
    (congrArg State.contexts (s.sysWrite_onlyWrites pa bs).rest :).symm

theorem SameHome.homeWord {s t : State} (h : SameHome s t) : t.homeWord = s.homeWord := by
  unfold State.homeWord State.home
  rw [h.mem]

theorem SameHome.walk {s t : State} (h : SameHome s t) : t.walk = s.walk := by
  have words : t.walkWord = s.walkWord := by
    unfold State.walkWord
    rw [h.homeWord, h.bad]
  unfold State.walk
  rw [words]

theorem SameHome.leafPlace {s t : State} (h : SameHome s t) (va n level table : Nat) :
    t.leafPlace va n level table = s.leafPlace va n level table := by
  induction n generalizing level table with
  | zero => rfl
  | succ n ih =>
    unfold State.leafPlace
    rw [h.homeWord]
    dsimp only
    rw [ih]

theorem SameHome.unmapPage {s t : State} (h : SameHome s t) (root va : Nat) :
    SameHome (s.unmapPage root va) (t.unmapPage root va) := by
  unfold State.unmapPage
  rw [h.walk, h.leafPlace]
  split
  · next leaf a _ _ =>
    have written := h.sysWrite a (leBytes 8 0)
    split
    · exact ⟨written.mem, written.bad, written.contexts⟩
    · exact h
  · exact h

theorem SameHome.unmapPages {s t : State} (h : SameHome s t) (ctx : Nat) (vas : List Nat) :
    SameHome (vas.foldl (fun s va => s.unmapPage (s.context ctx).root va) s)
      (vas.foldl (fun s va => s.unmapPage (s.context ctx).root va) t) := by
  induction vas generalizing s t with
  | nil => exact h
  | cons va vas ih =>
    have root : t.context ctx = s.context ctx := congrArg (fun cs : Tab Context => cs.get _ ctx) h.contexts
    rw [List.foldl_cons, List.foldl_cons, root]
    exact ih (h.unmapPage _ va)

/-- The pages of a gang's stack regions, where it has any. -/
def State.mappedPages (s : State) (g : Nat) : List Nat := ((s.gang g).stack.map (s.stackPages g)).getD []

/-- What unmapping does to memory depends on memory, the pages and the context alone. -/
theorem SameHome.unmapStack {s t : State} (h : SameHome s t) {g : Nat}
    (ctx : (t.launch (t.gang g).launch).ctx = (s.launch (s.gang g).launch).ctx)
    (pages : t.mappedPages g = s.mappedPages g) : (t.unmapStack g).mem = (s.unmapStack g).mem := by
  show ((t.mappedPages g).foldl (fun r va => r.unmapPage (r.context (t.launch (t.gang g).launch).ctx).root va) t).mem =
    ((s.mappedPages g).foldl (fun r va => r.unmapPage (r.context (s.launch (s.gang g).launch).ctx).root va) s).mem
  rw [ctx, pages]
  exact (h.unmapPages _ _).mem

theorem State.unmapStack_copies (s : State) (g : Nat) : (s.unmapStack g).copies = s.copies := by
  refine State.foldl_keep State.copies (fun (r : State) va =>
    r.unmapPage (r.context (s.launch (s.gang g).launch).ctx).root va) (fun r va => ?_) (s.mappedPages g) s
  unfold State.unmapPage
  split
  · next leaf a _ _ =>
    split
    · exact (congrArg State.copies (r.sysWrite_onlyWrites a (leBytes 8 0)).rest :)
    · rfl
  · rfl

theorem State.unclaim_copies (s : State) (g : Nat) : (s.unclaim g).copies = s.copies := by
  refine State.foldl_keep State.copies (fun (r : State) c => r.setCell (s.launch (s.gang g).launch) c 0)
    (fun r c => ?_) ((s.gang g).grants.flatMap fun p => s.heldCells (s.launch (s.gang g).launch) p.2) s
  unfold State.setCell
  split
  · exact (congrArg State.copies (State.sysWrite_onlyWrites ..).rest :)
  · rfl

/-- Without grants no cell is handed back. -/
theorem State.unclaim_of_none (s : State) (g : Nat) (none : (s.gang g).grants = []) : s.unclaim g =
    (s.setGang g { s.gang g with grants := [] }).setLaunch (s.gang g).launch { s.launch (s.gang g).launch with
      sched := addStat (addStat (s.launch (s.gang g).launch).sched 14 0) 15 0 } := by
  unfold State.unclaim
  rw [none]
  rfl

theorem schGang_addStat (ws : List (BitVec 64)) (i : Nat) (n : Int) (other : i ≠ 7) : schGang (addStat ws i n) = schGang ws := by
  unfold schGang schWord addStat
  rw [List.getD_eq_getElem?_getD, List.getElem?_set_ne other, ← List.getD_eq_getElem?_getD]

/-- What a gang's waves have seen goes to its launch, and its operations are dropped. -/
def State.passOn (s : State) (g : Nat) : State :=
  let n := (s.gang g).launch
  let v := (s.gangWaves g).foldl (fun v k => mergeView v (s.wave k).view) (s.launch n).view
  ((s.setLaunch n { s.launch n with view := v }).passKnown g (s.gangWaves g)).dropOps g

theorem State.dropGang_eq (s : State) (g : Nat) :
    s.dropGang g = (((s.passOn g).unclaim g).unmapStack g).freeGang g := rfl

theorem State.gang_setLaunch (s : State) (g n : Nat) (l : Launch) : (s.setLaunch n l).gang g = s.gang g := rfl

theorem State.passKnown_launch (s : State) (g : Nat) (ks : List Nat) : ∃ known,
    (s.passKnown g ks).launch (s.gang g).launch = { s.launch (s.gang g).launch with known := known } :=
  ⟨_, State.launch_setLaunch_same ..⟩

theorem State.passOn_launch (s : State) (g : Nat) : ∃ view known,
    (s.passOn g).launch (s.gang g).launch = { s.launch (s.gang g).launch with view := view, known := known } := by
  have seen : ∀ view ks, ∃ known,
      ((s.setLaunch (s.gang g).launch { s.launch (s.gang g).launch with view := view }).passKnown g ks).launch
        (s.gang g).launch = { s.launch (s.gang g).launch with view := view, known := known } := fun view ks => by
    obtain ⟨known, eq⟩ :=
      (s.setLaunch (s.gang g).launch { s.launch (s.gang g).launch with view := view }).passKnown_launch g ks
    rw [State.gang_setLaunch, State.launch_setLaunch_same] at eq
    exact ⟨known, eq⟩
  exact ⟨_, seen _ _⟩

theorem State.passOn_gang (s : State) (g : Nat) : (s.passOn g).gang g = s.gang g := rfl

/-- Home memory, and what unmapping gang `g`'s stack regions goes by, are as in another state. -/
structure SameStack (s t : State) (g : Nat) : Prop where
  home : SameHome s t
  stack : (t.gang g).stack = (s.gang g).stack
  kernel : (t.launch (t.gang g).launch).kernel = (s.launch (s.gang g).launch).kernel
  ctx : (t.launch (t.gang g).launch).ctx = (s.launch (s.gang g).launch).ctx
  gangSize : schGang (t.launch (t.gang g).launch).sched = schGang (s.launch (s.gang g).launch).sched

theorem SameStack.trans {s t u : State} {g : Nat} (h : SameStack s t g) (k : SameStack t u g) : SameStack s u g where
  home := ⟨k.home.mem.trans h.home.mem, k.home.bad.trans h.home.bad, k.home.contexts.trans h.home.contexts⟩
  stack := k.stack.trans h.stack
  kernel := k.kernel.trans h.kernel
  ctx := k.ctx.trans h.ctx
  gangSize := k.gangSize.trans h.gangSize

theorem SameStack.unmapStack {s t : State} {g : Nat} (h : SameStack s t g) : (t.unmapStack g).mem = (s.unmapStack g).mem := by
  refine h.home.unmapStack h.ctx ?_
  unfold State.mappedPages State.stackPages State.stackSize
  rw [h.stack]
  dsimp only
  rw [h.kernel, h.gangSize]

theorem State.passOn_sameStack (s : State) (g : Nat) : SameStack s (s.passOn g) g := by
  obtain ⟨view, known, launch⟩ := s.passOn_launch g
  refine ⟨⟨rfl, rfl, rfl⟩, ?_, ?_, ?_, ?_⟩ <;> rw [State.passOn_gang]
  all_goals rw [launch]

theorem State.unclaim_sameStack (s : State) (g : Nat) (none : (s.gang g).grants = []) : SameStack s (s.unclaim g) g := by
  have gang := (s.unclaim_gang g).gang
  have launch := congrArg (fun t : State => t.launch (s.gang g).launch) (s.unclaim_of_none g none)
  have home := congrArg (fun t : State => (t.mem, t.bad, t.contexts)) (s.unclaim_of_none g none)
  obtain ⟨mem, rest⟩ := Prod.mk.inj home
  obtain ⟨bad, contexts⟩ := Prod.mk.inj rest
  replace launch := launch.trans (State.launch_setLaunch_same _ _ _)
  refine ⟨⟨mem, bad, contexts⟩, ?_, ?_, ?_, ?_⟩ <;> rw [gang] <;> dsimp only
  all_goals rw [launch]
  rw [schGang_addStat _ _ _ (by decide), schGang_addStat _ _ _ (by decide)]

/-- Without grants, memory stands but for the tables that map the stack (R337). -/
theorem State.dropGang_mem (s : State) (g : Nat) (none : (s.gang g).grants = []) :
    (((s.passOn g).unclaim g).unmapStack g).mem = (s.unmapStack g).mem :=
  ((s.passOn_sameStack g).trans (State.unclaim_sameStack _ g (by rw [State.passOn_gang]; exact none))).unmapStack

/-- What the release of a gang's resources leaves of blocks, copies and memory (R142). -/
theorem State.freeGang_leaves (s : State) (g : Nat) :
    (s.freeGang g).blocks = (s.blocks.filter fun p => !(s.gang g).blocks.contains p.1) ∧
      (s.freeGang g).copies = s.copies ∧ (s.freeGang g).mem = s.mem := by
  unfold State.freeGang
  dsimp only
  rw [State.divide_foldl_shape _ fun r => (r.launch (r.gang g).launch).ctx]
  exact ⟨rfl, rfl, rfl⟩

/-- No entry of a table is left under a number whose entries were dropped. -/
theorem Tab.has_filter_not {α : Type} (t : Tab α) (dropped : List Nat) {a : Nat} (h : a ∈ dropped) :
    Tab.has (t.filter fun p => !dropped.contains p.1) a = false := by
  rw [Tab.has, List.any_eq_false]
  intro p hp same
  obtain ⟨-, kept⟩ := List.mem_filter.mp hp
  rw [beq_iff_eq.mp same, List.contains_iff_mem.mpr h] at kept
  cases kept

/-- A gang's operations dropped, its claims returned and its stack unmapped: it is ready to be released. -/
def State.stripGang (s : State) (g : Nat) : State := ((s.passOn g).unclaim g).unmapStack g

theorem State.stripGang_gang (s : State) (g : Nat) :
    Regangs s (s.stripGang g) g { s.gang g with grants := [], stack := none } := by
  have gang := (State.unmapStack_gang ((s.passOn g).unclaim g) g).gang
  rw [(State.unclaim_gang (s.passOn g) g).gang, State.passOn_gang] at gang
  have tables := (State.unclaim_gang (s.passOn g) g).trans (State.unmapStack_gang ((s.passOn g).unclaim g) g)
  exact ⟨gang, tables.blocks, tables.reports⟩

theorem State.stripGang_copies (s : State) (g : Nat) :
    (s.stripGang g).copies = s.copies.filter fun p => !(s.gang g).blocks.contains p.2.block := by
  unfold State.stripGang
  rw [State.unmapStack_copies, State.unclaim_copies]
  rfl

/-- What a gang taken off the machine leaves (R337). -/
structure Dropped (s t : State) (g : Nat) : Prop where
  gang : t.gang g = { s.gang g with grants := [], stack := none, blocks := [], scratch := [], bars := [], convs := [] }
  blocks : ∀ b ∈ (s.gang g).blocks, t.blocks.has b = false
  waves : ∀ b ∈ (s.gang g).blocks, ∀ k ∈ s.wavesOf b, t.waves.has k = false
  copies : ∀ b ∈ (s.gang g).blocks, ∀ p ∈ t.copies, p.2.block ≠ b
  reports : t.reports = s.reports
  mem : (s.gang g).grants = [] → t.mem = (s.unmapStack g).mem

theorem State.dropGang_dropped (s : State) (g : Nat) : Dropped s (s.dropGang g) g := by
  have stripped := s.stripGang_gang g
  obtain ⟨gang, reports, waves⟩ := (s.stripGang g).freeGang_eq g
  obtain ⟨blocks, copies, mem⟩ := (s.stripGang g).freeGang_leaves g
  rw [stripped.gang] at gang waves blocks
  rw [State.wavesOf_of_blocks stripped.blocks] at waves
  rw [State.stripGang_copies] at copies
  rw [State.dropGang_eq]
  constructor
  case gang => exact gang
  case reports => exact reports.trans stripped.reports
  case mem => exact fun none => mem.trans (s.dropGang_mem g none)
  case blocks =>
    intro b hb
    exact (congrArg (fun t : Tab Block => t.has b) blocks).trans (Tab.has_filter_not _ _ hb)
  case waves =>
    intro b hb k hk
    exact (congrArg (fun t : Tab Wave => t.has k) waves).trans
      (Tab.has_filter_not _ _ (List.mem_flatMap.mpr ⟨b, hb, hk⟩))
  case copies =>
    intro b hb p hp same
    obtain ⟨-, kept⟩ := List.mem_filter.mp (copies ▸ hp)
    rw [same, List.contains_iff_mem.mpr hb] at kept
    cases kept

theorem exec_discard (s : State) (g : Nat) (discarding : (s.gang g).preempt = .discarding) (ready : s.gangAtPoint g = true) :
    exec (.discard g) s = .next (((s.report g 2 0).dropGang g).forget g) := by
  show execDiscard g s = _
  unfold execDiscard
  rw [discarding, ready]
  rfl

/-! ## Drains (R336) -/

section
variable (s : State) (g : Nat) (a : BitVec 64) (draining : (s.gang g).preempt = .draining)
include draining

theorem exec_drainEnd_retired (retired : (s.gang g).retired = true) : exec (.drainEnd g a) s =
    .next ((s.report g 1 0).setGang g { s.gang g with preempt := .none }) := by
  show execDrainEnd g a s = _
  unfold execDrainEnd
  dsimp only
  rw [draining, retired]
  rfl

theorem exec_drainEnd_quiet (running : (s.gang g).retired = false) (none : (s.gang g).grants = [])
    (quiet : s.drainQuiet g = true) : exec (.drainEnd g a) s = .next (s.saveGang g false a) := by
  show execDrainEnd g a s = _
  unfold execDrainEnd
  dsimp only
  rw [draining, running, none, quiet]
  rfl

theorem exec_drainEnd_late (running : (s.gang g).retired = false)
    (busy : (s.gang g).grants ≠ [] ∨ s.drainQuiet g = false) (due : (s.gang g).due ≤ s.time) :
    exec (.drainEnd g a) s = .next (s.setGang g { s.gang g with preempt := .saving }) := by
  have holds : ((s.gang g).grants.isEmpty && s.drainQuiet g) = false := by
    rcases busy with some | loud
    · rw [Bool.and_eq_false_iff]
      exact .inl (List.isEmpty_eq_false_iff.mpr some)
    · rw [loud, Bool.and_false]
  show execDrainEnd g a s = _
  unfold execDrainEnd
  dsimp only
  rw [draining, running, holds, if_pos due]
  rfl

end

/-- The words that a report shows (R340). -/
def State.reportWords (s : State) (g : Nat) (r : Report) : List (BitVec 64) :=
  [BitVec.ofNat 64 (4 * r.late.toNat + r.action), BitVec.ofNat 64 r.cycles, r.image,
    BitVec.ofNat 64 ((s.launch (s.gang g).launch).id % 2 ^ 32 * 2 ^ 32 + (s.gang g).index)]

theorem exec_preemptionReport (s : State) (g : Nat) (r : Report) (found : s.reports.find? (fun r => r.gang == g) = some r) :
    exec (.preemptionReport g) s = .next
      ({ s with reports := s.reports.erase r }.sendUp (s.gang g).cluster (.preemptReport (s.reportWords g r))) := by
  show execPreemptionReport g s = _
  unfold execPreemptionReport
  rw [found]
  rfl

/-- What a gang's discard leaves (R337). -/
structure Discarded (s t : State) (g : Nat) : Prop where
  gang : t.gang g = { s.gang g with grants := [], stack := none, blocks := [], scratch := [], bars := [], convs := [],
                                    placed := false, preempt := .none, halted := false, seq := 0, base := 0 }
  blocks : ∀ b ∈ (s.gang g).blocks, t.blocks.has b = false ∧ (∀ k ∈ s.wavesOf b, t.waves.has k = false) ∧
    ∀ p ∈ t.copies, p.2.block ≠ b
  images : ∀ i ∈ t.images, i.key ≠ g
  report : ∃ r ∈ t.reports, r.gang = g ∧ r.action = 2
  mem : (s.gang g).grants = [] → t.mem = (s.unmapStack g).mem

theorem State.forget_gang (s : State) (g : Nat) : (s.forget g).gang g = { s.gang g with
    placed := false, preempt := .none, halted := false, seq := 0, base := 0 } := by
  unfold State.forget
  rw [State.gang_setGang_same]

theorem State.forget_images (s : State) (g : Nat) : ∀ i ∈ (s.forget g).images, i.key ≠ g := by
  intro i hi same
  obtain ⟨-, kept⟩ := List.mem_filter.mp hi
  replace kept : (!(i.key == g)) = true := kept
  rw [beq_iff_eq.mpr same] at kept
  cases kept

theorem State.forget_leaves (s : State) (g : Nat) : (s.forget g).blocks = s.blocks ∧ (s.forget g).waves = s.waves ∧
    (s.forget g).copies = s.copies ∧ (s.forget g).reports = s.reports ∧ (s.forget g).mem = s.mem :=
  ⟨rfl, rfl, rfl, rfl, rfl⟩

theorem State.discarded (s : State) (g : Nat) : Discarded s (((s.report g 2 0).dropGang g).forget g) g := by
  have dropped := (s.report g 2 0).dropGang_dropped g
  obtain ⟨blocks, waves, copies, reports, mem⟩ := ((s.report g 2 0).dropGang g).forget_leaves g
  have same : SameStack s (s.report g 2 0) g := ⟨⟨rfl, rfl, rfl⟩, rfl, rfl, rfl, rfl⟩
  constructor
  case gang =>
    rw [State.forget_gang, dropped.gang]
    rfl
  case blocks =>
    rw [blocks, waves, copies]
    exact fun b hb => ⟨dropped.blocks b hb, dropped.waves b hb, dropped.copies b hb⟩
  case images => exact State.forget_images _ g
  case report =>
    rw [reports, dropped.reports]
    exact ⟨_, List.mem_append_right _ List.mem_cons_self, rfl, rfl⟩
  case mem => exact fun none => (mem.trans (dropped.mem none)).trans same.unmapStack

end Sys2Proof.Machine

namespace Sys2Proof.Proofs

open Sys2Proof.Machine Sys2Proof.Claims

/-- Settles O49: a request's standing is one decision over the gang as it is set; a discard and a report go by what each
step of them leaves. -/
theorem preemptionRequestsAndEnds : Obligations.PreemptionRequestsAndEnds := by
  unfold Obligations.PreemptionRequestsAndEnds
  refine ⟨⟨fun s g d allow used small => ⟨fun off => exec_preemptionRequest_unplaced s used off, fun placed running => ?_⟩,
    fun s g r found => ?_⟩, fun s g discarding ready => ?_, fun s g a draining => ⟨fun retired => ?_, ?_, ?_⟩⟩
  · by_cases none : (s.gang g).preempt = .none
    · have kept := (s.setGang g { s.gang g with
        arrived := s.time, due := s.time + d, allow := allow }).consider_keepsMachine g
      obtain ⟨p, eq, decided⟩ := s.consider_setGang (g := g)
        { s.gang g with arrived := s.time, due := s.time + d, allow := allow } rfl
      refine ⟨_, exec_preemptionRequest_first s allow used small placed none (running none), fun _ => ?_,
        fun stands => absurd none stands, kept.waves, kept.blocks, kept.mem⟩
      rw [eq]
      exact ⟨rfl, rfl, rfl, decided.waits, decided.acts⟩
    · obtain ⟨joined, kept⟩ := s.joinRequest_result g (s.time + d) allow
      refine ⟨_, exec_preemptionRequest_further s allow used small placed none, fun h => absurd h none,
        fun _ => ⟨joined.arrived, joined.due, joined.allow, joined.goesOn, fun noSave noEnd => ?_⟩,
        kept.waves, kept.blocks, kept.mem⟩
      have decided := joined.anew noSave noEnd
      exact joined.coll ▸ ⟨decided.waits, decided.acts⟩
  · have shape := State.sendUp_shape { s with reports := s.reports.erase r } (s.gang g).cluster
      (.preemptReport (s.reportWords g r))
    have link := State.sendUp_link { s with reports := s.reports.erase r } (s.gang g).cluster
      (.preemptReport (s.reportWords g r))
    exact ⟨_, exec_preemptionReport s g r found, (congrArg State.reports shape :),
      ⟨s.reportWords g r, link.1, link.2, rfl, rfl, rfl⟩, (congrArg State.waves shape :), (congrArg State.mem shape :)⟩
  · obtain ⟨gang, blocks, images, report, mem⟩ := s.discarded g
    refine ⟨_, exec_discard s g discarding ready, ?_⟩
    dsimp only
    rw [gang]
    exact ⟨rfl, rfl, rfl, rfl, rfl, blocks, rfl, rfl, images, report, mem⟩
  · refine ⟨_, exec_drainEnd_retired s g a draining retired, ?_, ⟨_, List.mem_append_right _ List.mem_cons_self, rfl, rfl⟩,
      rfl, rfl⟩
    rw [State.gang_setGang_same]
  · exact fun running none quiet => exec_drainEnd_quiet s g a draining running none quiet
  · exact fun running busy due => exec_drainEnd_late s g a draining running busy due

end Sys2Proof.Proofs
end

section
/-! Proofs: COLLs capture, match and end (R361, R362, R368-R371). -/

namespace Sys2Proof.Machine

open Sys2Proof.Claims

/-! ## Capture (R370) -/

theorem State.collHits_shape (s : State) (o : CollOp) (k : Nat) (rs : List Span) :
    (s.collHits o k rs).1 = { s with hits := (s.collHits o k rs).1.hits } := s.hitUnit_shape ..

/-- Messages that leave on links change nothing else. -/
theorem State.sendMsg_foldl_shape (s : State) (link : State → Nat → Nat) (vc kind : Nat) (bytes : List Byte) (is : List Nat) :
    is.foldl (fun r i => r.sendMsg (link r i) vc kind bytes) s =
      { s with glinks := (is.foldl (fun r i => r.sendMsg (link r i) vc kind bytes) s).glinks } := by
  induction is generalizing s with
  | nil => rfl
  | cons i is ih => rw [List.foldl_cons, ih]; rfl

theorem State.announce_shape (s : State) (k p rank : Nat) (bs : List Byte) : s.announce k p rank bs =
    { s with collBox := (s.announce k p rank bs).collBox, glinks := (s.announce k p rank bs).glinks } := by
  unfold State.announce
  dsimp only
  rw [State.sendMsg_foldl_shape _ fun r i => r.route (tagMisc (k * 256 + i))]
  split <;> rfl

/-! ## Messages (R361, R362) -/

theorem exec_collectiveMessage (s : State) {link : Nat} (handle rank seq : Nat) (cmd : CollCmd) (within : link < 18)
    (trained : (s.glink link).training = false) : exec (.collectiveMessage link handle rank seq cmd) s = .next
      (let t := s.acceptMsg link (flitsOf (24 + cmd.data.length))
       if s.collBox.any fun m => m.handle == handle && m.rank == rank && m.seq == seq then t
       else { t with collBox := s.collBox ++ [⟨handle, rank, seq, cmd, s.farTold fun _ => true⟩] }) := by
  have up : s.linkUp link = true := by simp [State.linkUp, within, trained]
  show execCollectiveMessage link handle rank seq cmd s = _
  unfold execCollectiveMessage
  rw [up]
  rfl

theorem State.acceptMsg_link (s : State) (link n : Nat) :
    ((s.acceptMsg link n).glink link).expect = (s.glink link).expect + BitVec.ofNat 8 n ∧
      ((s.acceptMsg link n).glink link).control = some (controlFlit 1 ((s.glink link).expect + BitVec.ofNat 8 n - 1)) := by
  unfold State.acceptMsg
  dsimp only
  rw [State.glink_setGlink_same]
  exact ⟨rfl, rfl⟩

/-- A message of a member is there already. -/
theorem any_message_iff (ms : List CollMsg) (handle rank seq : Nat) :
    (ms.any fun m => m.handle == handle && m.rank == rank && m.seq == seq) = true ↔
      ∃ m ∈ ms, m.handle = handle ∧ m.rank = rank ∧ m.seq = seq := by
  simp [List.any_eq_true, and_assoc]

/-! ## Ends (R370, R371) -/

/-- A command of another member is a COLL's (R368). -/
def CollOp.matchesCmd (o : CollOp) (x : CollMsg) : Bool :=
  !(x.cmd.op.toNat != o.op || x.cmd.rop != collRop o.ctl.toNat || x.cmd.fmt.toNat != collFmt o.ctl.toNat || x.cmd.n != o.n)

theorem CollOp.matchesCmd_iff (o : CollOp) (x : CollMsg) : o.matchesCmd x = true ↔ x.cmd.op.toNat = o.op ∧
    x.cmd.rop = collRop o.ctl.toNat ∧ x.cmd.fmt.toNat = collFmt o.ctl.toNat ∧ x.cmd.n = o.n := by
  simp [CollOp.matchesCmd, and_assoc]

section
variable {s : State} {k : Nat} (present : s.colls.has k = true) {m : Comm} {src : List Byte} {ms : List CollMsg}
  (member : s.memberOf (s.collOp k) = some m) (captured : (s.collOp k).src = some src)
  (arrived : s.matched (s.collOp k) m.rank m.members.length = some ms)
include present member captured arrived

theorem exec_collCompletion_differ (differ : ∃ x ∈ ms, (s.collOp k).matchesCmd x = false) :
    exec (.collCompletion k) s = .next (s.endColl k 2 2 0) := by
  obtain ⟨x, hx, other⟩ := differ
  have some : (ms.any fun x => x.cmd.op.toNat != (s.collOp k).op || x.cmd.rop != collRop (s.collOp k).ctl.toNat ||
      x.cmd.fmt.toNat != collFmt (s.collOp k).ctl.toNat || x.cmd.n != (s.collOp k).n) = true :=
    List.any_eq_true.mpr ⟨x, hx, Bool.not_eq_eq_eq_not.mp other⟩
  show execCollCompletion k s = _
  unfold execCollCompletion
  dsimp only
  rw [member]
  dsimp only
  rw [present, captured, arrived]
  dsimp only
  rw [if_pos some]

theorem exec_collCompletion_alike (alike : ∀ x ∈ ms, (s.collOp k).matchesCmd x = true)
    (apart : (s.collOp k).dbuf ≠ (s.collOp k).sbuf) :
    let o := s.collOp k
    let c := o.ctl.toNat
    let ys := collResult o.op (collRop c) (collFmt c) o.n m.rank ((List.range m.members.length).map fun r =>
      if r = m.rank then src else ((ms.find? fun x => x.rank == r).map fun x => x.cmd.data).getD [])
    let len := ys.length * (fmtWidth (collFmt c) / 8)
    exec (.collCompletion k) s = .next (((((s.writeScratch o.block o.dbuf (collDofs c)
      (ys.flatMap fun y => leBytes (fmtWidth (collFmt c) / 8) y) none).collHits o k
      [⟨(scratchPtr o.dbuf (collDofs c)).toNat, len, true⟩]).1).unmarkScratch o.block o.dbuf (collDofs c)
      len).endColl k 0 0 ys.length) := by
  have none : ¬ (ms.any fun x => x.cmd.op.toNat != (s.collOp k).op || x.cmd.rop != collRop (s.collOp k).ctl.toNat ||
      x.cmd.fmt.toNat != collFmt (s.collOp k).ctl.toNat || x.cmd.n != (s.collOp k).n) = true := fun any => by
    obtain ⟨x, hx, other⟩ := List.any_eq_true.mp any
    have same := alike x hx
    rw [CollOp.matchesCmd, other] at same
    cases same
  have ranks : (fun r => if (r == m.rank) = true then src else
      ((ms.find? fun x => x.rank == r).map fun x => x.cmd.data).getD []) = fun r => if r = m.rank then src else
      ((ms.find? fun x => x.rank == r).map fun x => x.cmd.data).getD [] := by
    simp only [beq_iff_eq]
  have disjoint : ((s.collOp k).dbuf == (s.collOp k).sbuf) = false := beq_eq_false_iff_ne.mpr apart
  intro o c ys len
  show execCollCompletion k s = _
  unfold execCollCompletion
  dsimp only
  rw [member]
  dsimp only
  rw [present, captured, arrived]
  dsimp only
  rw [if_neg none, ranks, disjoint]
  rfl

end

/-- A COLL that ends before its token is written: it is gone, the messages that no member needs are used up, and its wave
has heard what the others published. -/
def State.dropColl (s : State) (k : Nat) : State :=
  let o := s.collOp k
  ({ s with
    colls := s.colls.del k
    collBox := if s.needed k then s.collBox
      else s.collBox.filter fun m => !(m.handle == o.handle.toNat && m.seq == o.seq) }).hear o.wave (s.collTold o)

/-- The word of a COLL's token (R370). -/
def CollOp.tokenWord (o : CollOp) (st err count : Nat) : BitVec 64 :=
  BitVec.ofNat 64 (st * 2 ^ 62 + o.se * 2 ^ 48 + err * 2 ^ 40 + count % 2 ^ 32)

theorem State.endColl_eq (s : State) (k st err count : Nat) : s.endColl k st err count =
    ((s.dropColl k).writeToken (s.collOp k).wave .coll k (s.collOp k).token
      ((s.collOp k).tokenWord st err count)).engineArrive (s.collOp k).block (s.collOp k).ctl [] (s.collTold (s.collOp k)) :=
  rfl

theorem State.dropColl_frame (s : State) (k : Nat) : (s.dropColl k).colls = s.colls.del k ∧ (s.dropColl k).mem = s.mem := by
  unfold State.dropColl
  dsimp only
  rw [State.hear_shape]
  exact ⟨rfl, rfl⟩

theorem State.dropColl_wave (s : State) (k : Nat) : ∃ ns, (s.dropColl k).wave (s.collOp k).wave =
    { s.wave (s.collOp k).wave with heard := ns } :=
  ⟨_, State.hear_wave ..⟩

theorem State.dropColl_tokenDue (s : State) (k : Nat) (due : tokenDue s (s.collOp k).wave .coll k) :
    tokenDue (s.dropColl k) (s.collOp k).wave .coll k := by
  obtain ⟨ns, wave⟩ := s.dropColl_wave k
  unfold tokenDue
  rw [wave]
  exact due

theorem State.endColl_frame (s : State) (k st err count : Nat) :
    (s.endColl k st err count).colls = s.colls.del k ∧ (s.endColl k st err count).mem = s.mem := by
  rw [State.endColl_eq, State.engineArrive_shape, State.writeToken_shape]
  exact s.dropColl_frame k

theorem State.endColl_token (s : State) (k st err count : Nat) (due : tokenDue s (s.collOp k).wave .coll k) :
    ((s.endColl k st err count).wave (s.collOp k).wave).unif.get 0 (s.collOp k).token =
      (s.collOp k).tokenWord st err count := by
  rw [State.endColl_eq, State.engineArrive_shape]
  exact State.writeToken_unif _ _ _ (s.dropColl_tokenDue k due)

end Sys2Proof.Machine

namespace Sys2Proof.Proofs

open Sys2Proof.Machine Sys2Proof.Claims

/-- A capture reads the source once, and leaves memory, waves and blocks. -/
theorem collCaptures (s : State) (k : Nat) (present : s.colls.has k = true) (unread : (s.collOp k).src = none) :
    let o := s.collOp k
    Answers (.collCapture k) s fun t =>
      let p := ((s.memberOf o).map fun c => c.members.length).getD 1
      (t.collOp k).src = some ((List.range (collSrcLen o.op p o.n * (fmtWidth (collFmt o.ctl.toNat) / 8))).map fun i =>
        s.scratchEngine o.stale o.block o.sbuf (collSofs o.ctl.toNat + i)) ∧
      t.mem = s.mem ∧ t.waves = s.waves ∧ t.blocks = s.blocks := by
  intro o
  refine ⟨_, congrArg Host.Outcome.next (if_neg ?_), ?_⟩
  · show ¬ (!s.colls.has k || (s.collOp k).src.isSome) = true
    rw [present, unread]
    decide
  · dsimp only
    rw [State.announce_shape, State.collHits_shape]
    exact ⟨congrArg CollOp.src (State.collOp_setColl_same ..), rfl, rfl, rfl⟩

/-- Settles O48: a capture's and an end's parts each leave the rest; a completion goes by whether the commands agree. -/
theorem collsCaptureAndEnd : Obligations.CollsCaptureAndEnd := by
  unfold Obligations.CollsCaptureAndEnd
  refine ⟨fun s k present => ⟨collCaptures s k present, fun missing => ?_, fun m src ms member captured arrived =>
    ⟨fun differ => ?_, fun alike apart => ?_⟩⟩, fun s link handle rank seq cmd within trained => ?_,
    fun s k st err count => ⟨?_, (s.endColl_frame k st err count).2, s.endColl_token k st err count⟩⟩
  · refine congrArg Host.Outcome.next (if_pos ?_)
    have missed : ((s.memberOf (s.collOp k)).any fun m =>
        (s.matched (s.collOp k) m.rank m.members.length).isSome) = false := by
      cases member : s.memberOf (s.collOp k) with
      | none => rfl
      | some m => exact congrArg Option.isSome (missing m member)
    show (s.colls.has k && !_) = true
    rw [present, missed]
    rfl
  · refine exec_collCompletion_differ present member captured arrived ?_
    obtain ⟨x, hx, other⟩ := differ
    exact ⟨x, hx, Bool.eq_false_iff.mpr fun same => other ((CollOp.matchesCmd_iff _ x).mp same)⟩
  · exact exec_collCompletion_alike present member captured arrived
      (fun x hx => (CollOp.matchesCmd_iff _ x).mpr (alike x hx)) apart
  · obtain ⟨expect, control⟩ := s.acceptMsg_link link (flitsOf (24 + cmd.data.length))
    refine ⟨_, exec_collectiveMessage s handle rank seq cmd within trained, ?_⟩
    dsimp only
    split
    · next known => exact ⟨expect, control, (if_pos ((any_message_iff ..).mp known)).symm⟩
    · next new => exact ⟨expect, control, (if_neg fun known => new ((any_message_iff ..).mpr known)).symm⟩
  · rw [(s.endColl_frame k st err count).1]
    exact Tab.has_del_same ..

end Sys2Proof.Proofs
end

section
/-! Proofs: packets start in their turn and complete (R237, R378, R385). -/

namespace Sys2Proof.Machine

open Sys2Proof.Claims

/-! ## Packets -/

theorem State.onPacket_same (s : State) (qid i : Nat) (f : Packet64 → Packet64) {p : Packet64}
    (here : (s.queue qid).packets[i]? = some p) : ((s.onPacket qid i f).queue qid).packets[i]? = some (f p) := by
  unfold State.onPacket
  dsimp only
  rw [State.queue_setQueue_same]
  simp [here]

theorem State.completePacket_frame (s : State) (qid i : Nat) :
    (s.completePacket qid i).queues = (s.onPacket qid i fun p => { p with started := true, done := true }).queues ∧
      (s.completePacket qid i).mem = s.mem := by
  unfold State.completePacket
  dsimp only
  split
  · rw [State.raiseVector_shape]
    exact ⟨rfl, rfl⟩
  · exact ⟨rfl, rfl⟩

theorem State.completePacket_same (s : State) (qid i : Nat) {p : Packet64}
    (here : (s.queue qid).packets[i]? = some p) :
    ((s.completePacket qid i).queue qid).packets[i]? = some { p with started := true, done := true } := by
  have queues := (s.completePacket_frame qid i).1
  have queue : (s.completePacket qid i).queue qid =
      (s.onPacket qid i fun p => { p with started := true, done := true }).queue qid :=
    congrArg (fun t : Tab Queue => t.get Queue.absent qid) queues
  rw [queue]
  exact s.onPacket_same qid i _ here

/-- A packet without INT raises nothing (R385). -/
theorem State.completePacket_silent (s : State) (qid i : Nat) {p : Packet64}
    (here : (s.queue qid).packets[i]? = some p) (silent : pkInt p.words = false) : (s.completePacket qid i).msi = s.msi := by
  unfold State.completePacket
  dsimp only
  rw [here, Option.map_some, Option.getD_some, silent]
  rfl

/-- A packet with INT raises its queue's vector (R385). -/
theorem State.completePacket_raises (s : State) (qid i : Nat) {p : Packet64}
    (here : (s.queue qid).packets[i]? = some p) (int : pkInt p.words = true) (within : (s.queue qid).vector < 2048)
    (unmasked : s.masks.get true (s.queue qid).vector = false) :
    (s.completePacket qid i).msi = s.msi ++ [(s.queue qid).vector] := by
  unfold State.completePacket
  dsimp only
  rw [here, Option.map_some, Option.getD_some, int]
  exact congrArg State.msi ((if_neg (Nat.not_le.mpr within)).trans (if_neg (by
    show ¬ s.masks.get true _ = true
    rw [unmasked]
    decide)))

theorem State.passWait_same (s : State) (qid i : Nat) (p : Packet64) {x : Packet64}
    (here : (s.queue qid).packets[i]? = some x) :
    ((s.passWait qid i p).queue qid).packets[i]? = some { x with started := true, done := true } := by
  refine State.completePacket_same _ qid i ?_
  rw [State.queue_setQueue_same]
  exact here

theorem State.passWait_mem (s : State) (qid i : Nat) (p : Packet64) : (s.passWait qid i p).mem = s.mem :=
  (State.completePacket_frame _ qid i).2

/-! ## LAUNCH -/

theorem State.zeroMap_onlyWrites (s : State) (l : Launch) : OnlyWrites s (s.zeroMap l) :=
  onlyWrites_foldl (fun (s : State) (p : Nat × List Byte) => s.ctxPiece l.ctx p.1 p.2 true)
    (fun s p => s.ctxPiece_onlyWrites l.ctx p.1 p.2 true) _ s

/-- One more gang of a launch, unplaced. -/
def State.addGang (s : State) (n i : Nat) : State :=
  let t := s.fresh.setGang s.nextOp { Gang.absent with used := true, launch := n, index := i, retired := false }
  t.setLaunch n { s.launch n with gangs := (s.launch n).gangs ++ [s.nextOp] }

theorem State.addGang_launch (s : State) (n i : Nat) :
    (s.addGang n i).launch n = { s.launch n with gangs := (s.launch n).gangs ++ [s.nextOp] } :=
  State.launch_setLaunch_same ..

theorem State.makeGangs_succ (s : State) (n count : Nat) :
    s.makeGangs n (count + 1) = (s.makeGangs n count).addGang n count := by
  unfold State.makeGangs
  rw [List.range_succ, List.foldl_append]
  rfl

/-- A launch whose gangs are created has as many more as it asks for; queues are as they were. -/
theorem State.makeGangs_result (s : State) (n count : Nat) :
    ((s.makeGangs n count).launch n).gangs.length = (s.launch n).gangs.length + count ∧
      ((s.makeGangs n count).launch n).guarded = (s.launch n).guarded ∧ (s.makeGangs n count).queues = s.queues := by
  induction count with
  | zero => exact ⟨rfl, rfl, rfl⟩
  | succ count ih =>
    obtain ⟨gangs, guarded, queues⟩ := ih
    rw [State.makeGangs_succ, State.addGang_launch]
    refine ⟨?_, guarded, queues⟩
    rw [List.length_append, gangs]
    rfl

/-- A LAUNCH begins (R378). -/
def State.begun (s : State) (qid i n : Nat) (p : Packet64) : State :=
  let l := s.launch n
  let t := (s.onPacket qid i fun p => { p with started := true }).zeroMap l
  let known := (t.queue qid).known
  (t.setLaunch n { l with
    kernel := s.readKernel l.ctx l.packet
    args := (s.ctxWords l.ctx (schWord p.words 2) (s.readKernel l.ctx l.packet).params.length).getD []
    guarded := true, before := known, known := known }).makeGangs n l.count

theorem exec_launch (s : State) {qid i n : Nat} {p : Packet64} (turn : (s.queue qid).nextPacket = some (i, p))
    (launch : p.launch = some n) (running : (s.launch n).ended = false) :
    exec (.launch qid) s = .next (s.begun qid i n p) := by
  show execLaunch qid s = _
  unfold execLaunch
  rw [turn]
  dsimp only
  rw [launch]
  exact congrArg _ (if_neg (Bool.eq_false_iff.mp running))

/-- A LAUNCH's packet has started, and its launch has its gangs and guards its map. -/
theorem State.begun_result (s : State) (qid i n : Nat) (p : Packet64) (here : (s.queue qid).packets[i]? = some p) :
    ((s.begun qid i n p).launch n).guarded = true ∧
      ((s.begun qid i n p).launch n).gangs.length = (s.launch n).gangs.length + (s.launch n).count ∧
      ((s.begun qid i n p).queue qid).packets[i]? = some { p with started := true } := by
  unfold State.begun
  dsimp only
  generalize hl : ({ s.launch n with
    kernel := s.readKernel (s.launch n).ctx (s.launch n).packet, args := _, guarded := true, before := _, known := _ } :
    Launch) = l
  obtain ⟨gangs, guarded, queues⟩ := State.makeGangs_result
    (((s.onPacket qid i fun p => { p with started := true }).zeroMap (s.launch n)).setLaunch n l) n (s.launch n).count
  rw [State.launch_setLaunch_same] at gangs guarded
  have queue := congrArg (fun t : Tab Queue => t.get Queue.absent qid) queues
  have kept := ((s.onPacket qid i fun p => { p with started := true }).zeroMap_onlyWrites (s.launch n)).queue qid
  refine ⟨guarded.trans (by rw [← hl]), gangs.trans (by rw [← hl]), ?_⟩
  refine (congrArg (fun q : Queue => q.packets[i]?) (queue.trans kept)).trans ?_
  exact s.onPacket_same qid i _ here

/-! ## Turns -/

section
variable (s : State) {qid i : Nat} {p : Packet64} (turn : (s.queue qid).nextPacket = some (i, p))
include turn

theorem exec_wait (wait : pkType p.words = 2) : exec (.wait qid) s = .next
    (if s.waitMet (s.queue qid) p then s.passWait qid i p else s.onPacket qid i fun p => { p with started := true }) := by
  show execWait qid s = _
  unfold execWait
  rw [turn]
  dsimp only
  rw [wait]
  rfl

theorem exec_signal (signal : pkType p.words = 3) :
    let q := s.queue qid
    let ls := (q.packets.take i).filterMap fun x => x.launch.map s.launch
    let r := s.publishLaunch (ls.foldl (fun v l => mergeView v l.view) [])
    let ns := ls.foldl (fun ns l => joinKnown ns l.known) (joinKnown r.2 q.known)
    exec (.signal qid) s = .next
      ((r.1.signalWrite q.ctx (schWord p.words 1) (schWord p.words 2) ns).completePacket qid i) := by
  intro q ls r ns
  show execSignal qid s = _
  unfold execSignal
  rw [turn]
  dsimp only
  rw [signal]
  rfl

theorem exec_marker (marker : pkType p.words = 4) : exec (.marker qid) s = .next
    ((s.ctxWrite (s.queue qid).ctx (schWord p.words 1)
      (leBytes 8 (s.coreTime (256 + s.sched)) ++ leBytes 8 (schWord p.words 2))).completePacket qid i) := by
  show execMarker qid s = _
  unfold execMarker
  rw [turn]
  dsimp only
  rw [marker]
  rfl

end

theorem exec_waitPoll (s : State) {qid i : Nat} {p : Packet64} (waits : (s.queue qid).waiting = some (i, p)) :
    exec (.waitPoll qid) s = .next (if s.waitMet (s.queue qid) p then s.passWait qid i p else s) := by
  show execWaitPoll qid s = _
  unfold execWaitPoll
  rw [waits]

/-- The WAIT that holds a queue has started and is not done. -/
theorem Queue.waiting_pending (q : Queue) {i : Nat} {p : Packet64} (waits : q.waiting = some (i, p)) :
    p.started = true ∧ p.done = false := by
  obtain ⟨⟨x, j⟩, found, eq⟩ := Option.map_eq_some_iff.mp waits
  have holds := List.find?_some found
  obtain ⟨-, rfl⟩ := Prod.mk.inj eq
  simp only [Bool.and_eq_true, Bool.not_eq_true'] at holds
  exact holds.1

end Sys2Proof.Machine

namespace Sys2Proof.Proofs

open Sys2Proof.Machine Sys2Proof.Claims

/-- Settles O52: each packet's command is its turn's, and a packet that is changed stands in its place. -/
theorem packetsStartAndComplete : Obligations.PacketsStartAndComplete := by
  unfold Obligations.PacketsStartAndComplete
  refine fun s qid i p => ⟨fun turn here => ⟨fun n launch running => ?_, fun wait => ?_, fun signal => exec_signal s turn signal,
    fun marker => exec_marker s turn marker⟩, fun x here => ?_, fun waits here => ?_⟩
  · obtain ⟨guarded, gangs, packet⟩ := s.begun_result qid i n p here
    exact ⟨_, exec_launch s turn launch running, guarded, gangs, _, packet, rfl, rfl, rfl⟩
  · refine ⟨_, exec_wait s turn wait, ?_⟩
    split
    · next met => exact ⟨s.passWait_mem qid i p, _, s.passWait_same qid i p here, rfl, by rw [met, Bool.or_true]⟩
    · next unmet =>
      exact ⟨rfl, _, s.onPacket_same qid i _ here, rfl, by rw [Bool.eq_false_iff.mpr unmet, Bool.or_false]⟩
  · exact ⟨_, s.completePacket_same qid i here, rfl, (s.completePacket_frame qid i).2, s.completePacket_silent qid i here,
      s.completePacket_raises qid i here⟩
  · obtain ⟨started, pending⟩ := (s.queue qid).waiting_pending waits
    refine ⟨_, exec_waitPoll s waits, ?_⟩
    split
    · next met => exact ⟨s.passWait_mem qid i p, _, s.passWait_same qid i p here, rfl, met.symm⟩
    · next unmet => exact ⟨rfl, p, here, started, pending.trans (Bool.eq_false_iff.mpr unmet).symm⟩

end Sys2Proof.Proofs
end

section
/-! Proofs: doorbells move the write index, and entries are accepted in order or halt their queue (R377-R382). -/

namespace Sys2Proof.Machine

open Sys2Proof.Claims

/-! ## Acceptance (R378, R379, R382) -/

/-- The control cores, which of them is the scheduler's, and the open requests are as they were. -/
structure SameScheduler (s t : State) : Prop where
  ctls : t.ctls = s.ctls
  sched : t.sched = s.sched
  reqs : t.reqs = s.reqs

theorem SameScheduler.trans {s t u : State} (h : SameScheduler s t) (g : SameScheduler t u) : SameScheduler s u :=
  ⟨g.ctls.trans h.ctls, g.sched.trans h.sched, g.reqs.trans h.reqs⟩

theorem OnlyWrites.sameScheduler {s t : State} (h : OnlyWrites s t) : SameScheduler s t :=
  ⟨(congrArg State.ctls h.rest :), (congrArg State.sched h.rest :), h.keepsDesk.reqs⟩

/-- The wave of the scheduler's core. -/
def State.schedWave (s : State) : Nat := (s.ctl s.sched).wave

theorem SameScheduler.schedWave {s t : State} (h : SameScheduler s t) : t.schedWave = s.schedWave := by
  unfold State.schedWave State.ctl
  rw [h.ctls, h.sched]

/-- The executive's table pages for a launch's ring: no queue changes, and no id is given. -/
theorem State.mapRing_queues (s : State) (ctx id : Nat) : (s.mapRing ctx id).1.queues = s.queues ∧
    SameScheduler s (s.mapRing ctx id).1 ∧ SameWaves s (s.mapRing ctx id).1 := by
  have maps (root va what : Nat) (leaf : Nat → Nat) := (s.mapOwn_onlyMaps root va what leaf).1
  exact ⟨(maps _ _ _ _).queues, ⟨(congrArg State.ctls (maps _ _ _ _).rest :), (congrArg State.sched (maps _ _ _ _).rest :),
    (maps _ _ _ _).keepsDesk.reqs⟩, (maps _ _ _ _).waves⟩

/-- What an accepted LAUNCH brings: its launch, whose id is the next, and which the queue shows. -/
structure NewLaunch (s : State) (qid : Nat) (ws : List (BitVec 64)) (t : State) (key : Nat) : Prop where
  id : (t.launch key).id = s.nextId
  ended : (t.launch key).ended = false
  count : (t.launch key).count = pkArg ws
  pid : (t.launch key).pid = (s.queue qid).pid
  nextId : t.nextId = s.nextId + 1
  queue : t.queue qid = { s.queue qid with lastid := s.nextId }
  scheduler : SameScheduler s t
  waves : SameWaves s t

theorem State.newLaunch_eq (s : State) (qid : Nat) (ws : List (BitVec 64)) (t0 : Nat) : ∃ l : Launch, ∃ at0 bs,
    s.newLaunch qid ws t0 = (({ (s.fresh.mapRing (s.queue qid).ctx s.nextId).1 with
      nextId := s.nextId + 1 }.setLaunch s.nextOp l |>.setQueue qid
        { (s.fresh.mapRing (s.queue qid).ctx s.nextId).1.queue qid with lastid := s.nextId }).ctxWrite
          (s.queue qid).ctx at0 bs, s.nextOp) ∧
      l.id = s.nextId ∧ l.ended = false ∧ l.count = pkArg ws ∧ l.pid = (s.queue qid).pid :=
  ⟨_, _, _, rfl, rfl, rfl, rfl, rfl⟩

theorem State.newLaunch_result (s : State) (qid : Nat) (ws : List (BitVec 64)) (t0 : Nat) :
    NewLaunch s qid ws (s.newLaunch qid ws t0).1 (s.newLaunch qid ws t0).2 := by
  obtain ⟨queues, scheduler, waves⟩ := s.fresh.mapRing_queues (s.queue qid).ctx s.nextId
  have queue : (s.fresh.mapRing (s.queue qid).ctx s.nextId).1.queue qid = s.queue qid :=
    congrArg (fun t : Tab Queue => t.get Queue.absent qid) queues
  obtain ⟨l, at0, bs, eq, id, ended, count, pid⟩ := s.newLaunch_eq qid ws t0
  rw [eq, queue]
  dsimp only
  generalize hu : (State.setQueue _ qid { s.queue qid with lastid := s.nextId }) = u
  have launch : u.launch s.nextOp = l := by
    rw [← hu]
    exact State.launch_setLaunch_same ..
  have written := u.ctxWrite_onlyWrites (s.queue qid).ctx at0 bs
  have entered : SameScheduler s u := hu ▸ ⟨scheduler.ctls, scheduler.sched, scheduler.reqs⟩
  refine ⟨?_, ?_, ?_, ?_, ?_, ?_, entered.trans written.sameScheduler, fun k => ?_⟩
  · rw [written.launch, launch, id]
  · rw [written.launch, launch, ended]
  · rw [written.launch, launch, count]
  · rw [written.launch, launch, pid]
  · rw [(congrArg State.nextId written.rest :), ← hu]
    rfl
  · rw [written.queue, ← hu, State.queue_setQueue_same]
  · refine SameWave.trans ?_ (written.waves k)
    rw [← hu]
    exact waves k

/-- The entry at a queue's read index, and the check that it fails (R379). -/
def State.entryCheck (s : State) (qid : Nat) : Option Nat × List (BitVec 64) :=
  let q := s.queue qid
  match s.ctxWords q.ctx (q.base + 64 * (q.ridx % 2 ^ q.log2n)) 8 with
  | some ws => (s.packetError q ws, ws)
  | none => (some 1, [])

/-- An accepted entry, its launch made, enters the queue. -/
def State.enterPacket (s : State) (qid : Nat) (p : Packet64) : State :=
  let q := s.queue qid
  (s.setQueue qid { q with
    ridx := q.ridx + 1, bells := q.bells.filter fun b => decide (q.ridx + 1 < b.1), packets := q.packets ++ [p] }).putDesc qid

/-- What is done about an entry, by the check that it fails. -/
def State.takeEntry (s : State) (qid : Nat) (checked : Option Nat × List (BitVec 64)) : State :=
  let q := s.queue qid
  let addr := q.base + 64 * (q.ridx % 2 ^ q.log2n)
  let t0 := ((q.bells.find? fun b => decide (q.ridx < b.1)).map Prod.snd).getD s.time
  match checked with
  | (some r, _) => (((s.packetTrap r addr).setQueue qid { q with state := 1 }).putDesc qid).signalRecord qid 1 r addr 0
  | (none, ws) =>
    let r : State × Option Nat := if pkType ws == 1 then (let x := s.newLaunch qid ws t0; (x.1, some x.2)) else (s, none)
    r.1.enterPacket qid ⟨addr, ws, t0, false, false, r.2⟩

theorem State.acceptOne_eq (s : State) (qid : Nat) : s.acceptOne qid = s.takeEntry qid (s.entryCheck qid) := rfl

theorem State.acceptOne_halts (s : State) (qid : Nat) {r : Nat} {ws : List (BitVec 64)}
    (fails : s.entryCheck qid = (some r, ws)) : ∃ addr, s.acceptOne qid =
      (((s.packetTrap r addr).setQueue qid { s.queue qid with state := 1 }).putDesc qid).signalRecord qid 1 r addr 0 := by
  rw [State.acceptOne_eq, fails]
  exact ⟨_, rfl⟩

theorem State.acceptOne_enters (s : State) (qid : Nat) {ws : List (BitVec 64)} (passes : s.entryCheck qid = (none, ws)) :
    ∃ addr t0, s.acceptOne qid = if pkType ws = 1
      then (s.newLaunch qid ws t0).1.enterPacket qid ⟨addr, ws, t0, false, false, some (s.newLaunch qid ws t0).2⟩
      else s.enterPacket qid ⟨addr, ws, t0, false, false, none⟩ := by
  rw [State.acceptOne_eq, passes]
  refine ⟨(s.queue qid).base + 64 * ((s.queue qid).ridx % 2 ^ (s.queue qid).log2n),
    (((s.queue qid).bells.find? fun b => decide ((s.queue qid).ridx < b.1)).map Prod.snd).getD s.time, ?_⟩
  unfold State.takeEntry
  dsimp only
  by_cases launch : pkType ws = 1
  · rw [if_pos launch, if_pos (beq_iff_eq.mpr launch)]
  · rw [if_neg launch, if_neg (fun same => launch (beq_iff_eq.mp same))]

/-- What is as it was when one entry is taken: the write index, the way the queue is closed, the scheduler's core, and
every wave but its own. -/
structure Takes (s t : State) (qid : Nat) : Prop where
  widx : (t.queue qid).widx = (s.queue qid).widx
  closing : (t.queue qid).closing = (s.queue qid).closing
  scheduler : SameScheduler s t
  waves : ∀ k, k ≠ s.schedWave → SameWave (s.wave k) (t.wave k)

theorem takes_refl (s : State) (qid : Nat) : Takes s s qid := ⟨rfl, rfl, ⟨rfl, rfl, rfl⟩, fun _ _ => rfl⟩

theorem Takes.trans {s t u : State} {qid : Nat} (h : Takes s t qid) (g : Takes t u qid) : Takes s u qid where
  widx := g.widx.trans h.widx
  closing := g.closing.trans h.closing
  scheduler := h.scheduler.trans g.scheduler
  waves k other := SameWave.trans (h.waves k other) (g.waves k (by rw [h.scheduler.schedWave]; exact other))

/-- The entry enters: nothing of the queue changes but its read index, its doorbells and its packets. -/
theorem State.enterPacket_writes (s : State) (qid : Nat) (p : Packet64) : ∃ bells, OnlyWrites (s.setQueue qid
    { s.queue qid with ridx := (s.queue qid).ridx + 1, bells := bells, packets := (s.queue qid).packets ++ [p] })
      (s.enterPacket qid p) :=
  ⟨_, State.putDesc_onlyWrites ..⟩

/-- An entry that enters rises the read index by one and is the queue's last packet. -/
structure Enters (s t : State) (qid : Nat) (p : Packet64) : Prop extends Takes s t qid where
  ridx : (t.queue qid).ridx = (s.queue qid).ridx + 1
  state : (t.queue qid).state = (s.queue qid).state
  packets : (t.queue qid).packets = (s.queue qid).packets ++ [p]
  lastid : (t.queue qid).lastid = (s.queue qid).lastid
  nextId : t.nextId = s.nextId
  launches : t.launches = s.launches

theorem State.enterPacket_enters (s : State) (qid : Nat) (p : Packet64) : Enters s (s.enterPacket qid p) qid p := by
  obtain ⟨bells, written⟩ := s.enterPacket_writes qid p
  have queue := written.queue qid
  rw [State.queue_setQueue_same] at queue
  have scheduler := written.sameScheduler
  refine ⟨⟨?_, ?_, ⟨scheduler.ctls, scheduler.sched, scheduler.reqs⟩, fun k _ => written.waves k⟩, ?_, ?_, ?_, ?_,
    (congrArg State.nextId written.rest :), written.launches⟩ <;> rw [queue]

/-- A check that fails halts the queue, with a signal record. -/
structure Halts (s t : State) (qid : Nat) : Prop extends Takes s t qid where
  state : (t.queue qid).state = 1
  ridx : (t.queue qid).ridx = (s.queue qid).ridx
  packets : (t.queue qid).packets = (s.queue qid).packets
  sigidx : (t.queue qid).sigidx = (s.queue qid).sigidx + 1

theorem State.packetTrap_shape (s : State) (reason addr : Nat) :
    s.packetTrap reason addr = { s with waves := (s.packetTrap reason addr).waves } := by
  unfold State.packetTrap
  split <;> rfl

theorem State.packetTrap_wave (s : State) (reason addr : Nat) {k : Nat} (other : k ≠ s.schedWave) :
    (s.packetTrap reason addr).wave k = s.wave k := by
  unfold State.packetTrap
  split
  · rfl
  · rw [State.wave_onWave]
    exact if_neg other

theorem State.signalRecord_sameScheduler (s : State) (qid kind reason addr launch : Nat) :
    SameScheduler s (s.signalRecord qid kind reason addr launch) := by
  obtain ⟨t, written, eq⟩ := s.signalRecord_writes qid kind reason addr launch
  rw [eq, State.raiseVector_shape]
  exact ⟨written.sameScheduler.ctls, written.sameScheduler.sched, written.sameScheduler.reqs⟩

theorem State.acceptOne_halted (s : State) (qid : Nat) {r : Nat} {ws : List (BitVec 64)}
    (fails : s.entryCheck qid = (some r, ws)) : Halts s (s.acceptOne qid) qid := by
  obtain ⟨addr, eq⟩ := s.acceptOne_halts qid fails
  rw [eq]
  have written := State.putDesc_onlyWrites ((s.packetTrap r addr).setQueue qid { s.queue qid with state := 1 }) qid
  generalize State.putDesc _ qid = u at written
  have queue := written.queue qid
  rw [State.queue_setQueue_same] at queue
  have signalled := u.signalRecord_queue qid 1 r addr 0 qid
  rw [if_pos rfl, queue] at signalled
  have scheduler := written.sameScheduler.trans (u.signalRecord_sameScheduler qid 1 r addr 0)
  have trapped := s.packetTrap_shape r addr
  refine ⟨⟨?_, ?_, ⟨scheduler.ctls.trans (congrArg State.ctls trapped :), scheduler.sched.trans (congrArg State.sched trapped :),
    scheduler.reqs.trans (congrArg State.reqs trapped :)⟩, fun k other => ?_⟩, ?_, ?_, ?_, ?_⟩
  case refine_3 =>
    have same := SameWave.trans (written.waves k) (u.signalRecord_waves qid 1 r addr 0 k)
    rw [show ((s.packetTrap r addr).setQueue qid { s.queue qid with state := 1 }).wave k = s.wave k from
      s.packetTrap_wave r addr other] at same
    exact same
  all_goals rw [signalled]

/-- An entry that passes the checks, with its launch where it asks for one. -/
structure Accepted (s t : State) (qid : Nat) (ws : List (BitVec 64)) (p : Packet64) : Prop extends Takes s t qid where
  ridx : (t.queue qid).ridx = (s.queue qid).ridx + 1
  state : (t.queue qid).state = (s.queue qid).state
  packets : (t.queue qid).packets = (s.queue qid).packets ++ [p]
  fresh : p.words = ws ∧ p.started = false ∧ p.done = false
  launch : pkType ws = 1 → ∃ n, p.launch = some n ∧ (t.launch n).id = s.nextId ∧ (t.launch n).ended = false ∧
    (t.launch n).count = pkArg ws ∧ (t.launch n).pid = (s.queue qid).pid
  given : pkType ws = 1 → t.nextId = s.nextId + 1 ∧ (t.queue qid).lastid = s.nextId
  ungiven : pkType ws ≠ 1 → t.nextId = s.nextId ∧ (t.queue qid).lastid = (s.queue qid).lastid

theorem State.acceptOne_accepted (s : State) (qid : Nat) {ws : List (BitVec 64)} (passes : s.entryCheck qid = (none, ws)) :
    ∃ p, Accepted s (s.acceptOne qid) qid ws p := by
  obtain ⟨addr, t0, eq⟩ := s.acceptOne_enters qid passes
  rw [eq]
  by_cases launch : pkType ws = 1
  · rw [if_pos launch]
    have made := s.newLaunch_result qid ws t0
    generalize s.newLaunch qid ws t0 = r at made
    have enters := r.1.enterPacket_enters qid ⟨addr, ws, t0, false, false, some r.2⟩
    have same : (r.1.enterPacket qid ⟨addr, ws, t0, false, false, some r.2⟩).launch r.2 = r.1.launch r.2 :=
      congrArg (fun t : Tab Launch => t.get Launch.absent r.2) enters.launches
    have before : Takes s r.1 qid :=
      ⟨by rw [made.queue], by rw [made.queue], made.scheduler, fun k _ => made.waves k⟩
    refine ⟨⟨addr, ws, t0, false, false, some r.2⟩, ⟨before.trans enters.toTakes, ?_, ?_, ?_, ⟨rfl, rfl, rfl⟩, fun _ => ⟨r.2, rfl, ?_, ?_, ?_, ?_⟩, fun _ => ⟨?_, ?_⟩,
      fun other => absurd launch other⟩⟩
    · rw [enters.ridx, made.queue]
    · rw [enters.state, made.queue]
    · rw [enters.packets, made.queue]
    · rw [same, made.id]
    · rw [same, made.ended]
    · rw [same, made.count]
    · rw [same, made.pid]
    · rw [enters.nextId, made.nextId]
    · rw [enters.lastid, made.queue]
  · rw [if_neg launch]
    have enters := s.enterPacket_enters qid ⟨addr, ws, t0, false, false, none⟩
    exact ⟨_, ⟨enters.toTakes, enters.ridx, enters.state, enters.packets, ⟨rfl, rfl, rfl⟩, fun same => absurd same launch,
      fun same => absurd same launch, fun _ => ⟨enters.nextId, enters.lastid⟩⟩⟩

/-! ## Doorbells (R381, R382) -/

/-- Entries are taken from a queue: its read index has risen by as many as there are packets more, and where it still runs
by `due` of them. -/
structure Rung (s t : State) (qid due : Nat) : Prop extends Takes s t qid where
  rises : ∃ n, (t.queue qid).ridx = (s.queue qid).ridx + n ∧
    (t.queue qid).packets.length = (s.queue qid).packets.length + n ∧
    ((s.queue qid).closing = false → (t.queue qid).state = 0 → n = due)
  runs : (t.queue qid).state = 0 → (s.queue qid).state = 0

/-- One turn of acceptance. -/
def State.acceptTurn (s : State) (qid : Nat) : State :=
  if (s.queue qid).state == 0 && !(s.queue qid).closing then s.acceptOne qid else s

theorem State.acceptTurn_rung (s : State) (qid : Nat) : Rung s (s.acceptTurn qid) qid 1 := by
  unfold State.acceptTurn
  split
  · next running =>
    have runs : (s.queue qid).state = 0 := by
      rw [Bool.and_eq_true] at running
      exact beq_iff_eq.mp running.1
    rcases checked : s.entryCheck qid with ⟨_ | r, ws⟩
    · obtain ⟨p, accepted⟩ := s.acceptOne_accepted qid checked
      exact ⟨accepted.toTakes, ⟨1, accepted.ridx, by rw [accepted.packets, List.length_append]; rfl, fun _ _ => rfl⟩, fun _ => runs⟩
    · have halted := s.acceptOne_halted qid checked
      refine ⟨halted.toTakes, ⟨0, halted.ridx, by rw [halted.packets]; rfl, fun _ runs => ?_⟩, fun _ => runs⟩
      rw [halted.state] at runs
      cases runs
  · next stands =>
    refine ⟨takes_refl s qid, ⟨0, rfl, rfl, fun unclosed runs => absurd ?_ stands⟩, id⟩
    rw [runs, unclosed]
    rfl

theorem Rung.trans {s t u : State} {qid m n : Nat} (h : Rung s t qid m) (g : Rung t u qid n) : Rung s u qid (m + n) := by
  obtain ⟨a, ridx, packets, all⟩ := h.rises
  obtain ⟨b, ridx', packets', all'⟩ := g.rises
  refine ⟨h.toTakes.trans g.toTakes, ⟨a + b, by omega, by omega, fun unclosed runs => ?_⟩, fun runs => h.runs (g.runs runs)⟩
  rw [all unclosed (g.runs runs), all' (h.closing.trans unclosed) runs]

theorem State.accept_rung (s : State) (qid : Nat) :
    Rung s (s.accept qid) qid ((s.queue qid).widx - (s.queue qid).ridx) := by
  have turns (n : Nat) : Rung s ((List.range n).foldl (fun s _ => s.acceptTurn qid) s) qid n := by
    induction n with
    | zero => exact ⟨takes_refl s qid, ⟨0, rfl, rfl, fun _ _ => rfl⟩, id⟩
    | succ n ih =>
      rw [List.range_succ, List.foldl_append]
      exact ih.trans (State.acceptTurn_rung _ qid)
  exact turns _

/-- A write index is out of a queue's range (R382). -/
def Queue.refuses (q : Queue) (n : Nat) : Bool := decide (n < q.ridx) || decide (q.ridx + 2 ^ q.log2n < n)

theorem Queue.refuses_iff (q : Queue) (n : Nat) : q.refuses n = true ↔ n < q.ridx ∨ q.ridx + 2 ^ q.log2n < n := by
  simp [Queue.refuses]

/-- A doorbell in range: the write index is the value, and from then on entries are accepted (R382). -/
structure Belled (s t : State) (qid n : Nat) : Prop where
  widx : (t.queue qid).widx = n
  rises : ∃ m, (t.queue qid).ridx = (s.queue qid).ridx + m ∧
    (t.queue qid).packets.length = (s.queue qid).packets.length + m
  taken : qid ≠ 0 → (s.queue qid).closing = false → (t.queue qid).state = 0 → (t.queue qid).ridx = n
  waves : ∀ k, k ≠ s.schedWave → SameWave (s.wave k) (t.wave k)

theorem State.ringBell_belled (s : State) (qid n : Nat) (within : ¬ (s.queue qid).refuses n = true) :
    Belled s (s.ringBell qid n) qid n := by
  have low : (s.queue qid).ridx ≤ n := Nat.not_lt.mp fun below => within ((Queue.refuses_iff ..).mpr (.inl below))
  rw [show s.ringBell qid n = _ from if_neg within]
  have queue : (s.setQueue qid { s.queue qid with widx := n, bells := (s.queue qid).bells ++ [(n, s.time)] }).queue qid =
      { s.queue qid with widx := n, bells := (s.queue qid).bells ++ [(n, s.time)] } := State.queue_setQueue_same ..
  split
  · next first => exact ⟨by rw [queue], ⟨0, by rw [queue]; rfl, by rw [queue]; rfl⟩, fun other => absurd (beq_iff_eq.mp first) other, fun _ _ => rfl⟩
  · have rung := State.accept_rung (s.setQueue qid
      { s.queue qid with widx := n, bells := (s.queue qid).bells ++ [(n, s.time)] }) qid
    obtain ⟨m, ridx, packets, all⟩ := rung.rises
    have widx := rung.widx
    rw [queue] at ridx packets all widx
    refine ⟨widx, ⟨m, ridx, packets⟩, fun _ unclosed runs => ?_, rung.waves⟩
    have due := all unclosed runs
    dsimp only at due ridx
    omega

theorem State.signalEvent_schedWave (s : State) (e : BitVec 5) : (s.signalEvent s.sched e).schedWave = s.schedWave := by
  have ctl : (s.signalEvent s.sched e).ctl s.sched = { s.ctl s.sched with event := (s.ctl s.sched).event ||| e } :=
    State.ctl_setCtl_same ..
  show ((s.signalEvent s.sched e).ctl s.sched).wave = (s.ctl s.sched).wave
  rw [ctl]

theorem exec_hostDoorbell_none (s : State) {w : Nat} (v : BitVec 64) (beyond : 8191 < w) : exec (.hostDoorbell w v) s = .next s := by
  have none : s.queues.find? (fun p => p.2.used && p.2.state != 2 && p.2.window == w && decide (w ≤ 8191)) = none := by
    refine List.find?_eq_none.mpr fun p _ => ?_
    rw [decide_eq_false (Nat.not_le.mpr beyond), Bool.and_false]
    decide
  show execHostDoorbell w v s = _
  unfold execHostDoorbell
  rw [none]

theorem exec_hostDoorbell (s : State) {w qid : Nat} (v : BitVec 64) {q : Queue} (within : w ≤ 8191)
    (found : s.queues.find? (fun p => p.2.used && p.2.state != 2 && p.2.window == w) = some (qid, q)) :
    exec (.hostDoorbell w v) s = .next (if q.refuses v.toNat then s.signalEvent s.sched 2
      else ((s.signalEvent s.sched 2).ctxWrite q.ctx (q.desc + 16) (leBytes 8 v.toNat)).ringBell qid v.toNat) := by
  have same : (fun p : Nat × Queue => p.2.used && p.2.state != 2 && p.2.window == w && decide (w ≤ 8191)) =
      fun p => p.2.used && p.2.state != 2 && p.2.window == w :=
    funext fun p => by rw [decide_eq_true within, Bool.and_true]
  show execHostDoorbell w v s = _
  unfold execHostDoorbell
  rw [same, found]
  rfl

section
variable (s : State) {k : Nat} {c : Call} (asked : s.openCall k = some c) (bell : c.num = 0) (free : s.iss.granted = false)
include asked bell free

theorem exec_queueDoorbell : exec (.queueDoorbell k) s = .next
    (let q := s.queue c.arg.toNat
     if q.used && q.state != 2 && q.pid == (s.launch (s.launchOf (s.wave k))).pid && c.arg.toNat != 0 then
       ((s.signalEvent s.sched 2).ringBell c.arg.toNat (s.ctxWord q.ctx (q.desc + 16))).replySysc k 0
     else s.replySysc k allOnes) := by
  show execQueueDoorbell k s = _
  unfold execQueueDoorbell
  rw [asked]
  dsimp only
  rw [bell, free]
  rfl

end

end Sys2Proof.Machine

namespace Sys2Proof.Proofs

open Sys2Proof.Machine Sys2Proof.Claims

/-- Settles O51: a doorbell is its queue's new write index and then turns of acceptance, each of which takes one entry or
halts the queue. -/
theorem doorbellsAndAcceptance : Obligations.DoorbellsAndAcceptance := by
  unfold Obligations.DoorbellsAndAcceptance
  refine ⟨⟨fun s w v beyond => exec_hostDoorbell_none s v beyond, fun s w qid v q within found => ?_,
    fun s k c asked bell free => ?_⟩, fun s qid ws => ?_⟩
  · have run := exec_hostDoorbell s v within found
    refine ⟨fun out => run.trans (congrArg _ (if_pos ((Queue.refuses_iff ..).mpr out))), fun low high queue => ?_⟩
    have inside : ¬ q.refuses v.toNat = true := fun out => by
      have := (Queue.refuses_iff ..).mp out
      omega
    refine ⟨_, run.trans (congrArg _ (if_neg inside)), ?_⟩
    have written := (s.signalEvent s.sched 2).ctxWrite_onlyWrites q.ctx (q.desc + 16) (leBytes 8 v.toNat)
    generalize State.ctxWrite _ q.ctx _ _ = u at written
    have same : u.queue qid = q := (written.queue qid).trans queue
    have belled := u.ringBell_belled qid v.toNat (by rw [same]; exact inside)
    obtain ⟨m, ridx, packets⟩ := belled.rises
    have taken := belled.taken
    rw [same] at ridx packets taken
    refine ⟨belled.widx, ⟨m, ridx, packets⟩, taken, fun k other => ?_⟩
    refine SameWave.trans (written.waves k) (belled.waves k ?_)
    rw [written.sameScheduler.schedWave, State.signalEvent_schedWave]
    exact other
  · have run := exec_queueDoorbell s asked bell free
    refine ⟨fun barred => run.trans (congrArg _ (if_neg ?_)), fun used runs own first => run.trans (congrArg _ (if_pos ?_))⟩
    · rcases barred with unused | gone | alien | first
      · simp [unused]
      · simp [gone]
      · simp [alien]
      · simp [first]
    · have nonzero : c.arg.toNat ≠ 0 := fun zero => first (BitVec.eq_of_toNat_eq zero)
      simp [used, runs, own, nonzero]
  · intro q read t
    have checked : s.entryCheck qid = (s.packetError q ws, ws) := by
      unfold State.entryCheck
      dsimp only
      rw [read]
    refine ⟨fun passes => ?_, fun r fails => ?_⟩
    · rw [passes] at checked
      obtain ⟨p, accepted⟩ := s.acceptOne_accepted qid checked
      obtain ⟨words, started, done⟩ := accepted.fresh
      exact ⟨accepted.ridx, accepted.state, ⟨p, accepted.packets, words, started, done, accepted.launch⟩, accepted.given,
        accepted.ungiven⟩
    · rw [fails] at checked
      have halted := s.acceptOne_halted qid checked
      exact ⟨halted.state, halted.ridx, halted.packets, halted.sigidx⟩

end Sys2Proof.Proofs
end

section
/-! SUPPORT. How a request of the executive ends (R383): what it leaves of the executive's tables, and which requests are
open afterwards. -/

namespace Sys2Proof.Machine

open Sys2Proof.Claims

/-! ## Replies (R352) -/

theorem State.writeUnifOf_keepsOthers (s : State) (k : Nat) (ls : List Nat) (name : Nat) (v : BitVec 64) :
    KeepsOthers k s (s.writeUnifOf k ls name v) := by
  have unmarked (marks : List ErrPlace) : KeepsOthers k s { s with badNames := marks } := keepsOthers_of_eq k rfl rfl rfl
  unfold State.writeUnifOf
  exact (unmarked _).trans (State.onWave_keepsOthers ..)

theorem State.deliverReply_keepsDesk (s : State) (k : Nat) : KeepsDesk s (s.deliverReply k) := by
  unfold State.deliverReply
  split
  · exact keepsDesk_refl s
  · next c _ =>
    dsimp only
    refine KeepsDesk.trans (t := { s with replies := s.replies.del c.id }.onWave k fun w =>
      { w with service := w.service.filter (· != c) }) (keepsDesk_of_eq rfl rfl) (ite_keepsDesk _ (keepsDesk_refl _) ?_)
    refine (State.resumeAt_keepsOthers (fun t => ?_) (fun t => ?_) _ _).toKeepsDesk
    · split
      · exact t.writeUnifOf_keepsOthers ..
      · exact keepsOthers_refl k t
    · split <;> rfl

theorem State.answer_keepsDesk (s : State) (id : Nat) (v : BitVec 64) : KeepsDesk s (s.answer id v) := by
  unfold State.answer
  dsimp only
  have noted (c : Bool) : KeepsDesk s (if c then { s with replies := s.replies.put id v } else s) :=
    ite_keepsDesk _ (keepsDesk_of_eq rfl rfl) (keepsDesk_refl s)
  split
  · exact (noted _).trans (State.deliverReply_keepsDesk ..)
  · exact noted _

/-! ## The end of a request -/

/-- Queues, communicators and code objects are as they were. -/
structure KeepsHoldings (s t : State) : Prop where
  queues : t.queues = s.queues
  comms : t.comms = s.comms
  objects : t.objects = s.objects

theorem keepsHoldings_refl (s : State) : KeepsHoldings s s := ⟨rfl, rfl, rfl⟩

theorem KeepsHoldings.trans {s t u : State} (h : KeepsHoldings s t) (g : KeepsHoldings t u) : KeepsHoldings s u :=
  ⟨g.queues.trans h.queues, g.comms.trans h.comms, g.objects.trans h.objects⟩

theorem KeepsHoldings.queue {s t : State} (h : KeepsHoldings s t) (k : Nat) : t.queue k = s.queue k :=
  congrArg (fun q : Tab Queue => q.get Queue.absent k) h.queues

/-- A request that ends, its result and status written: who asked has still to be told. -/
def State.closing (s : State) (k status result : Nat) : State :=
  ({ s with reqs := s.reqs.del k }.ctxWrite (s.req k).ctx ((s.req k).addr + 48)
    (leBytes 8 (if status == 0 then result else 0))).ctxWrite (s.req k).ctx ((s.req k).addr + 7) (leBytes 1 status)

theorem State.closing_keepsDesk (s : State) (k status result : Nat) :
    KeepsDesk { s with reqs := s.reqs.del k } (s.closing k status result) :=
  ((State.ctxWrite_onlyWrites ..).trans (State.ctxWrite_onlyWrites ..)).keepsDesk

theorem State.endOne_wave (s : State) (k status result : Nat) {w : Nat} (src : (s.req k).src = .wave w) :
    s.endOne k status result = (s.closing k status result).answer (s.req k).call (BitVec.ofNat 64 status) := by
  unfold State.endOne
  dsimp only
  rw [src]
  rfl

theorem State.endOne_host (s : State) (k status result : Nat) (src : (s.req k).src = .host) :
    s.endOne k status result = (s.closing k status result).raiseVector 0 := by
  unfold State.endOne
  dsimp only
  rw [src]
  rfl

theorem State.endOne_reqs (s : State) (k status result : Nat) :
    (s.endOne k status result).reqs = s.reqs.del k ∧ KeepsHoldings s (s.endOne k status result) := by
  have closed := s.closing_keepsDesk k status result
  cases src : (s.req k).src with
  | wave w =>
    rw [s.endOne_wave k status result src]
    have kept := closed.trans (State.answer_keepsDesk (s.closing k status result) (s.req k).call (BitVec.ofNat 64 status))
    exact ⟨kept.reqs, kept.queues, kept.comms, kept.objects⟩
  | host =>
    rw [s.endOne_host k status result src, State.raiseVector_shape]
    exact ⟨closed.reqs, closed.queues, closed.comms, closed.objects⟩

theorem State.endOne_msi (s : State) (k status result : Nat) (src : (s.req k).src = .host)
    (unmasked : s.masks.get true 0 = false) : (s.endOne k status result).msi = s.msi ++ [0] := by
  have closed := s.closing_keepsDesk k status result
  have clear : ¬ (s.closing k status result).masks.get true 0 = true := by
    rw [closed.masks, show ({ s with reqs := s.reqs.del k } : State).masks = s.masks from rfl, unmasked]
    decide
  rw [s.endOne_host k status result src]
  have raised : (s.closing k status result).raiseVector 0 =
      { s.closing k status result with msi := (s.closing k status result).msi ++ [0] } := if_neg clear
  rw [raised]
  exact congrArg (· ++ [0]) closed.msi

/-- A malformed request that stands first is the host's. -/
theorem State.badHead_mem {s : State} {k : Nat} (h : s.badHead = some k) :
    ∃ r, (k, r) ∈ s.reqs ∧ r.src = .host ∧ requestBad true r.words = true := by
  obtain ⟨p, found, rfl⟩ := Option.map_eq_some_iff.mp h
  obtain ⟨first, bad⟩ := Option.filter_eq_some_iff.mp found
  exact ⟨p.2, List.mem_of_find?_eq_some first, beq_iff_eq.mp (List.find?_some first :), bad⟩

theorem State.badHead_of_noneBad {s : State} (none : noneBad s) : s.badHead = .none := by
  cases head : s.badHead with
  | none => rfl
  | some k =>
    obtain ⟨r, mem, host, bad⟩ := State.badHead_mem head
    exact absurd ((none _ mem host).symm.trans bad) (by decide)

/-- A malformed request that stands first ends. -/
def State.endHead (s : State) : State :=
  match s.badHead with
  | some k => s.endOne k 2 0
  | none => s

theorem State.endBad_eq (s : State) : s.endBad = State.endHead^[s.reqs.length] s :=
  (List.foldl_const State.endHead s (List.range s.reqs.length)).trans (by rw [List.length_range])

theorem State.endHead_of_noneBad {s : State} (none : noneBad s) : s.endHead = s := by
  unfold State.endHead
  rw [State.badHead_of_noneBad none]

theorem State.endHead_reqs (s : State) : (∀ p ∈ s.endHead.reqs, p ∈ s.reqs) ∧ KeepsHoldings s s.endHead := by
  unfold State.endHead
  split
  · next k _ =>
    obtain ⟨reqs, kept⟩ := s.endOne_reqs k 2 0
    rw [reqs]
    exact ⟨fun p hp => List.mem_of_mem_filter hp, kept⟩
  · exact ⟨fun _ hp => hp, keepsHoldings_refl s⟩

theorem State.endBad_of_noneBad {s : State} (none : noneBad s) : s.endBad = s :=
  s.endBad_eq.trans (Function.iterate_fixed (State.endHead_of_noneBad none) _)

/-- No request is opened where malformed ones end. -/
theorem State.endBad_reqs (s : State) : (∀ p ∈ s.endBad.reqs, p ∈ s.reqs) ∧ KeepsHoldings s s.endBad := by
  rw [State.endBad_eq]
  generalize s.reqs.length = n
  induction n with
  | zero => exact ⟨fun _ hp => hp, keepsHoldings_refl s⟩
  | succ n ih =>
    rw [Function.iterate_succ_apply']
    obtain ⟨reqs, kept⟩ := State.endHead_reqs (State.endHead^[n] s)
    exact ⟨fun p hp => ih.1 p (reqs p hp), ih.2.trans kept⟩

section
variable (s : State) (k status result : Nat)

theorem State.endRequest_holdings : KeepsHoldings s (s.endRequest k status result) :=
  (s.endOne_reqs k status result).2.trans (State.endBad_reqs _).2

theorem State.endRequest_reqs : ∀ p ∈ (s.endRequest k status result).reqs, p ∈ s.reqs ∧ p.1 ≠ k := by
  intro p hp
  have left := (State.endBad_reqs _).1 p hp
  rw [(s.endOne_reqs k status result).1] at left
  obtain ⟨mem, other⟩ := List.mem_filter.mp left
  exact ⟨mem, bne_iff_ne.mp other⟩

theorem State.noneBad_endOne (none : noneBad s) : noneBad (s.endOne k status result) := by
  unfold noneBad
  rw [(s.endOne_reqs k status result).1]
  exact fun p hp => none p (List.mem_of_mem_filter hp)

theorem State.endRequest_of_noneBad (none : noneBad s) : s.endRequest k status result = s.endOne k status result :=
  State.endBad_of_noneBad (s.noneBad_endOne k status result none)

/-- A request that ends is open no more, and no other ends with it that is well formed (R383). -/
theorem State.endRequest_done : requestDone s (s.endRequest k status result) k := by
  refine ⟨?_, fun none => ?_⟩
  · rw [Tab.has, List.any_eq_false]
    intro p hp same
    exact (s.endRequest_reqs k status result p hp).2 (beq_iff_eq.mp same)
  · rw [s.endRequest_of_noneBad k status result none]
    exact (s.endOne_reqs k status result).1

end

/-- A request's end, after a change of other tables. -/
theorem requestDone_of_reqs {s t u : State} {k : Nat} (same : t.reqs = s.reqs) (done : requestDone t u k) :
    requestDone s u k := by
  unfold requestDone noneBad at done ⊢
  rwa [same] at done

theorem State.serve_served {s : State} {k kind : Nat} (h : served s k kind) (f : Request → State) :
    s.serve k kind f = f (s.req k) := by
  obtain ⟨present, ofKind, free, first⟩ := h
  have oldest : ((s.req k).src == .host && s.reqs.any fun p => p.2.src == .host && decide (p.1 < k)) = false := by
    rw [Bool.and_eq_false_iff, beq_eq_false_iff_ne]
    by_cases host : (s.req k).src = .host
    · refine .inr (List.any_eq_false.mpr fun p hp earlier => ?_)
      obtain ⟨src, before⟩ := Bool.and_eq_true_iff.mp earlier
      exact absurd (first host p hp (beq_iff_eq.mp src)) (Nat.not_le.mpr (of_decide_eq_true before))
    · exact .inl host
  unfold State.serve
  dsimp only
  rw [present, free, oldest, bne_eq_false_iff_eq.mpr ofKind]
  rfl

end Sys2Proof.Machine
end

section
/-! Proofs: code objects are loaded, or refused with a status, and unloaded (R397-R404). -/

namespace Sys2Proof.Machine

open Sys2Proof.Claims

/-! ## Loading (R403) -/

/-- The executive's table words are written. -/
def State.mapPlan (s : State) (plan : LoadPlan) : State :=
  plan.tables.foldl (fun s p => s.sysWrite p.1 (leBytes 8 p.2.toNat)) s

theorem State.mapPlan_onlyWrites (s : State) (plan : LoadPlan) : OnlyWrites s (s.mapPlan plan) :=
  onlyWrites_foldl (fun (s : State) (p : Nat × BitVec 64) => s.sysWrite p.1 (leBytes 8 p.2.toNat))
    (fun s _ => s.sysWrite_onlyWrites ..) _ s

theorem State.writeObject_onlyWrites (s : State) (ctx base : Nat) (o : ObjectFile) (kdesc : Nat) :
    OnlyWrites s (s.writeObject ctx base o kdesc) := by
  have tables : ∀ (s : State) (x : (KernelFile × Nat × Nat × Nat) × Nat), OnlyWrites s
      ((((s.ctxWrite ctx (kdesc + 256 * x.2) (loadedDesc x.1.1.words base x.1.2.1 x.1.2.2.1 x.1.2.2.2)).ctxWrite ctx
        x.1.2.1 x.1.1.names).ctxWrite ctx x.1.2.2.1 x.1.1.res).ctxWrite ctx x.1.2.2.2 x.1.1.dbg) := fun s x =>
    (((State.ctxWrite_onlyWrites ..).trans (State.ctxWrite_onlyWrites ..)).trans (State.ctxWrite_onlyWrites ..)).trans
      (State.ctxWrite_onlyWrites ..)
  unfold State.writeObject
  exact ((State.ctxWrite_onlyWrites ..).trans (State.ctxWrite_onlyWrites ..)).trans (onlyWrites_foldl _ tables _ _)

/-- The object is in its place, and the executive holds it. -/
def State.enterObject (s : State) (k ctx base : Nat) (o : ObjectFile) (plan : LoadPlan) : State :=
  let t := (s.mapPlan plan).writeObject ctx base (o.relocate base) plan.kdesc.toNat
  let c := t.context ctx
  { t with
    contexts := t.contexts.put ctx { c with used := c.used ++ [(base, o.span), o.descPages plan.kdesc.toNat] }
    objects := t.objects ++ [⟨ctx, (s.req k).pid, base, o.span, plan.kdesc.toNat, o.kernels.length, false⟩] }

/-- A load in a context (R403). -/
def State.load (s : State) (k ctx : Nat) (plan : LoadPlan) : State :=
  let r := s.req k
  if !s.owns ctx (r.arg 0) 128 || !s.owns ctx (r.arg 1) 32 then s.endRequest k 1 0
  else match s.readObject ctx (r.arg 0) with
    | none => s.loadResult k ctx (r.arg 1) 1 0 0 0 0
    | some o => match s.baseFor ctx o with
      | none => s.loadResult k ctx (r.arg 1) 2 0 0 0 0
      | some base => match o.overflow base with
        | some (i, v) => s.loadResult k ctx (r.arg 1) 3 i base 0 (wrap 64 v)
        | none =>
          if !s.planFree (s.mapPlan plan) ctx base o plan || !(s.mapPlan plan).planOk ctx base o plan.kdesc.toNat then s
          else (s.enterObject k ctx base o plan).loadResult k ctx (r.arg 1) 0 0 base plan.kdesc.toNat 0

theorem exec_loadCodeObject {s : State} {k ctx : Nat} (plan : LoadPlan) (h : served s k 4) (has : hasContext s (s.req k) ctx) :
    exec (.loadCodeObject k plan) s = .next (s.load k ctx plan) := by
  refine congrArg Host.Outcome.next ((State.serve_served h _).trans ?_)
  dsimp only
  rw [show s.contextFor (s.req k).pid = (s, ctx) from has]
  rfl

section
variable {s : State} {k ctx : Nat} (plan : LoadPlan)

theorem State.load_unowned (unowned : s.owns ctx ((s.req k).arg 0) 128 = false ∨ s.owns ctx ((s.req k).arg 1) 32 = false) :
    s.load k ctx plan = s.endRequest k 1 0 := by
  refine if_pos ?_
  rcases unowned with object | result
  · rw [object]
    rfl
  · rw [result, Bool.not_false, Bool.or_true]

variable (object : s.owns ctx ((s.req k).arg 0) 128 = true) (result : s.owns ctx ((s.req k).arg 1) 32 = true)
include object result

theorem State.load_owned : s.load k ctx plan = match s.readObject ctx ((s.req k).arg 0) with
    | none => s.loadResult k ctx ((s.req k).arg 1) 1 0 0 0 0
    | some o => match s.baseFor ctx o with
      | none => s.loadResult k ctx ((s.req k).arg 1) 2 0 0 0 0
      | some base => match o.overflow base with
        | some (i, v) => s.loadResult k ctx ((s.req k).arg 1) 3 i base 0 (wrap 64 v)
        | none =>
          if !s.planFree (s.mapPlan plan) ctx base o plan || !(s.mapPlan plan).planOk ctx base o plan.kdesc.toNat then s
          else (s.enterObject k ctx base o plan).loadResult k ctx ((s.req k).arg 1) 0 0 base plan.kdesc.toNat 0 := by
  refine if_neg ?_
  rw [object, result]
  decide

end

theorem State.loadResult_done (s : State) (k ctx at0 status index base kdesc value : Nat) :
    requestDone s (s.loadResult k ctx at0 status index base kdesc value) k ∧
      (s.loadResult k ctx at0 status index base kdesc value).objects = s.objects := by
  unfold State.loadResult
  generalize (leBytes 8 _ ++ _ ++ _ ++ _ : List Byte) = bs
  have written := (s.ctxWrite_onlyWrites ctx at0 bs).keepsDesk
  exact ⟨requestDone_of_reqs written.reqs (State.endRequest_done ..), (State.endRequest_holdings ..).objects.trans written.objects⟩

theorem State.enterObject_tables (s : State) (k ctx base : Nat) (o : ObjectFile) (plan : LoadPlan) :
    (s.enterObject k ctx base o plan).reqs = s.reqs ∧ (s.enterObject k ctx base o plan).objects = s.objects ++
      [⟨ctx, (s.req k).pid, base, o.span, plan.kdesc.toNat, o.kernels.length, false⟩] := by
  have kept := ((s.mapPlan_onlyWrites plan).trans
    (State.writeObject_onlyWrites _ ctx base (o.relocate base) plan.kdesc.toNat)).keepsDesk
  exact ⟨kept.reqs, congrArg (· ++ [_]) kept.objects⟩

/-! ## Unloading (R404) -/

/-- An object is gone, and its ranges are free. -/
def State.dropObject (s : State) (o : CodeObj) : State :=
  let c := s.context o.ctx
  { s with
    objects := s.objects.filter fun x => x != o
    contexts := s.contexts.put o.ctx { c with
      used := c.used.filter fun u => u.1 != o.base && u.1 != o.kdesc / 2 ^ 16 * 2 ^ 16 } }

theorem exec_unloadCodeObject {s : State} {k : Nat} (h : served s k 5) : exec (.unloadCodeObject k) s = .next
    (match s.objects.find? fun o => o.pid == (s.req k).pid && o.base == (s.req k).arg 0 with
     | none => s.endRequest k 1 0
     | some o =>
       if s.objectBusy o then
         { s with objects := s.objects.map fun x => if x == o then { x with unloading := true } else x }
       else (s.dropObject o).endRequest k 0 0) :=
  congrArg Host.Outcome.next (State.serve_served h _)

end Sys2Proof.Machine

namespace Sys2Proof.Proofs

open Sys2Proof.Machine Sys2Proof.Claims

/-- Settles O57: a load is a chain of checks, of which the first that fails gives the result; a request's end leaves the
executive's objects. -/
theorem objectsLoadAndUnload : Obligations.ObjectsLoadAndUnload := by
  unfold Obligations.ObjectsLoadAndUnload
  refine ⟨fun s k ctx plan h has => ?_, fun s k h => ?_⟩
  · have run := exec_loadCodeObject plan h has
    refine ⟨fun unowned => run.trans (congrArg _ (State.load_unowned plan unowned)), fun object result => ?_⟩
    replace run := run.trans (congrArg _ (State.load_owned plan object result))
    refine ⟨fun malformed => run.trans (by rw [malformed]), fun o read => ?_⟩
    rw [read] at run
    refine ⟨fun full => run.trans (by dsimp only; rw [full]), fun base free => ?_⟩
    dsimp only at run
    rw [free] at run
    refine ⟨fun i v overflows => run.trans (by dsimp only; rw [overflows]), fun fits mapped apart => ?_⟩
    dsimp only at run
    rw [fits] at run
    dsimp only at run
    rw [if_neg (by
      rw [show s.planFree (s.mapPlan plan) ctx base o plan = true from apart,
        show (s.mapPlan plan).planOk ctx base o plan.kdesc.toNat = true from mapped]
      decide)] at run
    obtain ⟨reqs, objects⟩ := s.enterObject_tables k ctx base o plan
    obtain ⟨done, kept⟩ := (s.enterObject k ctx base o plan).loadResult_done k ctx ((s.req k).arg 1) 0 0 base plan.kdesc.toNat 0
    exact ⟨_, run, requestDone_of_reqs reqs done, kept.trans objects⟩
  · have run := exec_unloadCodeObject h
    refine ⟨fun missing => run.trans (by rw [show List.find? _ _ = none from missing]), fun o found => ?_⟩
    rw [show List.find? _ _ = some o from found] at run
    refine ⟨fun busy => ⟨_, run.trans (congrArg _ (if_pos busy)), rfl, ?_⟩, fun idle => ⟨_, run.trans (congrArg _ (if_neg ?_)),
      requestDone_of_reqs rfl (State.endRequest_done ..), (State.endRequest_holdings ..).objects⟩⟩
    · simp only [beq_iff_eq]
    · rw [idle]
      decide

end Sys2Proof.Proofs
end

section
/-! Proofs: the executive's services and its requests for queues and communicators (R352, R366, R379, R381-R384). -/

namespace Sys2Proof.Machine

open Sys2Proof.Claims

/-! ## Services (R381) -/

section
variable {s : State} {k n : Nat} {c : Call} (asked : s.openCall k = some c) (service : c.num = n)
  (free : s.iss.granted = false)
include asked service free

theorem State.asks_of_open : s.asks k n = some c := by
  unfold State.asks
  rw [asked]
  exact if_pos (show (c.num == n && !s.iss.granted) = true by rw [free, beq_iff_eq.mpr service]; rfl)

end

section
variable {s : State} {k : Nat} {c : Call} (asked : s.openCall k = some c) (free : s.iss.granted = false)
include asked free

theorem exec_storageRead (service : c.num = 1) (bs : List Byte) : exec (.storageRead k bs) s = .next
    (match s.ctxWords (s.ctxOf (s.wave k)) c.arg.toNat 4 with
     | some ws => (s.ctxWrite (s.ctxOf (s.wave k)) (schWord ws 3) (bs.take (schWord ws 2))).replySysc k
        (BitVec.ofNat 64 (bs.take (schWord ws 2)).length)
     | none => s.replySysc k 0) := by
  show execStorageRead k bs s = _
  unfold execStorageRead
  rw [State.asks_of_open asked service free] <;> rfl

theorem exec_storageWrite (service : c.num = 2) (n : Nat) : exec (.storageWrite k n) s = .next
    (match s.ctxWords (s.ctxOf (s.wave k)) c.arg.toNat 4 with
     | some ws => s.replySysc k (BitVec.ofNat 64 (min n (schWord ws 2)))
     | none => s.replySysc k 0) := by
  show execStorageWrite k n s = _
  unfold execStorageWrite
  rw [State.asks_of_open asked service free] <;> rfl

theorem exec_debuggerLog (service : c.num = 3) {line : List Byte}
    (read : s.ctxRead (s.ctxOf (s.wave k)) c.arg.toNat 256 = some line) :
    exec (.debuggerLog k) s = .next ({ s with log := s.log ++ [line] }.replySysc k 0) := by
  show execDebuggerLog k s = _
  unfold execDebuggerLog
  rw [State.asks_of_open asked service free]
  dsimp only
  rw [read]
  rfl

/-! ## Requests that arrive (R383) -/

/-- A wave's block that can be read is taken as a request. -/
theorem exec_executiveRequest_wave (service : c.num = 4) (unseen : ∀ p ∈ s.reqs, p.2.call ≠ c.id) :
    exec (.executiveRequest (.wave k)) s = .next
      (match (if c.arg.toNat % 64 == 0 then s.ctxWords (s.ctxOf (s.wave k)) c.arg.toNat 8 else none) with
       | some ws => s.takeRequest (.wave k) c.arg.toNat (s.ctxOf (s.wave k)) (s.pidOf k) ws (some c.id)
       | none => s.replySysc k 2) := by
  have new : (s.reqs.any fun p => p.2.call == c.id) = false :=
    List.any_eq_false.mpr fun p hp same => unseen p hp (beq_iff_eq.mp same)
  show execExecutiveRequest (.wave k) s = _
  unfold execExecutiveRequest
  dsimp only
  rw [State.asks_of_open asked service free]
  dsimp only
  rw [new]
  rfl

end

/-- A request is open. -/
def State.openRequest (s : State) (r : Request) : State :=
  { s with nextOp := s.nextOp + 1, reqs := s.reqs.put s.nextOp r }

theorem State.takeRequest_wave_good (s : State) (k addr ctx pid id : Nat) (ws : List (BitVec 64)) (good : requestBad false ws = false) :
    s.takeRequest (.wave k) addr ctx pid ws (some id) =
      (s.openRequest ⟨.wave k, addr, ctx, pid, ws, s.time, id⟩).shutObject pid ws :=
  if_pos (by rw [show requestBad (some id).isNone ws = false from good]; rfl)

theorem State.takeRequest_wave_bad (s : State) (k addr ctx pid id : Nat) (ws : List (BitVec 64)) (bad : requestBad false ws = true) :
    s.takeRequest (.wave k) addr ctx pid ws (some id) =
      (s.openRequest ⟨.wave k, addr, ctx, pid, ws, s.time, id⟩).endRequest s.nextOp 2 0 :=
  (if_neg (by rw [show requestBad (some id).isNone ws = true from bad]; decide)).trans (if_neg (by
    show ¬ false = true
    decide))

theorem State.takeRequest_host_good (s : State) (addr ctx pid : Nat) (ws : List (BitVec 64)) (good : requestBad true ws = false) :
    s.takeRequest .host addr ctx pid ws none = (s.openRequest ⟨.host, addr, ctx, pid, ws, s.time, 0⟩).shutObject pid ws :=
  if_pos (by rw [show requestBad (none : Option Nat).isNone ws = false from good]; rfl)

theorem State.takeRequest_host_bad (s : State) (addr ctx pid : Nat) (ws : List (BitVec 64)) (bad : requestBad true ws = true) :
    s.takeRequest .host addr ctx pid ws none = (s.openRequest ⟨.host, addr, ctx, pid, ws, s.time, 0⟩).endBad :=
  (if_neg (by rw [show requestBad (none : Option Nat).isNone ws = true from bad]; decide)).trans (if_pos rfl)

theorem State.shutObject_tables (s : State) (pid : Nat) (ws : List (BitVec 64)) :
    (s.shutObject pid ws).reqs = s.reqs ∧ (s.shutObject pid ws).queues = s.queues := by
  unfold State.shutObject
  split <;> exact ⟨rfl, rfl⟩

theorem Tab.del_put {α : Type} (t : Tab α) (a : Nat) (v : α) : (t.put a v).del a = t.del a := by
  induction t with
  | nil => simp [Tab.put, Tab.del]
  | cons p t ih =>
    obtain ⟨b, w⟩ := p
    unfold Tab.put
    unfold Tab.del at ih ⊢
    split
    · simp
    · split
      · next same => simp [same]
      · rw [List.filter_cons, List.filter_cons, ih]

/-- What stands in a table after an entry: the entry, or what stood there. -/
theorem Tab.mem_put {α : Type} {t : Tab α} {a : Nat} {v : α} {p : Nat × α} (h : p ∈ t.put a v) : p = (a, v) ∨ p ∈ t := by
  induction t with
  | nil => exact .inl (List.mem_singleton.mp h)
  | cons q t ih =>
    obtain ⟨b, w⟩ := q
    unfold Tab.put at h
    split at h
    · exact (List.mem_cons.mp h).imp_right id
    · split at h
      · exact (List.mem_cons.mp h).imp_right (List.mem_cons_of_mem _)
      · rcases List.mem_cons.mp h with rfl | later
        · exact .inr List.mem_cons_self
        · exact (ih later).imp_right (List.mem_cons_of_mem _)

theorem Tab.mem_put_same {α : Type} (t : Tab α) (a : Nat) (v : α) : (a, v) ∈ t.put a v := by
  induction t with
  | nil => exact List.mem_singleton.mpr rfl
  | cons q t ih =>
    obtain ⟨b, w⟩ := q
    unfold Tab.put
    split
    · exact List.mem_cons_self
    · split
      · exact List.mem_cons_self
      · exact List.mem_cons_of_mem _ ih

/-- Where the host has no other request open, a malformed one ends at once. -/
theorem State.endBad_openRequest {s : State} {r : Request} (host : r.src = .host) (bad : requestBad true r.words = true)
    (alone : ∀ p ∈ s.reqs, p.2.src ≠ .host) : (s.openRequest r).endBad = (s.openRequest r).endOne s.nextOp 2 0 := by
  have only : ∀ p ∈ (s.openRequest r).reqs, p.2.src = .host → p = (s.nextOp, r) := fun p hp src =>
    (Tab.mem_put hp).resolve_right fun old => alone p old src
  have first : (s.openRequest r).reqs.find? (fun p => p.2.src == .host) = some (s.nextOp, r) := by
    have found : ((s.openRequest r).reqs.find? fun p => p.2.src == .host).isSome = true :=
      List.find?_isSome.mpr ⟨_, Tab.mem_put_same .., beq_iff_eq.mpr host⟩
    obtain ⟨p, eq⟩ := Option.isSome_iff_exists.mp found
    rw [eq, only p (List.mem_of_find?_eq_some eq) (beq_iff_eq.mp (List.find?_some eq :))]
  have head : (s.openRequest r).badHead = some s.nextOp := by
    unfold State.badHead
    rw [first]
    exact congrArg (Option.map Prod.fst) (if_pos bad)
  have ends : (s.openRequest r).endHead = (s.openRequest r).endOne s.nextOp 2 0 := by
    unfold State.endHead
    rw [head]
  have left : noneBad ((s.openRequest r).endOne s.nextOp 2 0) := by
    unfold noneBad
    rw [(State.endOne_reqs ..).1]
    intro p hp src
    obtain ⟨mem, other⟩ := List.mem_filter.mp hp
    exact absurd (congrArg Prod.fst (only p mem src)) (bne_iff_ne.mp other)
  obtain ⟨n, length⟩ := Nat.exists_eq_add_one_of_ne_zero (List.length_pos_of_mem
    (Tab.mem_put_same s.reqs s.nextOp r)).ne'
  rw [State.endBad_eq, show (s.openRequest r).reqs.length = n + 1 from length, Function.iterate_succ_apply, ends]
  exact Function.iterate_fixed (State.endHead_of_noneBad left) n

/-- A well-formed request of the host is open; a malformed one is not, where the host has no other (R383). -/
theorem State.takeRequest_host (s : State) (addr ctx pid : Nat) (ws : List (BitVec 64)) :
    (requestBad true ws = false → (s.takeRequest .host addr ctx pid ws none).queue 0 = s.queue 0 ∧
      (s.takeRequest .host addr ctx pid ws none).reqs = s.reqs.put s.nextOp ⟨.host, addr, ctx, pid, ws, s.time, 0⟩) ∧
    (requestBad true ws = true → (∀ p ∈ s.reqs, p.2.src ≠ .host) →
      (s.takeRequest .host addr ctx pid ws none).queue 0 = s.queue 0 ∧
      (s.takeRequest .host addr ctx pid ws none).reqs = s.reqs.del s.nextOp) := by
  have queue (r : Request) : (s.openRequest r).queue 0 = s.queue 0 := rfl
  have reqs (r : Request) : (s.openRequest r).reqs = s.reqs.put s.nextOp r := rfl
  refine ⟨fun good => ?_, fun bad alone => ?_⟩
  · rw [s.takeRequest_host_good addr ctx pid ws good]
    obtain ⟨shut, queues⟩ := (s.openRequest ⟨.host, addr, ctx, pid, ws, s.time, 0⟩).shutObject_tables pid ws
    rw [shut]
    exact ⟨congrArg (fun t : Tab Queue => t.get Queue.absent 0) queues, rfl⟩
  · rw [s.takeRequest_host_bad addr ctx pid ws bad,
      State.endBad_openRequest (r := ⟨.host, addr, ctx, pid, ws, s.time, 0⟩) rfl bad alone]
    obtain ⟨left, kept⟩ := (s.openRequest ⟨.host, addr, ctx, pid, ws, s.time, 0⟩).endOne_reqs s.nextOp 2 0
    rw [left, reqs, Tab.del_put, kept.queue]
    exact ⟨queue _, rfl⟩

/-- The host's next block is read from the ring, and its read index rises. -/
theorem exec_executiveRequest_host {s : State} {ws : List (BitVec 64)} (free : s.iss.granted = false)
    (used : (s.queue 0).used = true) (due : (s.queue 0).ridx < (s.queue 0).widx)
    (read : s.ctxWords physCtx ((s.queue 0).base + 64 * ((s.queue 0).ridx % 2 ^ (s.queue 0).log2n)) 8 = some ws) :
    exec (.executiveRequest .host) s = .next
      (((s.setQueue 0 { s.queue 0 with ridx := (s.queue 0).ridx + 1 }).putDesc 0).takeRequest .host
        ((s.queue 0).base + 64 * ((s.queue 0).ridx % 2 ^ (s.queue 0).log2n)) physCtx (bits (schWord ws 7) 31 0) ws none) := by
  show execExecutiveRequest .host s = _
  unfold execExecutiveRequest
  dsimp only
  rw [if_neg (by rw [free, used]; simp [due]), read]
  rfl

/-! ## Queues (R382, R384) -/

/-- A queue's fields may be asked for so (R382, R384). -/
def Request.queueOk (r : Request) : Bool :=
  !(r.arg 0 % 4096 != 0 || r.arg 1 < 4 || 16 < r.arg 1 || (2048 ≤ r.arg 2 && r.arg 2 != 0xFFFF) || r.arg 3 % 64 != 0 ||
    1 < r.arg 4)

theorem Request.queueOk_iff (r : Request) : r.queueOk = true ↔ r.arg 0 % 4096 = 0 ∧ 4 ≤ r.arg 1 ∧ r.arg 1 ≤ 16 ∧
    (r.arg 2 < 2048 ∨ r.arg 2 = 0xFFFF) ∧ r.arg 3 % 64 = 0 ∧ r.arg 4 ≤ 1 := by
  simp [Request.queueOk, and_assoc]

/-- A window is some running queue's. -/
def State.windowTaken (s : State) (w : Nat) : Bool := s.queues.any fun p => p.2.used && p.2.state != 2 && p.2.window == w

theorem State.windowTaken_iff (s : State) (w : Nat) :
    s.windowTaken w = true ↔ ∃ p ∈ s.queues, p.2.used = true ∧ p.2.state ≠ 2 ∧ p.2.window = w := by
  simp [State.windowTaken, and_assoc]

/-- A queue is made, its descriptor's page mapped to its process. -/
def State.makeQueue (s : State) (r : Request) (ctx : Nat) (desc : BitVec 64) (window : Nat) : State :=
  let t := s.mapOwn (s.context ctx).root desc.toNat 8 descLeaf
  let u := t.fresh.setQueue t.nextOp { Queue.absent with
    used := true, desc := desc.toNat, ctx := ctx, pid := r.pid, base := r.arg 0, log2n := r.arg 1, vector := r.arg 2
    state := 0, sigring := r.arg 3, window := if r.arg 4 == 1 then window else 0xFFFFFFFF }
  (u.ctxWrite ctx (desc.toNat + 16) (leBytes 8 0)).putDesc t.nextOp

theorem exec_createQueue {s : State} {k ctx : Nat} (desc : BitVec 64) (w : Nat) (h : served s k 1)
    (has : hasContext s (s.req k) ctx) : exec (.createQueue k desc w) s = .next
      (let r := s.req k
       if !r.queueOk then s.endRequest k 2 0
       else if !s.owns ctx (r.arg 0) (64 * 2 ^ r.arg 1) || !s.owns ctx (r.arg 3) 2048 then s.endRequest k 1 0
       else if r.arg 4 == 1 && (List.range 8191).all (fun i => s.windowTaken (i + 1)) then s.endRequest k 3 0
       else if r.arg 4 == 1 && (w == 0 || 8191 < w || s.windowTaken w) then s
       else if desc.toNat % 64 != 0 || !s.pageFree ctx desc.toNat then s
       else (s.makeQueue r ctx desc w).endRequest k 0 desc.toNat) := by
  refine congrArg Host.Outcome.next ((State.serve_served h _).trans ?_)
  dsimp only
  rw [show s.contextFor (s.req k).pid = (s, ctx) from has, Request.queueOk, Bool.not_not]
  rfl

theorem State.makeQueue_result (s : State) (r : Request) (ctx : Nat) (desc : BitVec 64) (w : Nat) :
    (s.makeQueue r ctx desc w).reqs = s.reqs ∧ (s.makeQueue r ctx desc w).queue (s.nextOp + 1) = { Queue.absent with
      used := true, desc := desc.toNat, ctx := ctx, pid := r.pid, base := r.arg 0, log2n := r.arg 1, vector := r.arg 2
      state := 0, sigring := r.arg 3, window := if r.arg 4 == 1 then w else 0xFFFFFFFF } := by
  obtain ⟨maps, nextOp⟩ := s.mapOwn_onlyMaps (s.context ctx).root desc.toNat 8 descLeaf
  unfold State.makeQueue
  dsimp only
  rw [nextOp]
  generalize hq : ({ Queue.absent with
    used := true, desc := desc.toNat, ctx := ctx, pid := r.pid, base := r.arg 0, log2n := r.arg 1, vector := r.arg 2
    state := 0, sigring := r.arg 3, window := if r.arg 4 == 1 then w else 0xFFFFFFFF } : Queue) = q
  have written := (State.ctxWrite_onlyWrites
    ((s.mapOwn (s.context ctx).root desc.toNat 8 descLeaf).fresh.setQueue (s.nextOp + 1) q) ctx (desc.toNat + 16)
      (leBytes 8 0)).trans (State.putDesc_onlyWrites _ (s.nextOp + 1))
  exact ⟨written.keepsDesk.reqs.trans maps.keepsDesk.reqs, (written.queue _).trans (State.queue_setQueue_same ..)⟩

theorem exec_destroyQueue {s : State} {k : Nat} (h : served s k 2) : exec (.destroyQueue k) s = .next
    (let r := s.req k
     let q := s.queue (r.arg 0)
     if !s.ownsQueue r.pid (r.arg 0) then s.endRequest k 1 0
     else if q.packets.all fun p => p.done then
       ((s.setQueue (r.arg 0) { q with state := 2, closing := true }).putDesc (r.arg 0)).endRequest k 0 0
     else s.setQueue (r.arg 0) { q with closing := true }) :=
  congrArg Host.Outcome.next (State.serve_served h _)

/-- A halted queue runs again, past some entries. -/
def State.rerun (s : State) (qid skip : Nat) : State :=
  let q := s.queue qid
  ((s.setQueue qid { q with state := 0, ridx := q.ridx + skip }).putDesc qid).accept qid

theorem exec_restartQueue {s : State} {k : Nat} (h : served s k 3) : exec (.restartQueue k) s = .next
    (let r := s.req k
     if 1 < r.arg 1 then s.endRequest k 2 0
     else if !s.ownsQueue r.pid (r.arg 0) || (s.queue (r.arg 0)).state != 1 then s.endRequest k 1 0
     else (s.rerun (r.arg 0) (r.arg 1)).endRequest k 0 0) :=
  congrArg Host.Outcome.next (State.serve_served h _)

theorem State.rerun_result (s : State) (qid skip : Nat) : let t := s.rerun qid skip
    t.reqs = s.reqs ∧ (s.queue qid).ridx + skip ≤ (t.queue qid).ridx ∧
      ((t.queue qid).state = 0 → (s.queue qid).closing = false → (s.queue qid).ridx + skip ≤ (s.queue qid).widx →
        (t.queue qid).ridx = (s.queue qid).widx) := by
  have written := State.putDesc_onlyWrites
    (s.setQueue qid { s.queue qid with state := 0, ridx := (s.queue qid).ridx + skip }) qid
  have queue := written.queue qid
  rw [State.queue_setQueue_same] at queue
  intro t
  have rung := State.accept_rung ((s.setQueue qid
    { s.queue qid with state := 0, ridx := (s.queue qid).ridx + skip }).putDesc qid) qid
  obtain ⟨n, ridx, -, all⟩ := rung.rises
  rw [queue] at ridx all
  dsimp only at ridx all
  refine ⟨rung.scheduler.reqs.trans written.keepsDesk.reqs, ?_, fun runs unclosed due => ?_⟩
  · exact le_of_le_of_eq (Nat.le_add_right _ n) ridx.symm
  · have taken := all unclosed runs
    refine ridx.trans ?_
    omega

/-! ## Communicators (R366, R384) -/

/-- Communicators are entered, one for each of these ranks with its process. -/
def State.addComms (s : State) (handle : BitVec 64) (key : Nat) (ms : List (BitVec 64 × BitVec 64)) (ranks : List (Nat × Nat)) :
    State :=
  { s with comms := s.comms ++ ranks.map fun q => Machine.commOf handle key ms q.1 q.2 }

theorem exec_createCommunicator {s : State} {k : Nat} (handle : Nat) (agree : Bool) (h : served s k 6) :
    exec (.createCommunicator k handle agree) s = .next (match s.askedList (s.req k) with
      | none => s.endRequest k 2 0
      | some ms =>
        let r := s.req k
        let ps := s.askers r
        if (s.ranksFor r ms).isEmpty then s.endRequest k 1 0
        else if !agree || !(ps.all fun p => p.2.arg 2 == r.arg 2 && s.askedList p.2 == some ms) then s.endAll ps 2 0
        else if s.comms.any (fun c => c.handle == BitVec.ofNat 64 handle) || !((List.range ms.length).all fun i =>
            !memberHere (ms.getD i (0, 0)) || (s.ranksOf ps ms).any fun q => q.1 == i) then s
        else (s.addComms (BitVec.ofNat 64 handle) (r.arg 2) ms (s.ranksOf ps ms)).endAll ps 0 handle) :=
  congrArg Host.Outcome.next (State.serve_served h _)

theorem exec_communicatorTimeout {s : State} {k : Nat} (h : served s k 6) : exec (.communicatorTimeout k) s = .next
    (if (s.askers (s.req k)).any fun p => decide (2250000000 ≤ s.time - p.2.since) then s.endAll (s.askers (s.req k)) 4 0
     else s) :=
  congrArg Host.Outcome.next (State.serve_served h _)

theorem exec_destroyCommunicator {s : State} {k : Nat} (h : served s k 7) : exec (.destroyCommunicator k) s = .next
    (let handle := BitVec.ofNat 64 ((s.req k).arg 0)
     if !(s.comms.any fun c => c.handle == handle && s.speaksOf (s.req k) c) || s.colls.any fun p => p.2.handle == handle then
       s.endRequest k 1 0
     else { s with comms := s.comms.filter fun c => c.handle != handle }.endRequest k 0 0) :=
  congrArg Host.Outcome.next (State.serve_served h _)

/-- Requests that end together are open no more, and communicators stand. -/
theorem State.endAll_result (s : State) (ps : List (Nat × Request)) (status result : Nat) :
    (∀ q ∈ (s.endAll ps status result).reqs, q ∈ s.reqs ∧ ∀ p ∈ ps, q.1 ≠ p.1) ∧
      (s.endAll ps status result).comms = s.comms := by
  unfold State.endAll
  induction ps generalizing s with
  | nil => exact ⟨fun q hq => ⟨hq, fun p hp => absurd hp List.not_mem_nil⟩, rfl⟩
  | cons p ps ih =>
    obtain ⟨left, comms⟩ := ih (s.endRequest p.1 status result)
    refine ⟨fun q hq => ?_, comms.trans (s.endRequest_holdings p.1 status result).comms⟩
    obtain ⟨mem, others⟩ := left q hq
    obtain ⟨mem', own⟩ := s.endRequest_reqs p.1 status result q mem
    exact ⟨mem', List.forall_mem_cons.mpr ⟨own, others⟩⟩

end Sys2Proof.Machine

namespace Sys2Proof.Proofs

open Sys2Proof.Machine Sys2Proof.Claims

theorem servicesReply (s : State) (k : Nat) (c : Call) (asked : s.openCall k = some c) (free : s.iss.granted = false) :
    let ctx := s.ctxOf (s.wave k)
    (c.num = 1 → ∀ (bs : List Byte), (∀ ws, s.ctxWords ctx c.arg.toNat 4 = some ws →
        exec (.storageRead k bs) s = .next ((s.ctxWrite ctx (schWord ws 3) (bs.take (schWord ws 2))).replySysc k
          (BitVec.ofNat 64 (min (schWord ws 2) bs.length)))) ∧
      (s.ctxWords ctx c.arg.toNat 4 = none → exec (.storageRead k bs) s = .next (s.replySysc k 0))) ∧
    (c.num = 2 → ∀ n, (∀ ws, s.ctxWords ctx c.arg.toNat 4 = some ws →
        exec (.storageWrite k n) s = .next (s.replySysc k (BitVec.ofNat 64 (min n (schWord ws 2))))) ∧
      (s.ctxWords ctx c.arg.toNat 4 = none → exec (.storageWrite k n) s = .next (s.replySysc k 0))) := by
  refine ⟨fun service bs => ⟨fun ws read => ?_, fun unread => ?_⟩, fun service n => ⟨fun ws read => ?_, fun unread => ?_⟩⟩
  · rw [exec_storageRead asked free service bs, read]
    dsimp only
    rw [List.length_take]
  · rw [exec_storageRead asked free service bs, unread]
  · rw [exec_storageWrite asked free service n, read]
  · rw [exec_storageWrite asked free service n, unread]

/-- A queue is created where the request is well formed, the process owns its memory, and the executive's choices are
free (R382, R384). -/
theorem queueCreated (s : State) (k : Nat) (desc : BitVec 64) (w ctx : Nat) (h : served s k 1)
    (has : hasContext s (s.req k) ctx) :
    let r := s.req k
    let good := r.arg 0 % 4096 = 0 ∧ 4 ≤ r.arg 1 ∧ r.arg 1 ≤ 16 ∧ (r.arg 2 < 2048 ∨ r.arg 2 = 0xFFFF) ∧
      r.arg 3 % 64 = 0 ∧ r.arg 4 ≤ 1
    let owned := s.owns ctx (r.arg 0) (64 * 2 ^ r.arg 1) = true ∧ s.owns ctx (r.arg 3) 2048 = true
    let taken (w : Nat) : Prop := ∃ p ∈ s.queues, p.2.used = true ∧ p.2.state ≠ 2 ∧ p.2.window = w
    (¬ good → exec (.createQueue k desc w) s = .next (s.endRequest k 2 0)) ∧
    (good → ¬ owned → exec (.createQueue k desc w) s = .next (s.endRequest k 1 0)) ∧
    (good → owned → r.arg 4 = 1 → (∀ i < 8191, taken (i + 1)) →
      exec (.createQueue k desc w) s = .next (s.endRequest k 3 0)) ∧
    (good → owned → (r.arg 4 = 0 ∨ (1 ≤ w ∧ w ≤ 8191 ∧ ¬ taken w)) → desc.toNat % 64 = 0 →
      s.pageFree ctx desc.toNat = true → exec (.createQueue k desc w) s = .next
        ((s.makeQueue r ctx desc w).endRequest k 0 desc.toNat)) := by
  intro r good owned taken
  have run := exec_createQueue desc w h has
  dsimp only at run
  have ok : good → ¬ (!(s.req k).queueOk) = true := fun g bad => by
    rw [(Request.queueOk_iff _).mpr g] at bad
    cases bad
  have mine : owned → ¬ (!s.owns ctx ((s.req k).arg 0) (64 * 2 ^ (s.req k).arg 1) || !s.owns ctx ((s.req k).arg 3) 2048) = true := by
    rintro ⟨ring, signals⟩
    rw [ring, signals]
    decide
  refine ⟨fun bad => run.trans (congrArg _ (if_pos ?_)), fun g alien => ?_, fun g own asks full => ?_,
    fun g own room aligned free => ?_⟩
  · rw [Bool.not_eq_true']
    exact Bool.eq_false_iff.mpr fun g => bad ((Request.queueOk_iff _).mp g)
  · rw [if_neg (ok g)] at run
    refine run.trans (congrArg _ (if_pos ?_))
    rw [Bool.or_eq_true, Bool.not_eq_true', Bool.not_eq_true', ← Bool.and_eq_false_iff, Bool.eq_false_iff, Ne, Bool.and_eq_true]
    exact alien
  · rw [if_neg (ok g), if_neg (mine own)] at run
    refine run.trans (congrArg _ (if_pos ?_))
    rw [Bool.and_eq_true, beq_iff_eq, List.all_eq_true]
    exact ⟨asks, fun i hi => (s.windowTaken_iff _).mpr (full i (List.mem_range.mp hi))⟩
  · rw [if_neg (ok g), if_neg (mine own)] at run
    have windows : ¬ ((s.req k).arg 4 == 1 && (w == 0 || decide (8191 < w) || s.windowTaken w)) = true := by
      rw [Bool.and_eq_true, beq_iff_eq]
      rintro ⟨asks, barred⟩
      obtain ⟨low, high, untaken⟩ := room.resolve_left (by rw [show r.arg 4 = 1 from asks]; decide)
      have untaken' : s.windowTaken w = false := Bool.eq_false_iff.mpr fun t => untaken ((s.windowTaken_iff w).mp t)
      simp only [untaken', Bool.or_false, Bool.or_eq_true, beq_iff_eq, decide_eq_true_eq] at barred
      omega
    have free' : ¬ (desc.toNat % 64 != 0 || !s.pageFree ctx desc.toNat) = true := by
      rw [aligned, free]
      decide
    have spare : ¬ ((s.req k).arg 4 == 1 && (List.range 8191).all fun i => s.windowTaken (i + 1)) = true := by
      rw [Bool.and_eq_true, beq_iff_eq, List.all_eq_true]
      rintro ⟨asks, full⟩
      obtain ⟨low, high, untaken⟩ := room.resolve_left (by rw [show r.arg 4 = 1 from asks]; decide)
      have holds := full (w - 1) (List.mem_range.mpr (by omega))
      rw [Nat.sub_add_cancel low] at holds
      exact untaken ((s.windowTaken_iff w).mp holds)
    rw [if_neg spare, if_neg windows, if_neg free'] at run
    exact run

/-- A list of members settles a request for a communicator: no right, no agreement, a wait, or its creation (R366, R384). -/
theorem communicatorCreated (s : State) (k handle : Nat) (agree : Bool) (ms : List (BitVec 64 × BitVec 64))
    (run : exec (.createCommunicator k handle agree) s = .next (
      let r := s.req k
      let ps := s.askers r
      if (s.ranksFor r ms).isEmpty then s.endRequest k 1 0
      else if !agree || !(ps.all fun p => p.2.arg 2 == r.arg 2 && s.askedList p.2 == some ms) then s.endAll ps 2 0
      else if s.comms.any (fun c => c.handle == BitVec.ofNat 64 handle) || !((List.range ms.length).all fun i =>
          !memberHere (ms.getD i (0, 0)) || (s.ranksOf ps ms).any fun q => q.1 == i) then s
      else (s.addComms (BitVec.ofNat 64 handle) (r.arg 2) ms (s.ranksOf ps ms)).endAll ps 0 handle)) :
    let r := s.req k
    let ps := s.askers r
    let alike := ∀ p ∈ ps, p.2.arg 2 = r.arg 2 ∧ s.askedList p.2 = some ms
    let waits := (∃ c ∈ s.comms, c.handle = BitVec.ofNat 64 handle) ∨
      ∃ i < ms.length, memberHere (ms.getD i (0, 0)) = true ∧ ∀ q ∈ s.ranksOf ps ms, q.1 ≠ i
    (s.ranksFor r ms = [] → exec (.createCommunicator k handle agree) s = .next (s.endRequest k 1 0)) ∧
    (s.ranksFor r ms ≠ [] → (agree = false ∨ ¬ alike) →
      exec (.createCommunicator k handle agree) s = .next (s.endAll ps 2 0)) ∧
    (s.ranksFor r ms ≠ [] → agree = true → alike →
      (waits → exec (.createCommunicator k handle agree) s = .next s) ∧
      (¬ waits → Answers (.createCommunicator k handle agree) s fun t => (∀ p ∈ ps, t.reqs.has p.1 = false) ∧
        t.comms = s.comms ++ (s.ranksOf ps ms).map fun q => commOf (BitVec.ofNat 64 handle) (r.arg 2) ms q.1 q.2)) := by
  intro r ps alike waits
  have agreed : (ps.all fun p => p.2.arg 2 == r.arg 2 && s.askedList p.2 == some ms) = true ↔ alike := by
    simp only [List.all_eq_true, Bool.and_eq_true, beq_iff_eq]
    rfl
  have waiting : (s.comms.any (fun c => c.handle == BitVec.ofNat 64 handle) || !((List.range ms.length).all fun i =>
      !memberHere (ms.getD i (0, 0)) || (s.ranksOf ps ms).any fun q => q.1 == i)) = true ↔ waits := by
    have missing (i : Nat) : ¬ (!memberHere (ms.getD i (0, 0)) || (s.ranksOf ps ms).any fun q => q.1 == i) = true ↔
        memberHere (ms.getD i (0, 0)) = true ∧ ∀ q ∈ s.ranksOf ps ms, q.1 ≠ i := by
      rw [Bool.not_eq_true, Bool.or_eq_false_iff, Bool.not_eq_false', List.any_eq_false]
      simp only [beq_iff_eq, ne_eq]
    rw [Bool.or_eq_true, Bool.not_eq_true', List.all_eq_false]
    simp only [missing, List.any_eq_true, beq_iff_eq, List.mem_range]
    rfl
  have right : s.ranksFor r ms ≠ [] → ¬ (s.ranksFor r ms).isEmpty = true := fun some none => some (List.isEmpty_iff.mp none)
  refine ⟨fun none => run.trans (congrArg _ (if_pos (List.isEmpty_iff.mpr none))), fun some differ => ?_,
    fun some agrees same => ?_⟩
  · refine run.trans (congrArg _ ((if_neg (right some)).trans (if_pos ?_)))
    rcases differ with apart | unlike
    · rw [apart]
      rfl
    · rw [Bool.eq_false_iff.mpr fun all => unlike (agreed.mp all), Bool.not_false, Bool.or_true]
  · have together : ¬ (!agree || !(ps.all fun p => p.2.arg 2 == r.arg 2 && s.askedList p.2 == .some ms)) = true := by
      rw [agrees, agreed.mpr same]
      decide
    refine ⟨fun w => run.trans (congrArg _ ((if_neg (right some)).trans ((if_neg together).trans (if_pos (waiting.mpr w))))),
      fun ready => ⟨_, run.trans (congrArg _ ((if_neg (right some)).trans ((if_neg together).trans
        (if_neg fun w => ready (waiting.mp w))))), fun p hp => ?_, (State.endAll_result ..).2⟩⟩
    rw [Tab.has, List.any_eq_false]
    intro q hq same
    exact ((State.endAll_result ..).1 q hq).2 p hp (beq_iff_eq.mp same)

/-- Settles O55: each request is served by one chain of tests, and its end leaves what it was asked for. -/
theorem servicesAndRequests : Obligations.ServicesAndRequests := by
  unfold Obligations.ServicesAndRequests
  refine ⟨fun s k c asked free => ?_, ⟨fun s k c asked service free unseen => ?_, fun s ws => ?_, fun s k st res => ?_⟩,
    ⟨fun s k desc w ctx h has => ?_, fun s k h => ?_, fun s k h => ?_⟩, fun s k handle agree h => ?_, fun s k h => ?_⟩
  · obtain ⟨reads, writes⟩ := servicesReply s k c asked free
    exact ⟨reads, writes, fun service line read => exec_debuggerLog asked free service read⟩
  · have run := exec_executiveRequest_wave asked free service unseen
    refine ⟨fun ws aligned read => ?_, fun barred => ?_⟩
    · rw [if_pos (beq_iff_eq.mpr aligned), read] at run
      exact ⟨fun good => run.trans (congrArg _ (State.takeRequest_wave_good _ _ _ _ _ _ _ good)),
        fun bad => run.trans (congrArg _ (State.takeRequest_wave_bad _ _ _ _ _ _ _ bad))⟩
    · have none : (if c.arg.toNat % 64 == 0 then s.ctxWords (s.ctxOf (s.wave k)) c.arg.toNat 8 else none) = none := by
        rcases barred with askew | unread
        · exact if_neg fun aligned => askew (beq_iff_eq.mp aligned)
        · rw [unread, ite_self]
      rw [none] at run
      exact run
  · intro q free used due read
    have run := exec_executiveRequest_host free used due read
    have written := State.putDesc_onlyWrites (s.setQueue 0 { s.queue 0 with ridx := (s.queue 0).ridx + 1 }) 0
    have reqs := written.keepsDesk.reqs
    have queue := written.queue 0
    have time : (State.putDesc _ 0).time = s.time := (congrArg State.time written.rest :)
    have nextOp : (State.putDesc _ 0).nextOp = s.nextOp := (congrArg State.nextOp written.rest :)
    rw [State.queue_setQueue_same] at queue
    generalize State.putDesc _ 0 = u at run reqs queue time nextOp
    obtain ⟨opened, refused⟩ := u.takeRequest_host (q.base + 64 * (q.ridx % 2 ^ q.log2n)) physCtx
      (bits (schWord ws 7) 31 0) ws
    rw [reqs, nextOp, time, queue] at opened
    rw [reqs, nextOp, queue] at refused
    refine ⟨fun good => ⟨_, run, ?_⟩, fun bad alone => ⟨_, run, ?_⟩⟩
    · obtain ⟨queue', reqs'⟩ := opened good
      exact ⟨congrArg Queue.ridx queue', reqs'⟩
    · obtain ⟨queue', reqs'⟩ := refused bad alone
      exact ⟨congrArg Queue.ridx queue', reqs'⟩
  · refine ⟨s.endRequest_done k st res, fun none host unmasked => ?_⟩
    rw [s.endRequest_of_noneBad k st res none]
    exact s.endOne_msi k st res host unmasked
  · obtain ⟨bad, alien, full, made⟩ := queueCreated s k desc w ctx h has
    refine ⟨bad, alien, full, fun good own room aligned free => ⟨_, made good own room aligned free, ?_⟩⟩
    obtain ⟨reqs, queue⟩ := s.makeQueue_result (s.req k) ctx desc w
    refine ⟨requestDone_of_reqs reqs (State.endRequest_done ..), s.nextOp + 1, Nat.le_succ _, ?_⟩
    dsimp only
    rw [(State.endRequest_holdings ..).queue, queue]
    exact ⟨rfl, rfl, rfl, rfl, rfl, rfl, rfl, rfl, rfl, rfl, fun asks => if_pos (beq_iff_eq.mpr asks)⟩
  · have run := exec_destroyQueue h
    dsimp only at run
    refine ⟨fun alien => run.trans (congrArg _ (if_pos (by rw [alien]; rfl))), fun own => ?_⟩
    rw [if_neg (by rw [own]; decide)] at run
    by_cases done : ((s.queue ((s.req k).arg 0)).packets.all fun p => p.done) = true
    · rw [if_pos done] at run
      have written := State.putDesc_onlyWrites (s.setQueue ((s.req k).arg 0)
        { s.queue ((s.req k).arg 0) with state := 2, closing := true }) ((s.req k).arg 0)
      have queue := written.queue ((s.req k).arg 0)
      rw [State.queue_setQueue_same] at queue
      refine ⟨_, run, ?_⟩
      dsimp only
      rw [(State.endRequest_holdings ..).queue, queue]
      refine ⟨rfl, fun _ => ⟨rfl, requestDone_of_reqs written.keepsDesk.reqs (State.endRequest_done ..)⟩, ?_⟩
      rintro ⟨p, hp, undone⟩
      exact absurd ((List.all_eq_true.mp done p hp).symm.trans undone) (by decide)
    · rw [if_neg done] at run
      refine ⟨_, run, ?_⟩
      dsimp only
      rw [State.queue_setQueue_same]
      exact ⟨rfl, fun all => absurd (List.all_eq_true.mpr all) done, fun _ => ⟨rfl, rfl⟩⟩
  · have run := exec_restartQueue h
    dsimp only at run
    refine ⟨fun wide => run.trans (congrArg _ (if_pos wide)), fun narrow barred => ?_, fun narrow own halted => ?_⟩
    · rw [if_neg (Nat.not_lt.mpr narrow)] at run
      refine run.trans (congrArg _ (if_pos ?_))
      rcases barred with alien | runs
      · rw [alien]
        rfl
      · rw [bne_iff_ne.mpr runs, Bool.or_true]
    · rw [if_neg (Nat.not_lt.mpr narrow), if_neg (by rw [own, halted]; decide)] at run
      obtain ⟨reqs, least, all⟩ := s.rerun_result ((s.req k).arg 0) ((s.req k).arg 1)
      refine ⟨_, run, requestDone_of_reqs reqs (State.endRequest_done ..), ?_⟩
      rw [(State.endRequest_holdings ..).queue]
      exact ⟨all, least⟩
  · have run := exec_createCommunicator handle agree h
    have late := exec_communicatorTimeout h
    refine ⟨fun unread => run.trans (by rw [unread]), fun ms read => ?_, fun due => ?_, fun early => ?_⟩
    · rw [read] at run
      dsimp only at run
      exact communicatorCreated s k handle agree ms run
    · obtain ⟨p, hp, old⟩ := due
      exact late.trans (congrArg _ (if_pos (List.any_eq_true.mpr ⟨p, hp, decide_eq_true old⟩)))
    · refine late.trans (congrArg _ (if_neg fun any => ?_))
      obtain ⟨p, hp, old⟩ := List.any_eq_true.mp any
      exact absurd (of_decide_eq_true old) (Nat.not_le.mpr (early p hp))
  · have run := exec_destroyCommunicator h
    dsimp only at run
    refine ⟨fun barred => run.trans (congrArg _ (if_pos ?_)), fun speaks idle => ?_⟩
    · rcases barred with mute | busy
      · rw [show (s.comms.any fun c => c.handle == BitVec.ofNat 64 ((s.req k).arg 0) && s.speaksOf (s.req k) c) = false from
          List.any_eq_false.mpr fun c hc both => mute c hc (by simpa using both)]
        rfl
      · obtain ⟨p, hp, same⟩ := busy
        rw [show (s.colls.any fun p => p.2.handle == BitVec.ofNat 64 ((s.req k).arg 0)) = true from
          List.any_eq_true.mpr ⟨p, hp, beq_iff_eq.mpr same⟩, Bool.or_true]
    · obtain ⟨c, hc, same, speaks⟩ := speaks
      have member : (s.comms.any fun c => c.handle == BitVec.ofNat 64 ((s.req k).arg 0) && s.speaksOf (s.req k) c) = true :=
        List.any_eq_true.mpr ⟨c, hc, by rw [beq_iff_eq.mpr same, speaks]; rfl⟩
      have still : (s.colls.any fun p => p.2.handle == BitVec.ofNat 64 ((s.req k).arg 0)) = false :=
        List.any_eq_false.mpr fun p hp same => idle p hp (beq_iff_eq.mp same)
      rw [if_neg (by rw [member, still]; decide)] at run
      exact ⟨_, run, (State.endRequest_holdings ..).comms, requestDone_of_reqs rfl (State.endRequest_done ..)⟩

end Sys2Proof.Proofs
end

section
/-! Proofs: a verified image boots the control cores, and ownership leaves with the owner's signature (R373, R374, R386,
R387). -/

namespace Sys2Proof.Machine

open Sys2Proof.Claims

/-! ## Where the executive writes -/

/-- From `s` to `t` no byte of home memory changes outside a range. -/
structure WritesIn (lo hi : Nat) (s t : State) : Prop where
  wf : s.mem.wf = true → t.mem.wf = true
  kept : s.mem.wf = true → ∀ x, (x < lo ∨ hi ≤ x) → t.mem.get x = s.mem.get x

theorem writesIn_of_mem {s t : State} (lo hi : Nat) (mem : t.mem = s.mem) : WritesIn lo hi s t := by
  constructor <;> rw [mem]
  · exact id
  · exact fun _ _ _ => rfl

theorem WritesIn.trans {lo hi : Nat} {s t u : State} (h : WritesIn lo hi s t) (g : WritesIn lo hi t u) : WritesIn lo hi s u :=
  ⟨fun wf => g.wf (h.wf wf), fun wf x out => (g.kept (h.wf wf) x out).trans (h.kept wf x out)⟩

theorem WritesIn.mono {lo hi lo' hi' : Nat} {s t : State} (h : WritesIn lo hi s t) (low : lo' ≤ lo) (high : hi ≤ hi') :
    WritesIn lo' hi' s t :=
  ⟨h.wf, fun wf x out => h.kept wf x (by omega)⟩

theorem writesIn_foldl {lo hi : Nat} {α : Type} (f : State → α → State) (as : List α)
    (h : ∀ s, ∀ a ∈ as, WritesIn lo hi s (f s a)) (s : State) : WritesIn lo hi s (as.foldl f s) := by
  induction as generalizing s with
  | nil => exact writesIn_of_mem lo hi rfl
  | cons a as ih =>
    exact (h s a List.mem_cons_self).trans (ih (fun s b hb => h s b (List.mem_cons_of_mem _ hb)) _)

theorem State.sysWrite_writesIn (s : State) (pa : Nat) (bs : List Byte) :
    WritesIn pa (pa + bs.length) s (s.sysWrite pa bs) := by
  constructor <;> rw [State.sysWrite_mem]
  · exact fun wf => Memory.wf_write _ wf pa bs
  · exact fun wf x out => Memory.get_write_outside _ wf pa bs x out

/-- A piece of a write to a physical address is written there, or leaves for another device. -/
theorem State.ctxPiece_phys_writesIn (s : State) (pa : Nat) (bs : List Byte) :
    WritesIn pa (pa + bs.length) s (s.ctxPiece physCtx pa bs false) := by
  have piece : s.ctxPiece physCtx pa bs false = if bit pa 55 then s.sendWrite pa bs else s.sysWrite pa bs := rfl
  rw [piece]
  split
  · exact writesIn_of_mem _ _ rfl
  · exact s.sysWrite_writesIn pa bs

theorem pieces_within {va : Nat} {bs : List Byte} {p : Nat × List Byte} (h : p ∈ pieces va bs) :
    va ≤ p.1 ∧ (p.1 + p.2.length ≤ va + bs.length ∨ p.2 = []) := by
  unfold pieces at h
  split at h
  · cases h
  · obtain ⟨i, -, rfl⟩ := List.mem_map.mp h
    refine ⟨Nat.le_add_right .., ?_⟩
    dsimp only
    rw [← List.length_eq_zero_iff, List.length_take, List.length_drop]
    omega

theorem State.ctxWrite_phys_writesIn (s : State) (pa : Nat) (bs : List Byte) :
    WritesIn pa (pa + bs.length) s (s.ctxWrite physCtx pa bs) := by
  refine writesIn_foldl (fun (s : State) (p : Nat × List Byte) => s.ctxPiece physCtx p.1 p.2 false) _ (fun s p hp => ?_) s
  obtain ⟨low, high | none⟩ := pieces_within hp
  · exact (s.ctxPiece_phys_writesIn p.1 p.2).mono low high
  · have written := s.ctxPiece_phys_writesIn p.1 p.2
    rw [none] at written ⊢
    exact ⟨written.wf, fun wf x _ => written.kept wf x (by simp only [List.length_nil]; omega)⟩

theorem State.putDesc_phys_writesIn (s : State) (qid : Nat) (phys : (s.queue qid).ctx = physCtx) :
    WritesIn (s.queue qid).desc ((s.queue qid).desc + 64) s (s.putDesc qid) := by
  unfold State.putDesc
  dsimp only
  rw [phys]
  refine writesIn_foldl (fun (r : State) (w : Nat × Nat) =>
    r.ctxWrite physCtx ((s.queue qid).desc + 8 * w.1) (leBytes 8 w.2)) _ (fun r w hw => ?_) s
  have word : w.1 ≤ 7 := (by decide : ∀ x ∈ [0, 1, 3, 4, 5, 6, 7], x ≤ 7) w.1
    (List.mem_map_of_mem (f := Prod.fst) hw)
  have length : (leBytes 8 w.2).length = 8 := by simp [leBytes]
  have written := r.ctxWrite_phys_writesIn ((s.queue qid).desc + 8 * w.1) (leBytes 8 w.2)
  rw [length] at written
  exact written.mono (by omega) (by omega)

theorem State.clearTable_writesIn (s : State) (t : Nat) : WritesIn t (t + 4096) s (s.clearTable t) := by
  refine writesIn_foldl (fun (s : State) i => s.sysWrite (t + 8 * i) (leBytes 8 0)) _ (fun s i hi => ?_) s
  have within := List.mem_range.mp (List.mem_of_mem_filter hi)
  have length : (leBytes 8 0).length = 8 := by simp [leBytes]
  have written := s.sysWrite_writesIn (t + 8 * i) (leBytes 8 0)
  rw [length] at written
  exact written.mono (by omega) (by omega)

/-! ## Control cores (R373, R374) -/

/-- Lane 0 alone of a control core's wave runs, at the load address. -/
theorem controlLanes_get (pc : BitVec 64) : (controlLanes pc).get .absent 0 = { Lane.absent with pc := pc, exited := false } ∧
    ∀ l, 1 ≤ l → ((controlLanes pc).get .absent l).exited = true := by
  refine ⟨rfl, fun l other => ?_⟩
  by_cases within : l < 16
  · interval_cases l <;> rfl
  · have beyond : (controlLanes pc).get .absent l = Lane.absent := by
      by_contra other
      obtain ⟨i, hi, eq⟩ := List.mem_map.mp (Tab.mem_of_get_ne other)
      exact within ((Prod.mk.inj eq).1 ▸ List.mem_range.mp hi)
    rw [beyond]
    rfl

/-- The wave of a control core that starts. -/
def controlWave (c : Nat) (pc : BitVec 64) : Wave :=
  { Wave.absent with
    used := true, block := 1000000 + c, control := some c, lanes := controlLanes pc, retired := false }

/-- The first control cores start. -/
def State.startControls (s : State) (pc : BitVec 64) (n : Nat) : State :=
  (List.range n).foldl (fun s c => s.startControl c pc) s

theorem State.startControls_succ (s : State) (pc : BitVec 64) (n : Nat) :
    s.startControls pc (n + 1) = (s.startControls pc n).startControl n pc := by
  unfold State.startControls
  rw [List.range_succ, List.foldl_append]
  rfl

/-- The control cores that have started, each with a wave of its own; memory, power and boot are as they were. -/
structure Started (s t : State) (pc : BitVec 64) (n : Nat) : Prop where
  ctls : ∀ c < n, t.ctl c = { CtlCore.start with wave := s.nextOp + c }
  waves : ∀ c < n, t.wave (s.nextOp + c) = controlWave c pc
  nextOp : t.nextOp = s.nextOp + n
  rest : t = { s with waves := t.waves, ctls := t.ctls, nextOp := t.nextOp }

theorem State.startControl_ctl (s : State) (c : Nat) (pc : BitVec 64) (d : Nat) : (s.startControl c pc).ctl d =
    if d = c then { CtlCore.start with wave := s.nextOp } else s.ctl d := State.ctl_setCtl ..

theorem State.startControl_wave (s : State) (c : Nat) (pc : BitVec 64) (k : Nat) : (s.startControl c pc).wave k =
    if k = s.nextOp then controlWave c pc else s.wave k := State.wave_setWave ..

theorem State.startControls_started (s : State) (pc : BitVec 64) (n : Nat) : Started s (s.startControls pc n) pc n := by
  induction n with
  | zero => exact ⟨fun _ h => absurd h (Nat.not_lt_zero _), fun _ h => absurd h (Nat.not_lt_zero _), rfl, rfl⟩
  | succ n ih =>
    rw [State.startControls_succ]
    refine ⟨fun c within => ?_, fun c within => ?_, ?_, ?_⟩
    · rw [State.startControl_ctl, ih.nextOp]
      split
      · next same => rw [same]
      · next other => exact ih.ctls c (by omega)
    · rw [State.startControl_wave, ih.nextOp]
      by_cases same : c = n
      · rw [if_pos (by rw [same]), same]
      · rw [if_neg (by omega)]
        exact ih.waves c (by omega)
    · show (s.startControls pc n).nextOp + 1 = _
      rw [ih.nextOp]
      rfl
    · have rest := ih.rest
      generalize s.startControls pc n = u at rest
      rw [rest]
      rfl

/-! ## The executive's own memory (R372, R382) -/

/-- Where the aperture's table stands. -/
def State.barRoot (s : State) : Nat := (s.context barCtx).root

/-- What the executive sets up as it starts: its request queue and the aperture's table, in memory of its own. -/
structure ExecutiveUp (s t : State) : Prop where
  ring : (t.queue 0).base ≤ (t.queue 0).desc
  waves : SameWaves s t
  ctls : t.ctls = s.ctls
  power : t.power = s.power
  wf : s.mem.wf = true → ∀ x, (x < (t.queue 0).base ∨ (t.queue 0).desc + 64 ≤ x) →
    (x < t.barRoot ∨ t.barRoot + 4096 ≤ x) → t.mem.get x = s.mem.get x

/-- The aperture's table stands at `t`, cleared. -/
def State.makeAperture (s : State) (a size t : Nat) : State :=
  let u := ((s.keep 1 a size).keep 0 t 4096).clearTable t
  { u with contexts := u.contexts.put barCtx ⟨t, 2 ^ 32, []⟩, beat := u.time }

theorem State.setQueue_context (s : State) (k : Nat) (q : Queue) (ctx : Nat) : (s.setQueue k q).context ctx = s.context ctx :=
  rfl

theorem State.makeAperture_context (s : State) (a size t : Nat) :
    (s.makeAperture a size t).context barCtx = ⟨t, 2 ^ 32, []⟩ := by
  unfold State.makeAperture State.context
  dsimp only
  exact Tab.get_put_same ..

/-- The executive's request queue at `a`, its descriptor after its ring. -/
def requestQueue (a size n : Nat) : Queue :=
  { Queue.absent with
    used := true, state := 0, ctx := physCtx, window := 0, vector := 0, desc := a + size, base := a, log2n := n }

theorem State.startExecutive_eq (s : State) : ∃ a size n t, s.startExecutive =
    ((s.makeAperture a (size + 64) t).setQueue 0 (requestQueue a size n)).putDesc 0 := by
  unfold State.startExecutive
  dsimp only
  generalize 4 + Config.execPlace 4 0 % 13 = n
  generalize 64 * 2 ^ n = size
  generalize s.site 3 0 4096 (size + 64) = a
  generalize State.site (s.keep 1 a (size + 64)) 2 barCtx 256 4096 = t
  refine ⟨a, size, n, t, ?_⟩
  unfold State.makeAperture requestQueue
  dsimp only

theorem State.makeAperture_rest (s : State) (a size t k : Nat) (q : Queue) : (s.makeAperture a size t).setQueue k q =
    { ((s.keep 1 a size).keep 0 t 4096).clearTable t with
      contexts := ((s.makeAperture a size t).setQueue k q).contexts
      beat := ((s.makeAperture a size t).setQueue k q).beat
      queues := ((s.makeAperture a size t).setQueue k q).queues } := by
  unfold State.makeAperture
  generalize ((s.keep 1 a size).keep 0 t 4096).clearTable t = u
  rfl

/-- With the aperture's table made and a request queue set, the queue's descriptor is written. -/
theorem putDesc_up {s t u : State} (a size n r : Nat) (table : OnlyWrites s t) (tableIn : WritesIn r (r + 4096) s t)
    (stands : u.barRoot = r) (made : u = { t with contexts := u.contexts, beat := u.beat, queues := u.queues })
    (queue : u.queue 0 = requestQueue a size n) : ExecutiveUp s (u.putDesc 0) := by
  have written := State.putDesc_onlyWrites u 0
  have descIn := State.putDesc_phys_writesIn u 0 (by rw [queue]; rfl)
  have after : (u.putDesc 0).queue 0 = requestQueue a size n := (written.queue 0).trans queue
  have root : (u.putDesc 0).barRoot = u.barRoot :=
    congrArg (fun cs : Tab Context => (cs.get Context.absent barCtx).root) (congrArg State.contexts written.rest :)
  have mem : u.mem = t.mem := (congrArg State.mem made :)
  have waves : u.waves = t.waves := (congrArg State.waves made :)
  rw [queue] at descIn
  constructor
  · rw [after]
    exact Nat.le_add_right ..
  · refine fun k => SameWave.trans (table.waves k) ?_
    have same : u.wave k = t.wave k := congrArg (fun ws : Tab Wave => ws.get Wave.absent k) waves
    exact same ▸ written.waves k
  · have made : u.ctls = t.ctls := (congrArg State.ctls made :)
    exact (congrArg State.ctls written.rest).trans (made.trans (congrArg State.ctls table.rest :))
  · have made : u.power = t.power := (congrArg State.power made :)
    exact (congrArg State.power written.rest).trans (made.trans (congrArg State.power table.rest :))
  · intro wf x ring tables
    rw [after] at ring
    rw [root, stands] at tables
    refine (descIn.kept (mem ▸ tableIn.wf wf) x (ring.imp (Nat.lt_of_lt_of_le · (Nat.le_add_right ..)) id)).trans ?_
    rw [mem]
    exact tableIn.kept wf x tables

theorem State.startExecutive_up (s : State) : ExecutiveUp s s.startExecutive := by
  obtain ⟨a, size, n, t, eq⟩ := s.startExecutive_eq
  rw [eq]
  have root : ((s.makeAperture a (size + 64) t).setQueue 0 (requestQueue a size n)).barRoot = t := by
    unfold State.barRoot
    rw [State.setQueue_context, State.makeAperture_context]
  have tableIn := State.clearTable_writesIn ((s.keep 1 a (size + 64)).keep 0 t 4096) t
  obtain ⟨ring, waves, ctls, power, wf⟩ := putDesc_up a size n t (State.clearTable_onlyWrites ..) tableIn root
    (s.makeAperture_rest ..) (State.queue_setQueue_same ..)
  exact ⟨ring, waves, ctls, power, wf⟩

/-! ## The body of an image (R386) -/

theorem State.loadImage_power (s : State) (img : List Byte) : (s.loadImage img).power = s.power :=
  (congrArg State.power ((s.keep 1 (bits (imgWord img 24 8) 38 0) (img.length - 512)).sysWrite_onlyWrites _ _).rest :)

theorem State.loadImage_mem (s : State) (img : List Byte) :
    (s.loadImage img).mem = s.mem.write (bits (imgWord img 24 8) 38 0) (img.drop 512) := State.sysWrite_mem ..

/-! ## The ROM (R386, R387) -/

/-- Memory as the ROM finds it, with power on: cleared at the first boot after a transfer (R387). -/
def State.powered (s : State) : State :=
  let u := { s with power := { s.power with on := true } }
  if s.boot.clear then { u.cleared with boot := { s.boot with clear := false } } else u

/-- An image is loaded, and each control core starts at its load address. -/
def State.started (s : State) (img : List Byte) : State :=
  (s.loadImage img).startControls (BitVec.ofNat 64 (imgWord img 24 8)) 16

/-- What a first boot comes to: an image that passes starts, and one that fails is reported. -/
theorem execBoot_first {s : State} (img : List Byte) (first : s.boot.booted = false) : exec (.boot img) s = .next (
    if s.powered.boot.accepts img then
      { (s.powered.started img).startExecutive with boot := { (s.powered.started img).boot with
          booted := true, failed := false, owner := (s.powered.started img).boot.ownerKey img, sealing := true } }
    else { s.powered with boot := { s.powered.boot with failed := true } }.countErrors 4 1) := by
  show Host.Outcome.next _ = _
  rw [if_neg (ne_true_of_eq_false first)]
  rfl

theorem execBoot_further {s : State} (img : List Byte) (booted : s.boot.booted = true) : exec (.boot img) s =
    .next (if s.boot.accepts img then s.loadImage img else s.countErrors 4 1) := by
  show Host.Outcome.next _ = _
  rw [if_pos booted]

theorem State.powered_boot (s : State) : s.powered.boot = { s.boot with clear := false } := by
  unfold State.powered
  dsimp only
  split
  · rfl
  · next kept =>
    rw [Bool.not_eq_true] at kept
    rw [← kept]

theorem State.powered_power (s : State) : s.powered.power = { s.power with on := true } := by
  unfold State.powered
  dsimp only
  split <;> rfl

theorem State.powered_waves (s : State) : s.powered.waves = s.waves := by
  unfold State.powered
  dsimp only
  split <;> rfl

theorem State.powered_mem (s : State) : s.powered.mem = if s.boot.clear then [] else s.mem := by
  unfold State.powered
  dsimp only
  split <;> rfl

/-- Whether an image is accepted does not depend on the pending clearing of memory. -/
theorem State.powered_accepts (s : State) (img : List Byte) : s.powered.boot.accepts img = s.boot.accepts img := by
  rw [State.powered_boot]
  rfl

theorem State.powered_wf (s : State) (wf : s.mem.wf = true) : s.powered.mem.wf = true := by
  rw [State.powered_mem]
  split
  · rfl
  · exact wf

theorem State.loadImage_wf (s : State) (img : List Byte) (wf : s.mem.wf = true) : (s.loadImage img).mem.wf = true := by
  rw [State.loadImage_mem]
  exact Memory.wf_write _ wf ..

/-- The body of an image is there. -/
theorem State.loadImage_get (s : State) (img : List Byte) (wf : s.mem.wf = true) {i : Nat} (within : i < (img.drop 512).length) :
    (s.loadImage img).mem.get (bits (imgWord img 24 8) 38 0 + i) = (img.drop 512).getD i 0 := by
  rw [State.loadImage_mem, Memory.get_write_inside _ wf _ _ _ within, List.getD_eq_getElem _ _ within]

theorem State.loadImage_boot (s : State) (img : List Byte) : (s.loadImage img).boot = s.boot :=
  (congrArg State.boot ((s.keep 1 (bits (imgWord img 24 8) 38 0) (img.length - 512)).sysWrite_onlyWrites _ _).rest :)

/-- What a started image leaves: the device's power, boot and memory are those with the image loaded. -/
theorem State.started_rest (s : State) (img : List Byte) : (s.started img).boot = s.boot ∧
    (s.started img).power = s.power ∧ (s.started img).mem = (s.loadImage img).mem := by
  have rest := ((s.loadImage img).startControls_started (BitVec.ofNat 64 (imgWord img 24 8)) 16).rest
  exact ⟨(congrArg State.boot rest :).trans (s.loadImage_boot img),
    (congrArg State.power rest :).trans (s.loadImage_power img), (congrArg State.mem rest :)⟩

/-- The wave of a started control core, once the executive's memory is set up: its lane 0 runs at the load address. -/
theorem State.started_control (s : State) (img : List Byte) {t : State} (up : ExecutiveUp (s.started img) t) {c : Nat}
    (core : c < 16) : (t.ctl c).ctx = 0 ∧ (t.ctl c).event = 0 ∧
      (t.wave (t.ctl c).wave).control = some c ∧ (t.wave (t.ctl c).wave).used = true ∧
      ((t.wave (t.ctl c).wave).lane 0).pc = BitVec.ofNat 64 (imgWord img 24 8) ∧
      ((t.wave (t.ctl c).wave).lane 0).exited = false ∧
      ∀ l, 1 ≤ l → ((t.wave (t.ctl c).wave).lane l).exited = true := by
  have starts := (s.loadImage img).startControls_started (BitVec.ofNat 64 (imgWord img 24 8)) 16
  have ctl : t.ctl c = { CtlCore.start with wave := (s.loadImage img).nextOp + c } :=
    (congrArg (fun cs : Tab CtlCore => cs.get CtlCore.start c) up.ctls).trans (starts.ctls c core)
  have wave : SameWave (controlWave c (BitVec.ofNat 64 (imgWord img 24 8))) (t.wave (t.ctl c).wave) := by
    rw [ctl, ← starts.waves c core]
    exact up.waves _
  obtain ⟨first, others⟩ := controlLanes_get (BitVec.ofNat 64 (imgWord img 24 8))
  refine ⟨by rw [ctl]; rfl, by rw [ctl]; rfl, (congrArg Wave.control wave :), (congrArg Wave.used wave :), ?_, ?_, ?_⟩
  · rw [SameWave.lane wave]
    exact congrArg Lane.pc first
  · rw [SameWave.lane wave]
    exact congrArg Lane.exited first
  · intro l other
    rw [SameWave.lane wave]
    exact others l other

/-! ## Ownership transfers (R387) -/

theorem execOwnershipTransfer_owned {s : State} {k : List Byte} (nonce req sig : List Byte) (owned : s.boot.owner = some k) :
    exec (.ownershipTransfer nonce req sig) s = .next (
      if !s.boot.booted && nonce == s.boot.nonce && req == Config.serial ++ nonce && Config.ed448Verify k req sig then
        { s with boot := { s.boot with owner := none, sealing := false, clear := true, nonces := s.boot.nonces + 1 } }
      else s) := by
  show Host.Outcome.next _ = _
  rw [owned]

theorem execOwnershipTransfer_unowned {s : State} (nonce req sig : List Byte) (unowned : s.boot.owner = none) :
    exec (.ownershipTransfer nonce req sig) s = .next s := by
  show Host.Outcome.next _ = _
  rw [unowned]

end Sys2Proof.Machine

namespace Sys2Proof.Proofs

open Sys2Proof.Machine Sys2Proof.Claims

/-- R386, R387: a first boot with an image that passes every check. -/
theorem boot_accepted {s : State} (img : List Byte) (first : s.boot.booted = false) (passes : s.boot.accepts img = true) :
    Answers (.boot img) s fun t => t.boot.booted = true ∧ t.boot.failed = false ∧
      t.boot.owner = s.boot.ownerKey img ∧ t.boot.clear = false ∧ t.power.on = true ∧
      (∀ c < 16, (t.ctl c).ctx = 0 ∧ (t.ctl c).event = 0 ∧
        let w := t.wave (t.ctl c).wave
        w.control = some c ∧ w.used = true ∧ (w.lane 0).pc = BitVec.ofNat 64 (imgWord img 24 8) ∧
        (w.lane 0).exited = false ∧ ∀ l, 1 ≤ l → (w.lane l).exited = true) ∧
      (s.mem.wf = true → (let q := t.queue 0;
          q.desc + 64 ≤ bits (imgWord img 24 8) 38 0 ∨ bits (imgWord img 24 8) 38 0 + (img.drop 512).length ≤ q.base) →
        (let root := (t.context barCtx).root;
          root + 4096 ≤ bits (imgWord img 24 8) 38 0 ∨ bits (imgWord img 24 8) 38 0 + (img.drop 512).length ≤ root) →
        ∀ i < (img.drop 512).length, t.mem.get (bits (imgWord img 24 8) 38 0 + i) = (img.drop 512).getD i 0) := by
  refine ⟨_, (execBoot_first img first).trans (congrArg _ (if_pos ((s.powered_accepts img).trans passes))), ?_⟩
  obtain ⟨boot, power, mem⟩ := s.powered.started_rest img
  have up := (s.powered.started img).startExecutive_up
  have control (c : Nat) (core : c < 16) := s.powered.started_control img up core
  generalize (s.powered.started img).startExecutive = t at up control ⊢
  generalize s.powered.started img = u at boot power mem up ⊢
  refine ⟨rfl, rfl, ?_, ?_, ?_, control, ?_⟩
  · show u.boot.ownerKey img = _
    rw [boot, State.powered_boot]
    rfl
  · show u.boot.clear = _
    rw [boot, State.powered_boot]
  · show t.power.on = _
    rw [up.power, power, State.powered_power]
  · intro wf ring table i within
    refine (up.wf (mem ▸ s.powered.loadImage_wf img (s.powered_wf wf)) _ ?_ ?_).trans ?_
    · exact ring.elim (fun below => .inr (Nat.le_trans below (Nat.le_add_right ..)))
        (fun above => .inl (Nat.lt_of_lt_of_le (by omega) above))
    · exact table.elim (fun below => .inr (Nat.le_trans below (Nat.le_add_right ..)))
        (fun above => .inl (Nat.lt_of_lt_of_le (by omega) above))
    · rw [mem]
      exact s.powered.loadImage_get img (s.powered_wf wf) within

/-- R386: a first boot with an image that fails a check. -/
theorem boot_rejected {s : State} (img : List Byte) (first : s.boot.booted = false) (fails : s.boot.accepts img = false) :
    Answers (.boot img) s fun t => t.boot.booted = false ∧ t.boot.failed = true ∧ t.boot.owner = s.boot.owner ∧
      t.waves = s.waves ∧ t.power.counts.get 0 4 = s.power.counts.get 0 4 + 1 ∧
      (s.boot.clear = true → t.mem = []) ∧ (s.boot.clear = false → t.mem = s.mem) := by
  refine ⟨_, (execBoot_first img first).trans
    (congrArg _ (if_neg (ne_true_of_eq_false ((s.powered_accepts img).trans fails)))), ?_⟩
  refine ⟨?_, rfl, ?_, s.powered_waves, ?_, ?_, ?_⟩
  · exact (congrArg BootState.booted s.powered_boot :).trans first
  · exact (congrArg BootState.owner s.powered_boot :)
  · refine (Tab.get_put_same ..).trans ?_
    show s.powered.power.counts.get 0 4 + 1 = _
    rw [State.powered_power]
  · exact fun pending => s.powered_mem.trans (if_pos pending)
  · exact fun none => s.powered_mem.trans (if_neg (ne_true_of_eq_false none))

/-- R387: a transfer with the owner's signature over serial number and nonce. -/
theorem transfer_verified {s : State} {k nonce req sig : List Byte} (first : s.boot.booted = false)
    (owned : s.boot.owner = some k) (fresh : nonce = s.boot.nonce) (about : req = Config.serial ++ nonce)
    (signed : Config.ed448Verify k req sig = true) : Answers (.ownershipTransfer nonce req sig) s fun t =>
      t.boot.owner = none ∧ t.boot.sealing = false ∧ t.boot.clear = true ∧ t.boot.nonces = s.boot.nonces + 1 ∧
      t.mem = s.mem := by
  refine ⟨_, (execOwnershipTransfer_owned nonce req sig owned).trans (congrArg _ (if_pos ?_)), rfl, rfl, rfl, rfl, rfl⟩
  rw [first, signed, ← fresh, ← about]
  simp

/-- R387: a transfer that does not verify changes nothing. -/
theorem transfer_refused {s : State} {nonce req sig : List Byte}
    (bad : s.boot.booted = true ∨ s.boot.owner = none ∨ nonce ≠ s.boot.nonce ∨ req ≠ Config.serial ++ nonce ∨
      ∃ k, s.boot.owner = some k ∧ Config.ed448Verify k req sig = false) :
    exec (.ownershipTransfer nonce req sig) s = .next s := by
  cases owned : s.boot.owner with
  | none => exact execOwnershipTransfer_unowned nonce req sig owned
  | some k =>
    refine (execOwnershipTransfer_owned nonce req sig owned).trans (congrArg _ (if_neg fun passes => ?_))
    simp only [Bool.and_eq_true, Bool.not_eq_true', beq_iff_eq] at passes
    obtain ⟨⟨⟨first, fresh⟩, about⟩, signed⟩ := passes
    obtain booted | none | stale | other | ⟨k', owned', unsigned⟩ := bad
    · exact absurd booted (ne_true_of_eq_false first)
    · exact absurd (none.symm.trans owned) (by simp)
    · exact stale fresh
    · exact other about
    · rw [owned] at owned'
      cases owned'
      exact absurd signed (ne_true_of_eq_false unsigned)

/-- Settles O59, by what a boot and a transfer come to; the executive's own memory is apart from the image's. -/
theorem bootAndOwnership : Obligations.BootAndOwnership := by
  unfold Obligations.BootAndOwnership
  refine ⟨fun s img => ⟨boot_accepted img, boot_rejected img, fun booted => ⟨fun passes => ?_, fun fails => ?_⟩⟩,
    fun s nonce req sig => ⟨fun k first owned fresh about signed => transfer_verified first owned fresh about signed,
      transfer_refused⟩⟩
  · exact (execBoot_further img booted).trans (congrArg _ (if_pos passes))
  · exact (execBoot_further img booted).trans (congrArg _ (if_neg (ne_true_of_eq_false fails)))

end Sys2Proof.Proofs
end

section
/-! SUPPORT. What engines that stop leave of the executive's tables and of gangs' standing (R294, R338, R339): a palp
command's reads, writes, waits and end, and a wave's release. -/

namespace Sys2Proof.Machine

open Sys2Proof.Claims

/-- A gang that stands where it stood is set. -/
theorem State.setGang_keepsDesk (s : State) (g : Nat) (q : Gang) (stands : q.standing = (s.gang g).standing) :
    KeepsDesk s (s.setGang g q) := by
  refine ⟨rfl, fun j => ?_⟩
  rw [State.gang_setGang]
  split
  · next same => rw [stands, same]
  · rfl

/-- A run of actions that also collect something. -/
theorem keepsDesk_foldl_fst {α β : Type} (f : State × β → α → State × β) (h : ∀ r a, KeepsDesk r.1 (f r a).1) (as : List α)
    (r : State × β) : KeepsDesk r.1 (as.foldl f r).1 := by
  induction as generalizing r with
  | nil => exact keepsDesk_refl r.1
  | cons a as ih => exact (h r a).trans (ih _)

/-! ## Names and barriers -/

theorem State.unmarkNames_keepsDesk (s : State) (p : ErrPlace → Bool) : KeepsDesk s (s.unmarkNames p) := by
  rw [State.unmarkNames_shape]
  exact keepsDesk_of_eq rfl rfl

theorem State.setBar_keepsDesk (s : State) (b name : Nat) (v : Barrier) : KeepsDesk s (s.setBar b name v) :=
  ite_keepsDesk _ (s.setGang_keepsDesk _ _ rfl) (keepsDesk_of_eq rfl rfl)

theorem State.turnBar_keepsDesk (s : State) (b name : Nat) : KeepsDesk s (s.turnBar b name) := by
  rw [State.turnBar_shape]
  exact keepsDesk_of_eq rfl rfl

theorem State.arrive_keepsDesk (s : State) (b name : Nat) : KeepsDesk s (s.arrive b name) :=
  ite_keepsDesk _ ((s.turnBar_keepsDesk b name).trans (State.setBar_keepsDesk ..)) (s.setBar_keepsDesk ..)

theorem State.tellBar_keepsDesk (s : State) (b name : Nat) (ns : List Nat) : KeepsDesk s (s.tellBar b name ns) := by
  rw [State.tellBar_shape]
  exact keepsDesk_of_eq rfl rfl

theorem State.publish_keepsDesk (s : State) (b scope name : Nat) (ws : Tab Nat) : KeepsDesk s (s.publish b scope name ws) := by
  rw [State.publish_shape]
  exact keepsDesk_of_eq rfl rfl

theorem State.engineArrive_keepsDesk (s : State) (b : Nat) (ctl : BitVec 64) (ws : Tab Nat) (told : List Nat) :
    KeepsDesk s (s.engineArrive b ctl ws told) := by
  unfold State.engineArrive
  split
  · exact (s.publish_keepsDesk ..).trans ((State.tellBar_keepsDesk ..).trans (State.arrive_keepsDesk ..))
  · exact keepsDesk_refl s

theorem State.seeWrites_keepsDesk (s : State) (b : Nat) (ws : Tab Nat) : KeepsDesk s (s.seeWrites b ws) := by
  rw [State.seeWrites_shape]
  exact keepsDesk_of_eq rfl rfl

theorem State.writeToken_keepsDesk (s : State) (k : Nat) (kind : EngineKind) (op name : Nat) (v : BitVec 64) :
    KeepsDesk s (s.writeToken k kind op name v) := by
  rw [State.writeToken_shape]
  exact keepsDesk_of_eq rfl rfl

/-! ## Buffers and the vault window -/

theorem State.setScratch_keepsDesk (s : State) (b buf : Nat) (v : Scratch) : KeepsDesk s (s.setScratch b buf v) :=
  ite_keepsDesk _ (s.setGang_keepsDesk _ _ rfl) (keepsDesk_of_eq rfl rfl)

theorem State.writeScratch_keepsDesk (s : State) (b buf off : Nat) (bs : List Byte) (lane : Option Nat) :
    KeepsDesk s (s.writeScratch b buf off bs lane) :=
  (s.setScratch_keepsDesk b buf _).trans (keepsDesk_of_eq rfl rfl)

theorem State.unmarkScratch_keepsDesk (s : State) (b buf off len : Nat) : KeepsDesk s (s.unmarkScratch b buf off len) :=
  ite_keepsDesk _ (keepsDesk_refl s) (keepsDesk_of_eq rfl rfl)

theorem State.setSlotByte_keepsDesk (s : State) (b k cls name off : Nat) (v : Byte) :
    KeepsDesk s (s.setSlotByte b k cls name off v) := by
  unfold State.setSlotByte
  split
  · exact keepsDesk_of_eq rfl rfl
  · exact keepsDesk_of_eq rfl rfl
  · exact s.writeScratch_keepsDesk ..
  · exact keepsDesk_of_eq rfl rfl

theorem State.unmarkSlot_keepsDesk (s : State) (b k cls name off len : Nat) :
    KeepsDesk s (s.unmarkSlot b k cls name off len) :=
  (ite_keepsDesk _ (s.unmarkScratch_keepsDesk ..) (keepsDesk_refl s)).trans (State.unmarkNames_keepsDesk ..)

theorem State.vaultWrite_keepsDesk (s : State) (pa : Nat) (bs : List Byte) : KeepsDesk s (s.vaultWrite pa bs) := by
  unfold State.vaultWrite
  split
  · dsimp only
    have revived (c : Prop) [Decidable c] (t : State) (k n o z : Nat) :
        KeepsDesk t (if c then t.reviveSlot k n o z else t) := ite_keepsDesk _ (keepsDesk_of_eq rfl rfl) (keepsDesk_refl t)
    refine KeepsDesk.trans (KeepsDesk.trans ?_ (State.unmarkSlot_keepsDesk ..)) (revived ..)
    exact keepsDesk_foldl _ (fun _ _ => State.setSlotByte_keepsDesk ..) _ s
  · exact keepsDesk_of_eq rfl rfl

theorem State.unmarkAll_keepsDesk (s : State) (rs : List (Nat × Nat)) : KeepsDesk s (s.unmarkAll rs) := by
  refine ite_keepsDesk _ (keepsDesk_refl s) ?_
  refine KeepsDesk.trans (keepsDesk_of_eq (t := { s with bad := s.bad.filter fun a => !wholeWord rs a }) rfl rfl)
    (keepsDesk_foldl _ (fun s a => ?_) _ _)
  split
  · exact s.unmarkSlot_keepsDesk ..
  · exact keepsDesk_refl s

/-! ## Home memory -/

theorem State.overtake_keepsDesk (s : State) (pa len : Nat) : KeepsDesk s (s.overtake pa len) :=
  (s.overtake_onlyWrites pa len).keepsDesk

theorem State.putHome_keepsDesk (s : State) (cluster pa : Nat) (bs : List Byte) : KeepsDesk s (s.putHome cluster pa bs) := by
  have stored (t : State) (n : Nat) : KeepsDesk t (t.storeLines cluster pa bs n) :=
    ite_keepsDesk _ (keepsDesk_refl t) (keepsDesk_of_eq rfl rfl)
  have unmarked (t : State) : KeepsDesk t (t.unmark pa bs.length) := keepsDesk_of_eq rfl rfl
  exact (((s.pushBytes_onlyWrites pa bs).keepsDesk.trans (unmarked _)).trans (stored _ _)).trans (State.overtake_keepsDesk ..)

theorem State.noteProp_keepsDesk (s : State) (leaf pa : Nat) : KeepsDesk s (s.noteProp leaf pa) := by
  unfold State.noteProp
  dsimp only
  split <;> split <;> exact keepsDesk_of_eq rfl rfl

theorem State.engineWrite_keepsDesk (s : State) (k pa leaf : Nat) (bs : List Byte) :
    KeepsDesk s (s.engineWrite k pa leaf bs).1 := by
  unfold State.engineWrite
  split
  · exact keepsDesk_of_eq rfl rfl
  · split
    · exact keepsDesk_foldl_fst _ (fun r a => (r.1.noteProp_keepsDesk leaf a).trans (State.putHome_keepsDesk ..)) _ (s, [])
    · exact s.vaultWrite_keepsDesk ..
    · exact keepsDesk_refl s

/-! ## Palp commands (R294, R295) -/

theorem State.nearTouched_keepsDesk (s : State) (k va : Nat) : KeepsDesk s (s.nearTouched k va) := by
  unfold State.nearTouched
  dsimp only
  split
  · exact keepsDesk_refl s
  · split
    · exact keepsDesk_of_eq rfl rfl
    · exact keepsDesk_refl s

theorem State.palpHits_keepsDesk (s : State) (k : Nat) (p : PalpOp) (rs : List Span) : KeepsDesk s (s.palpHits k p rs).1 := by
  unfold State.palpHits
  split
  · unfold State.hitUnit
    dsimp only
    split
    · exact keepsDesk_refl s
    · exact keepsDesk_of_eq rfl rfl
  · exact keepsDesk_refl s

theorem State.palpItem_keepsDesk (s : State) (p : PalpOp) (i va n : Nat) : KeepsDesk s (s.palpItem p i va n).1 := by
  unfold State.palpItem
  split
  · exact keepsDesk_refl s
  · split
    · exact keepsDesk_refl s
    · exact s.nearTouched_keepsDesk ..

theorem State.palpReads_keepsDesk (s : State) (k : Nat) (p : PalpOp) : KeepsDesk s (s.palpReads k p).1 :=
  (keepsDesk_foldl_fst (fun (r : State × PalpOp) (x : (Nat × Nat) × Nat) => r.1.palpItem r.2 x.2 x.1.1 x.1.2)
    (fun r _ => r.1.palpItem_keepsDesk ..) _ (s, p)).trans (State.palpHits_keepsDesk ..)

theorem State.palpWrites_keepsDesk (s : State) (k : Nat) (ws : List (Nat × Nat × List Byte)) :
    KeepsDesk s (s.palpWrites k ws).1 :=
  keepsDesk_foldl_fst (fun (r : State × Tab Nat) (w : Nat × Nat × List Byte) =>
    ((r.1.engineWrite k w.1 w.2.1 w.2.2).1, mergeView r.2 (r.1.engineWrite k w.1 w.2.1 w.2.2).2))
    (fun r _ => r.1.engineWrite_keepsDesk ..) _ (s, [])

theorem State.tableWrites_keepsDesk (s : State) (k : Nat) (ws : List (Nat × Nat × List Byte)) :
    KeepsDesk s (s.tableWrites k ws).1 :=
  (s.palpWrites_keepsDesk k ws).trans (keepsDesk_of_eq rfl rfl)

theorem State.endPalp_keepsDesk (s : State) (k : Nat) (p : PalpOp) (st err count : Nat) (ws : Tab Nat) :
    KeepsDesk s (s.endPalp k p st err count ws) := by
  have dropped : KeepsDesk s (s.dropPalp k p ws) := (s.seeWrites_keepsDesk p.block ws).trans (keepsDesk_of_eq rfl rfl)
  rw [State.endPalp_eq]
  exact (dropped.trans (State.writeToken_keepsDesk ..)).trans (State.engineArrive_keepsDesk ..)

theorem State.awaitPage_keepsDesk (s : State) (k va : Nat) : KeepsDesk s (s.awaitPage k va) := by
  unfold State.awaitPage State.countWalks State.countErrors
  split
  · exact keepsDesk_of_eq rfl rfl
  · split <;> exact keepsDesk_of_eq rfl rfl

theorem State.holdPalp_keepsDesk (s : State) (k : Nat) (p : PalpOp) (vas : List Nat) : KeepsDesk s (s.holdPalp k p vas) :=
  (keepsDesk_foldl (fun (s : State) va => s.awaitPage p.wave va) (fun s _ => s.awaitPage_keepsDesk ..) _ s).trans
    (keepsDesk_of_eq rfl rfl)

theorem State.stopPalp_keepsDesk (s : State) (k : Nat) (p : PalpOp) (bars : List PalpStop) :
    KeepsDesk s (s.stopPalp k p bars) := by
  unfold State.stopPalp
  split
  · exact s.endPalp_keepsDesk ..
  · exact s.holdPalp_keepsDesk ..

theorem State.commitPalp_keepsDesk (s : State) (k : Nat) (p : PalpOp) (r : PalpDone) (places : List (Nat × Nat × List Byte)) :
    KeepsDesk s (s.commitPalp k p r places) := by
  have hits := s.palpHits_keepsDesk k p (s.palpSpans p r)
  unfold State.commitPalp
  generalize s.palpHits k p (s.palpSpans p r) = h at hits ⊢
  obtain ⟨t, p⟩ := h
  have table := hits.trans (t.tableWrites_keepsDesk p.wave r.table)
  dsimp only
  split
  · exact ((table.trans (State.palpWrites_keepsDesk ..)).trans (State.unmarkAll_keepsDesk ..)).trans
      (State.endPalp_keepsDesk ..)
  · refine (((table.trans (keepsDesk_foldl _ (fun s w => s.writeScratch_keepsDesk ..) _ _)).trans
      (State.unmarkNames_keepsDesk ..)).trans (State.unmarkAll_keepsDesk ..)).trans (State.endPalp_keepsDesk ..)

theorem State.closePalp_keepsDesk (s : State) (k : Nat) (p : PalpOp) : KeepsDesk s (s.closePalp k p) := by
  have touched : KeepsDesk s (if p.kind == 3 then s.nearTouched p.wave (word64 p.par 3) else s) :=
    ite_keepsDesk _ (s.nearTouched_keepsDesk ..) (keepsDesk_refl s)
  unfold State.closePalp
  generalize (if p.kind == 3 then s.nearTouched p.wave (word64 p.par 3) else s) = t at touched ⊢
  have noted : KeepsDesk s (if p.kind == 3 then t.palpHits k p (t.assignSpans p) else (t, p)).1 := by
    split
    · exact touched.trans (t.palpHits_keepsDesk ..)
    · exact touched
  dsimp only
  generalize (if p.kind == 3 then t.palpHits k p (t.assignSpans p) else (t, p)) = h at noted ⊢
  obtain ⟨u, q⟩ := h
  dsimp only
  split
  · exact noted.trans (u.stopPalp_keepsDesk ..)
  · split
    · exact noted.trans (u.stopPalp_keepsDesk ..)
    · exact (noted.trans (keepsDesk_foldl _ (fun u _ => u.nearTouched_keepsDesk ..) _ u)).trans
        (State.commitPalp_keepsDesk ..)

theorem State.finishPalp_keepsDesk (s : State) (k : Nat) : KeepsDesk s (s.finishPalp k) := by
  have reads : KeepsDesk s (if (s.palp k).tooFar then (s, s.palp k) else s.palpReads k (s.palp k)).1 := by
    split
    · exact keepsDesk_refl s
    · exact s.palpReads_keepsDesk ..
  unfold State.finishPalp
  dsimp only
  generalize (if (s.palp k).tooFar then (s, s.palp k) else s.palpReads k (s.palp k)) = h at reads ⊢
  obtain ⟨t, p⟩ := h
  dsimp only
  split
  · exact keepsDesk_refl s
  · split
    · exact reads.trans (t.closePalp_keepsDesk ..)
    · exact reads.trans (t.stopPalp_keepsDesk ..)

theorem State.stopEngines_keepsDesk (s : State) (g : Nat) : KeepsDesk s (s.stopEngines g) :=
  keepsDesk_foldl (fun (s : State) (p : Nat × PalpOp) => s.finishPalp p.1) (fun s p => s.finishPalp_keepsDesk p.1) _ s

/-- A gang that is to be saved or checkpointed stands where it stood (R338). -/
theorem State.still_keepsDesk (s : State) (g : Nat) : KeepsDesk s (s.still g) :=
  (keepsDesk_foldl (fun (s : State) k => (s.landAll k).settled k)
    (fun s k => (s.landAll_keepsOthers k).toKeepsDesk.trans (keepsDesk_of_eq rfl rfl)) _ s).trans
    (State.stopEngines_keepsDesk ..)

/-! ## Releases (R237) -/

theorem State.writeLine_keepsDesk (s : State) (v : VLine) : KeepsDesk s (s.writeLine v) := by
  refine KeepsDesk.trans (t := { s with vlines := s.vlines.filter fun x => !(x.cluster == v.cluster && x.line == v.line) })
    (keepsDesk_of_eq rfl rfl) (keepsDesk_foldl _ (fun s off => ?_) _ _)
  exact KeepsDesk.trans (t := { s with mem := s.mem.set (v.line * 128 + off) (v.bytes.get 0 off) })
    (keepsDesk_of_eq rfl rfl) (State.overtake_keepsDesk ..)

theorem State.publishLoose_keepsDesk (s : State) (k scope : Nat) : KeepsDesk s (s.publishLoose k scope) :=
  ite_keepsDesk _ (keepsDesk_of_eq rfl rfl) (keepsDesk_of_eq rfl rfl)

theorem State.release_keepsDesk (s : State) (k : Nat) : KeepsDesk s (s.release k 3) := by
  have home : KeepsDesk s (s.writeLines (s.clusterOf (s.wave k))) := keepsDesk_foldl _ State.writeLine_keepsDesk _ s
  unfold State.release
  simp only [Nat.reduceLeDiff, if_true]
  exact (home.trans (State.publishLoose_keepsDesk _ k 3)).trans (keepsDesk_of_eq rfl rfl)

end Sys2Proof.Machine
end

section
/-! Proofs: saves and checkpoints write images with rising sequence numbers, and a restore continues the image (R338, R341,
R342, R344, R353). -/

namespace Sys2Proof.Machine

open Sys2Proof.Claims

/-! ## Images (R338, R341, R342) -/

/-- Gangs and the images that the executive lists are as they were. -/
def SameGangs (s t : State) : Prop := t.gangs = s.gangs ∧ t.images = s.images

theorem SameGangs.trans {s t u : State} (h : SameGangs s t) (g : SameGangs t u) : SameGangs s u :=
  ⟨g.1.trans h.1, g.2.trans h.2⟩

theorem SameGangs.gang {s t : State} (h : SameGangs s t) (g : Nat) : t.gang g = s.gang g :=
  congrArg (fun gs : Tab Gang => gs.get Gang.absent g) h.1

theorem sameGangs_foldl {α : Type} (f : State → α → State) (h : ∀ s a, SameGangs s (f s a)) (as : List α) (s : State) :
    SameGangs s (as.foldl f s) := by
  induction as generalizing s with
  | nil => exact ⟨rfl, rfl⟩
  | cons a as ih => exact (h s a).trans (ih _)

theorem OnlyWrites.sameGangs {s t : State} (h : OnlyWrites s t) : SameGangs s t := ⟨h.gangs, (congrArg State.images h.rest :)⟩

/-- Clearing dirty bits changes of a gang its buffers alone, and lists no image. -/
theorem State.clean_leaves (s : State) (g : Nat) : (s.clean g).images = s.images ∧
    ∃ buffers, (s.clean g).gang g = { s.gang g with scratch := buffers } := by
  unfold State.clean
  dsimp only
  generalize waves : (s.gangWaves g).foldl (fun s k => s.onWave k fun w => { w with dirty := [] }) s = t
  have same : SameGangs s t := by
    rw [← waves]
    refine sameGangs_foldl _ ?_ _ s
    exact fun _ _ => ⟨rfl, rfl⟩
  generalize blocks : (t.gang g).blocks.foldl _ t = u
  have same : SameGangs s u := by
    rw [← blocks]
    refine same.trans (sameGangs_foldl _ ?_ _ t)
    exact fun _ _ => ⟨rfl, rfl⟩
  refine ⟨same.2, (u.gang g).scratch.map fun p => (p.1, { p.2 with dirty := [] }), ?_⟩
  rw [State.gang_setGang_same, same.gang]

/-- An image of a gang at an address, of a kind, with the next sequence number, is the last that is listed. -/
structure Imaged (s t : State) (g kind : Nat) (a : BitVec 64) (i : Image) : Prop where
  listed : t.images = s.images ++ [i]
  addr : i.addr = a.toNat
  key : i.key = g
  kind_eq : i.kind = kind
  seq : i.seq = (s.gang g).seq + 1
  base : i.base = if kind == 0 then 0 else (s.gang g).base.toNat

/-- A gang whose image is written: dirty bits apart, its newest image alone is another. -/
theorem State.writeImage_imaged (s : State) (g kind : Nat) (a : BitVec 64) :
    (∃ i, Imaged s (s.writeImage g kind a) g kind a i) ∧ ∃ buffers, (s.writeImage g kind a).gang g =
      { s.gang g with scratch := buffers, seq := (s.gang g).seq + 1, base := a } := by
  obtain ⟨images, buffers, cleaned⟩ := s.clean_leaves g
  unfold State.writeImage
  dsimp only
  generalize s.nextImage g kind = h
  rw [cleaned]
  generalize s.clean g = t at images
  generalize seq : t.setGang g _ = u
  have images : u.images = s.images := seq ▸ images
  have gang : u.gang g = { s.gang g with scratch := buffers, seq := (s.gang g).seq + 1, base := a } :=
    seq ▸ State.gang_setGang_same ..
  have written := ((u.keep 1 a.toNat h.length).sysWrite_onlyWrites a.toNat h).sameGangs
  refine ⟨⟨_, congrArg (· ++ _) images, rfl, rfl, rfl, rfl, rfl⟩, buffers, ?_⟩
  exact (written.gang g).trans gang

/-! ## Saves (R338) -/

/-- A gang whose waves have released is off the machine, its image yet to be written. -/
def State.takenOff (s : State) (g : Nat) : State :=
  let r := ((s.still g).gangWaves g).foldl (fun s k => s.release k 3) (s.still g)
  r.setGang g { r.gang g with cy := r.cycles g, since := r.time, placed := false, preempt := .saved }

/-- The save is reported, and the gang's resources go. -/
def State.giveUp (s : State) (g : Nat) (a : BitVec 64) : State :=
  let r := ((s.report g 3 a).dropOps g).freeGang g
  r.setGang g { r.gang g with grants := (s.gang g).grants }

theorem Gang.saveKind_cases (q : Gang) (full : Bool) :
    (full = true ∨ q.base = 0 → q.saveKind full = 0) ∧ (full = false → q.base ≠ 0 → q.saveKind full = 1) := by
  unfold Gang.saveKind
  constructor
  · rintro (h | h) <;> simp [h]
  · intro h other
    rw [h, beq_eq_false_iff_ne.mpr other]
    rfl

theorem execSave_quiet (s : State) {g : Nat} {full : Bool} {a : BitVec 64} (saving : (s.gang g).preempt = .saving)
    (quiet : s.gangQuiet g = true)
    (fits : s.imageFits a.toNat ((s.still g).nextImage g ((s.gang g).saveKind full)).length = true) :
    exec (.save g full a) s =
      .next (((s.takenOff g).writeImage g ((s.gang g).saveKind full) a).giveUp g a) := by
  show Host.Outcome.next _ = _
  rw [if_pos (by rw [saving, quiet]; rfl)]
  unfold State.saveGang
  dsimp only
  rw [fits]
  rfl

theorem State.takenOff_leaves (s : State) (g : Nat) : (s.takenOff g).images = s.images ∧
    ((s.takenOff g).gang g).placed = false ∧ ((s.takenOff g).gang g).preempt = .saved ∧
    ((s.takenOff g).gang g).seq = (s.gang g).seq ∧ ((s.takenOff g).gang g).base = (s.gang g).base := by
  have released := (s.still_keepsDesk g).trans
    (keepsDesk_foldl (fun (s : State) k => s.release k 3) State.release_keepsDesk ((s.still g).gangWaves g) _)
  unfold State.takenOff
  generalize ((s.still g).gangWaves g).foldl (fun s k => s.release k 3) (s.still g) = r at released ⊢
  have stands := released.gangs g
  simp only [Gang.standing, Prod.mk.injEq] at stands
  obtain ⟨-, -, seq, base⟩ := stands
  dsimp only
  rw [State.gang_setGang_same]
  exact ⟨released.images, rfl, rfl, seq, base⟩

theorem State.freeGang_images (s : State) (g : Nat) : (s.freeGang g).images = s.images := by
  unfold State.freeGang
  dsimp only
  exact (congrArg State.images (State.divide_foldl_shape _ (fun r => (r.launch (r.gang g).launch).ctx) _) :)

theorem State.giveUp_leaves (s : State) (g : Nat) (a : BitVec 64) : (s.giveUp g a).images = s.images ∧
    ((s.giveUp g a).gang g).placed = (s.gang g).placed ∧ ((s.giveUp g a).gang g).preempt = (s.gang g).preempt ∧
    ((s.giveUp g a).gang g).blocks = [] ∧ ((s.giveUp g a).gang g).seq = (s.gang g).seq ∧
    ((s.giveUp g a).gang g).base = (s.gang g).base ∧
    ∃ r ∈ (s.giveUp g a).reports, r.gang = g ∧ r.action = 3 ∧ r.image = a := by
  have listed : ∃ r ∈ (s.report g 3 a).reports, r.gang = g ∧ r.action = 3 ∧ r.image = a :=
    ⟨_, List.mem_append_right _ (List.mem_singleton_self _), rfl, rfl, rfl⟩
  obtain ⟨gang, reports, -⟩ := ((s.report g 3 a).dropOps g).freeGang_eq g
  have images := ((s.report g 3 a).dropOps g).freeGang_images g
  unfold State.giveUp
  generalize ((s.report g 3 a).dropOps g).freeGang g = r at gang reports images ⊢
  dsimp only
  rw [State.gang_setGang_same, gang]
  refine ⟨images, rfl, rfl, rfl, rfl, rfl, ?_⟩
  rw [State.setGang_reports, reports]
  exact listed

/-! ## Checkpoints (R353) -/

theorem State.ckptDone_keepsDesk (s : State) (k seq : Nat) : KeepsDesk s (s.ckptDone k seq) := by
  refine (s.goOnAll_keepsOthers k .ckpt _ (fun ls t => ?_) (fun ls t => ?_)).toKeepsDesk
  · split
    · exact t.writeUnifOf_keepsOthers ..
    · exact keepsOthers_refl k t
  · split <;> rfl

theorem execCheckpointImage_quiet (s : State) {g : Nat} {a : BitVec 64} (under : s.checkpointing g = true)
    (quiet : s.gangQuiet g = true) (between : s.iss.granted = false)
    (fits : s.imageFits a.toNat ((s.still g).nextImage g 2).length = true) :
    exec (.checkpointImage g a) s = .next ((s.gangWaves g).foldl (fun s k => s.ckptDone k (s.gang g).seq)
      ((s.still g).writeImage g 2 a)) := by
  show Host.Outcome.next _ = _
  rw [if_pos (by rw [under, quiet, between]; rfl)]
  dsimp only
  rw [fits]
  rfl

/-! ## Restores (R344) -/

/-- A gang but for its buffers. -/
def Gang.unbuffered (q : Gang) : Gang := { q with scratch := [] }

/-- Memory, and what waves hold, are as they were, and so is every gang but for its buffers. -/
structure Continues (s t : State) : Prop where
  values : KeepsValues s t
  gangs : ∀ g, (t.gang g).unbuffered = (s.gang g).unbuffered

theorem continues_of_eq {s t : State} (mem : t.mem = s.mem) (waves : t.waves = s.waves) (gangs : t.gangs = s.gangs) :
    Continues s t :=
  ⟨keepsValues_of_eq mem waves, fun g => congrArg (fun gs : Tab Gang => (gs.get Gang.absent g).unbuffered) gangs⟩

theorem Continues.trans {s t u : State} (h : Continues s t) (k : Continues t u) : Continues s u :=
  ⟨h.values.trans k.values, fun g => (k.gangs g).trans (h.gangs g)⟩

theorem continues_foldl {α : Type} (f : State → α → State) (h : ∀ s a, Continues s (f s a)) (as : List α) (s : State) :
    Continues s (as.foldl f s) := by
  induction as generalizing s with
  | nil => exact continues_of_eq rfl rfl rfl
  | cons a as ih => exact (h s a).trans (ih _)

theorem State.setScratch_gang (s : State) (b buf : Nat) (v : Scratch) (g : Nat) :
    ((s.setScratch b buf v).gang g).unbuffered = (s.gang g).unbuffered := by
  unfold State.setScratch
  dsimp only
  split
  · rw [State.gang_setGang]
    split
    · next same => rw [same]; rfl
    · rfl
  · rfl

theorem State.moveName_continues (s : State) (b : Nat) (live moved : Bool) (n : NameInfo) :
    Continues s (s.moveName b live moved n) := by
  refine ⟨s.moveName_keepsValues b live moved n, fun g => ?_⟩
  have waves (f : State → Nat → State) (gangs : ∀ s j, (f s j).gangs = s.gangs) (ks : List Nat) :
      ((ks.foldl f s).gang g).unbuffered = (s.gang g).unbuffered :=
    congrArg (fun gs : Tab Gang => (gs.get Gang.absent g).unbuffered) (State.foldl_keep State.gangs f gangs ks s)
  unfold State.moveName
  dsimp only
  split
  · refine waves _ ?_ _
    exact fun _ _ => rfl
  · refine waves _ ?_ _
    exact fun _ _ => rfl
  · exact s.setScratch_gang ..
  · split <;> rfl

theorem State.restoreBlock_continues (s : State) (g i b : Nat) (h : Share) : Continues s (s.restoreBlock g i b h) := by
  unfold State.restoreBlock
  dsimp only
  generalize named : (s.setBlock b _).setBlock b _ = u
  have bound : Continues s u := named ▸ continues_of_eq rfl rfl rfl
  exact bound.trans (continues_foldl _ (fun u n => u.moveName_continues ..) _ u)

theorem State.divideFor_continues (s : State) (ctx cluster : Nat) (hs : List Share) :
    Continues s (s.divideFor ctx cluster hs) := by
  unfold State.divideFor
  rw [State.divide_foldl_shape _ fun _ => ctx]
  exact continues_of_eq rfl rfl rfl

/-- A restored wave holds what the image holds, and no other wave is concerned. -/
theorem State.restoreWave_result (s : State) (k : Nat) (w : Wave) (core : Nat) :
    (∃ ws, s.restoreWave k w core = { s with waves := ws }) ∧ SameValues w ((s.restoreWave k w core).wave k) ∧
      ∀ j, j ≠ k → (s.restoreWave k w core).wave j = s.wave j := by
  have restored (l : Nat) :
      (Tab.get Lane.absent (w.lanes.map fun p => (p.1, p.2.restored)) l).arch = (w.lanes.get Lane.absent l).arch :=
    Tab.get_map_rel (R := fun t u : Lane => u.arch = t.arch) (g := Lane.restored) rfl (fun _ => rfl) w.lanes l
  unfold State.restoreWave State.acquire
  rw [State.setWave_setWave, State.wave_setWave_same]
  dsimp only
  refine ⟨⟨_, rfl⟩, ?_, fun j other => ?_⟩
  · rw [State.wave_setWave_same]
    exact ⟨rfl, restored⟩
  · exact (State.wave_setWave ..).trans (if_neg other)

/-- The waves of an image are put back one by one. -/
theorem State.restoreWaves_result (core : State → Wave → Nat) (ws : List (Nat × Wave)) (distinct : (ws.map Prod.fst).Nodup)
    (s : State) : (∃ vs, ws.foldl (fun s p => s.restoreWave p.1 p.2 (core s p.2)) s = { s with waves := vs }) ∧
      (∀ p ∈ ws, SameValues p.2 ((ws.foldl (fun s p => s.restoreWave p.1 p.2 (core s p.2)) s).wave p.1)) ∧
      ∀ j, j ∉ ws.map Prod.fst → (ws.foldl (fun s p => s.restoreWave p.1 p.2 (core s p.2)) s).wave j = s.wave j := by
  induction ws generalizing s with
  | nil => exact ⟨⟨_, rfl⟩, fun p h => absurd h List.not_mem_nil, fun _ _ => rfl⟩
  | cons p ws ih =>
    obtain ⟨⟨vs, one⟩, here, others⟩ := s.restoreWave_result p.1 p.2 (core s p.2)
    rw [List.map_cons, List.nodup_cons] at distinct
    obtain ⟨⟨us, rest⟩, later, outside⟩ := ih distinct.2 (s.restoreWave p.1 p.2 (core s p.2))
    rw [List.foldl_cons]
    refine ⟨⟨us, ?_⟩, fun q h => ?_, fun j out => ?_⟩
    · rw [rest, one]
    · obtain rfl | h := List.mem_cons.mp h
      · rw [outside _ distinct.1]
        exact here
      · exact later q h
    · rw [List.map_cons, List.mem_cons, not_or] at out
      rw [outside j out.2, others j out.1]

/-- A gang as an image puts it back. -/
def State.gangBack (s : State) (g : Nat) (i : Image) (a : BitVec 64) (cluster c0 : Nat) : Gang :=
  { i.gang with
    cluster := cluster, c0 := c0, placed := true, preempt := .none, since := s.time
    blocks := i.blocks.map Prod.fst, seq := (s.gang g).seq, base := a
    record := (s.gang g).record, halted := (s.gang g).halted, stack := (s.gang g).stack }

theorem State.putImage_result (s : State) (g : Nat) (i : Image) (a : BitVec 64) (cluster c0 : Nat)
    (distinct : (i.waves.map Prod.fst).Nodup) : (s.putImage g i a cluster c0).mem = s.mem ∧
      (s.putImage g i a cluster c0).gang g = s.gangBack g i a cluster c0 ∧
      ∀ p ∈ i.waves, SameValues p.2 ((s.putImage g i a cluster c0).wave p.1) := by
  unfold State.putImage
  dsimp only
  generalize put : i.blocks.foldl _ _ = u
  have same : u.mem = s.mem ∧ u.gangs = (s.setGang g (s.gangBack g i a cluster c0)).gangs := by
    rw [← put]
    refine ⟨(State.foldl_keep State.mem _ ?_ _ _).trans rfl, (State.foldl_keep State.gangs _ ?_ _ _).trans rfl⟩
    · exact fun _ _ => rfl
    · exact fun _ _ => rfl
  obtain ⟨⟨vs, rest⟩, waves, -⟩ := State.restoreWaves_result (fun s w => (s.block w.block).core) i.waves distinct u
  refine ⟨(congrArg State.mem rest :).trans same.1, ?_, waves⟩
  refine ((congrArg (fun t : State => t.gang g) rest :).trans ?_).trans (s.gang_setGang_same g _)
  exact congrArg (fun gs : Tab Gang => gs.get Gang.absent g) same.2

/-- What a restore with a chain that verifies, and room, comes to. -/
def State.restoreTo (s : State) (g : Nat) (i : Image) (a : BitVec 64) (c c0 : Nat) (hs : List ShareSpec) : State :=
  (i.blocks.foldl (fun s b => s.restoreBlock g b.2.index b.1 (hs.getD b.2.index ⟨0, 0, 0, 0, 0, 0, 0, 0, 0, 0⟩))
    (s.putImage g i a c c0)).divideFor (s.launch (s.gang g).launch).ctx c hs

theorem State.restoreTo_continues (s : State) (g : Nat) (i : Image) (a : BitVec 64) (c c0 : Nat) (hs : List ShareSpec) :
    Continues (s.putImage g i a c c0) (s.restoreTo g i a c c0 hs) :=
  (continues_foldl _ (fun s _ => s.restoreBlock_continues ..) i.blocks _).trans
    (State.divideFor_continues ..)

theorem execRestore_unverified {s : State} {g : Nat} {a : BitVec 64} (c c0 : Nat) (hs : List ShareSpec)
    (saved : (s.gang g).preempt = .saved) (broken : s.chainOk g (s.images.length + 1) a.toNat = false) :
    exec (.restore g a c c0 hs) s = .next { (s.setLaunch (s.gang g).launch { s.launch (s.gang g).launch with status := 4 }) with
      agenda := (0, .endLaunch (s.gang g).launch) :: s.agenda } := by
  show execRestore g a c c0 hs s = _
  unfold execRestore
  dsimp only
  rw [saved, broken]
  rfl

theorem execRestore_verified {s : State} {g : Nat} {a : BitVec 64} {c c0 : Nat} {hs : List ShareSpec} {i : Image}
    (saved : (s.gang g).preempt = .saved) (chain : s.chainOk g (s.images.length + 1) a.toNat = true)
    (found : s.imageAt g a.toNat = some i) (room : s.placeable g c c0 hs i.sb = true)
    (engines : s.engineRoom i c c0 = true) :
    exec (.restore g a c c0 hs) s = .next ((s.restoreTo g i a c c0 hs).resumed g i) := by
  show execRestore g a c c0 hs s = _
  unfold execRestore
  dsimp only
  rw [saved, chain, found]
  dsimp only
  rw [room, engines]
  rfl

theorem State.resumed_self (s : State) (g : Nat) (i : Image) (stands : i.gang.halted = true → (s.gang g).halted = true) :
    s.resumed g i = s := by
  refine if_neg fun lifted => ?_
  rw [Bool.and_eq_true, Bool.not_eq_true'] at lifted
  exact absurd (stands lifted.1) (ne_true_of_eq_false lifted.2)

end Sys2Proof.Machine

namespace Sys2Proof.Proofs

open Sys2Proof.Machine Sys2Proof.Claims

/-- R338, R341, R342: a save whose gang is quiet. -/
theorem save_quiet {s : State} {g : Nat} {full : Bool} {a : BitVec 64} (saving : (s.gang g).preempt = .saving)
    (quiet : s.gangQuiet g = true)
    (fits : s.imageFits a.toNat ((s.still g).nextImage g ((s.gang g).saveKind full)).length = true) :
    Answers (.save g full a) s fun t =>
      (t.gang g).placed = false ∧ (t.gang g).preempt = .saved ∧ (t.gang g).blocks = [] ∧
      (∃ i, t.images = s.images ++ [i] ∧ i.addr = a.toNat ∧ i.key = g ∧ i.seq = (s.gang g).seq + 1 ∧
        (full = true ∨ (s.gang g).base = 0 → i.kind = 0 ∧ i.base = 0) ∧
        (full = false → (s.gang g).base ≠ 0 → i.kind = 1 ∧ i.base = (s.gang g).base.toNat) ∧
        (t.gang g).seq = i.seq ∧ (t.gang g).base = a) ∧
      ∃ r ∈ t.reports, r.gang = g ∧ r.action = 3 ∧ r.image = a := by
  refine ⟨_, execSave_quiet s saving quiet fits, ?_⟩
  obtain ⟨images, placed, preempt, seq, base⟩ := s.takenOff_leaves g
  obtain ⟨⟨i, imaged⟩, buffers, gang⟩ := (s.takenOff g).writeImage_imaged g ((s.gang g).saveKind full) a
  obtain ⟨images', placed', preempt', blocks, seq', base', report⟩ :=
    ((s.takenOff g).writeImage g ((s.gang g).saveKind full) a).giveUp_leaves g a
  generalize (((s.takenOff g).writeImage g ((s.gang g).saveKind full) a).giveUp g a) = t at *
  rw [gang] at placed' preempt' seq' base'
  obtain ⟨first, later⟩ := (s.gang g).saveKind_cases full
  have seq_i : i.seq = (s.gang g).seq + 1 := imaged.seq.trans (congrArg (· + 1) seq)
  refine ⟨placed'.trans placed, preempt'.trans preempt, blocks,
    ⟨i, ?_, imaged.addr, imaged.key, seq_i, fun h => ⟨imaged.kind_eq.trans (first h), ?_⟩,
      fun h k => ⟨imaged.kind_eq.trans (later h k), ?_⟩, seq'.trans imaged.seq.symm, base'⟩, report⟩
  · rw [images', imaged.listed, images]
  · rw [imaged.base, first h]
    rfl
  · rw [imaged.base, later h k, base]
    rfl

/-- R353: a checkpoint whose gang is quiet. -/
theorem checkpoint_quiet {s : State} {g : Nat} {a : BitVec 64} (under : s.checkpointing g = true)
    (quiet : s.gangQuiet g = true) (between : s.iss.granted = false)
    (fits : s.imageFits a.toNat ((s.still g).nextImage g 2).length = true) :
    Answers (.checkpointImage g a) s fun t =>
      (t.gang g).placed = (s.gang g).placed ∧ (t.gang g).blocks = (s.gang g).blocks ∧
      (t.gang g).seq = (s.gang g).seq + 1 ∧
      ∃ i, t.images = s.images ++ [i] ∧ i.addr = a.toNat ∧ i.key = g ∧ i.kind = 2 ∧ i.seq = (s.gang g).seq + 1 := by
  refine ⟨_, execCheckpointImage_quiet s under quiet between fits, ?_⟩
  have still := s.still_keepsDesk g
  obtain ⟨⟨i, imaged⟩, buffers, gang⟩ := (s.still g).writeImage_imaged g 2 a
  have done := keepsDesk_foldl (fun (s : State) k => s.ckptDone k (s.gang g).seq) (fun s k => s.ckptDone_keepsDesk ..)
    (s.gangWaves g) ((s.still g).writeImage g 2 a)
  generalize (s.gangWaves g).foldl _ ((s.still g).writeImage g 2 a) = t at done ⊢
  have before := still.gangs g
  have after := done.gangs g
  rw [gang] at after
  simp only [Gang.standing, Prod.mk.injEq] at before after
  obtain ⟨placed, blocks, seq, -⟩ := before
  obtain ⟨placed', blocks', seq', -⟩ := after
  refine ⟨placed'.trans placed, blocks'.trans blocks, seq'.trans (congrArg (· + 1) seq), i, ?_, imaged.addr, imaged.key,
    imaged.kind_eq, imaged.seq.trans (congrArg (· + 1) seq)⟩
  rw [done.images, imaged.listed, still.images]

/-- R344: a saved gang whose chain of images verifies, with room for it. -/
theorem restore_verified {s : State} {g : Nat} {a : BitVec 64} {c c0 : Nat} {hs : List ShareSpec} {i : Image}
    (saved : (s.gang g).preempt = .saved) (chain : s.chainOk g (s.images.length + 1) a.toNat = true)
    (found : s.imageAt g a.toNat = some i) (room : s.placeable g c c0 hs i.sb = true)
    (engines : s.engineRoom i c c0 = true) (distinct : (i.waves.map Prod.fst).Nodup)
    (halts : i.gang.halted = true → (s.gang g).halted = true) :
    Answers (.restore g a c c0 hs) s fun t =>
      (t.gang g).placed = true ∧ (t.gang g).cluster = c ∧ (t.gang g).c0 = c0 ∧ (t.gang g).preempt = .none ∧
      (t.gang g).blocks = i.blocks.map Prod.fst ∧ t.mem = s.mem ∧
      ∀ p ∈ i.waves, (t.wave p.1).unif = p.2.unif ∧ ∀ l, ((t.wave p.1).lane l).arch = (p.2.lane l).arch := by
  obtain ⟨mem, gang, waves⟩ := s.putImage_result g i a c c0 distinct
  have onward := s.restoreTo_continues g i a c c0 hs
  have back := onward.gangs g
  rw [gang] at back
  have halted : ((s.restoreTo g i a c c0 hs).gang g).halted = (s.gang g).halted := (congrArg Gang.halted back :)
  refine ⟨s.restoreTo g i a c c0 hs, ?_, (congrArg Gang.placed back :), (congrArg Gang.cluster back :),
    (congrArg Gang.c0 back :), (congrArg Gang.preempt back :), (congrArg Gang.blocks back :), onward.values.mem.trans mem,
    fun p h => ?_⟩
  · rw [execRestore_verified saved chain found room engines, State.resumed_self _ g i fun h => halted.trans (halts h)]
  · obtain ⟨unif, threads⟩ := (waves p h).trans (onward.values.waves p.1)
    exact ⟨unif, threads⟩

/-- Settles O50, by what a written image lists, and by what stands when an image is put back. -/
theorem imagesAreWrittenAndRestored : Obligations.ImagesAreWrittenAndRestored := by
  unfold Obligations.ImagesAreWrittenAndRestored
  refine ⟨⟨fun s g full a saving quiet fits => save_quiet saving quiet fits,
    fun s g a under quiet between fits => checkpoint_quiet under quiet between fits⟩,
    fun s g c c0 a hs saved => ⟨execRestore_unverified c c0 hs saved,
      fun i chain found room engines distinct halts => restore_verified saved chain found room engines distinct halts⟩⟩

end Sys2Proof.Proofs
end
